-- ==== Sys2Proof/Word.lean ====
section
/-! DEFINITION. The words the manual treats as bits: bytes, part time, the odometer, and the plain
arithmetic on them (00_scope.md section 6). -/

namespace Sys2Proof

/-- One byte of a frame, of the settings or of a memory. -/
abbrev Byte := BitVec 8

/-- Part time in ms: 32 bits, wrapping (00_scope.md section 6, "Time"). -/
abbrev Time := BitVec 32

/-- The odometer in du: 32 bits, wrapping (R22). -/
abbrev Odometer := BitVec 32

/-- A throttle id: the four bytes of a source id, the first one least significant (R43, Table 5-1a). -/
abbrev ThrottleId := BitVec 32

end Sys2Proof
end

