-- ==== Sys2Proof/Syntax.lean ====
section
/-! DEFINITION. The commands: one constructor for each row of spec/opcode_table.json, in the table's order.
A request row (CLAIM … RESET, CONSIST_HOLD, DISCARDED_FRAME, UNKNOWN_KIND) is the taking of the next frame
of the intake queues (R82); its operands are the fields of that frame (log 4). Readings are in the units
of the rule that takes them. -/

namespace Sys2Proof

/-- The part's two ports (00_scope.md section 2). -/
inductive Port where
  | radio
  | localLine
  deriving DecidableEq, Repr

/-- A level of the cam input or of the envelope line (R23, R156). -/
inductive Level where
  | low
  | high
  deriving DecidableEq, Repr

/-- The commands of the K46, one for each row of the table. -/
inductive Instr where
  /-- POWER_ON_RESET (R178). -/
  | powerOnReset
  /-- SOFT_RESET (R90, R178). -/
  | softReset
  /-- SETTINGS_LOAD_COMPLETE (R178): whether the read succeeded, and the two voltages of the reset start of
  the supply (R144), in mV. -/
  | settingsLoadComplete (ok : Bool) (trackMv storeMv : Nat)
  /-- FRAME_RECEIVED (R81): the bytes of a whole frame arrive back to back, the start byte, the length byte,
  the body, and on the radio port the quality byte. -/
  | frameReceived (port : Port) (body : List Byte) (quality : Byte)
  /-- BYTE_GAP_TIMEOUT (R79). -/
  | byteGapTimeout (port : Port)
  /-- CLAIM (R60 to R64). -/
  | claim
  /-- RELEASE (R65). -/
  | release
  /-- DRIVE (R67, R26). -/
  | drive
  /-- FUNC (R68, R98). -/
  | func
  /-- STOP (R31). -/
  | stop
  /-- RESUME (R32). -/
  | resume
  /-- CONSIST (R75). -/
  | consist
  /-- CFG_OPEN (R170). -/
  | cfgOpen
  /-- CFG_DATA (R171). -/
  | cfgData
  /-- CFG_CLOSE (R171, R168). -/
  | cfgClose
  /-- CFG_TIMEOUT (R172). -/
  | cfgTimeout
  /-- SAVE (R173). -/
  | save
  /-- SAVE_ERASE_COMPLETE (R173): whether the erase succeeded. -/
  | saveEraseComplete (ok : Bool)
  /-- SAVE_WRITE_COMPLETE (R173): whether the write succeeded. -/
  | saveWriteComplete (ok : Bool)
  /-- BANK_WRITE_COMPLETE (R174): whether the page write succeeded. -/
  | bankWriteComplete (ok : Bool)
  /-- QUERY_STATUS (R88). -/
  | queryStatus
  /-- QUERY_THROTTLES (R55). -/
  | queryThrottles
  /-- QUERY_COUNTERS (R96). -/
  | queryCounters
  /-- QUERY_FAULTS (R176). -/
  | queryFaults
  /-- QUERY_CHECK_RESULT (R88). -/
  | queryCheckResult
  /-- QUERY_LEARN_RESULT (R88). -/
  | queryLearnResult
  /-- QUERY_SOUND (R88). -/
  | querySound
  /-- QUERY_FUNCTIONS (R88). -/
  | queryFunctions
  /-- CHECK (R19). -/
  | check
  /-- CLEAR_FAULTS (R177). -/
  | clearFaults
  /-- PRESENCE (R87). -/
  | presence
  /-- LEARN (R164). -/
  | learn
  /-- OUTPUT_LOCAL (R104). -/
  | outputLocal
  /-- RESET (R90). -/
  | reset
  /-- CONSIST_HOLD (R89). -/
  | consistHold
  /-- REPLY_SEND_START (R93). -/
  | replySendStart (port : Port)
  /-- REPLY_SENT (R93). -/
  | replySent (port : Port)
  /-- RATE_INTERVAL (R48). -/
  | rateInterval
  /-- SILENCE_LIMIT (R50) of one throttle entry. -/
  | silenceLimit (index : Nat)
  /-- FORGET_TIME (R52) of one throttle entry. -/
  | forgetTime (index : Nat)
  /-- RESERVATION_EXPIRY (R71) of the items that name one throttle entry. -/
  | reservationExpiry (index : Nat)
  /-- CONTROL_PERIOD (R3): the averaged current in mA and the sampled back-EMF in su. -/
  | controlPeriod (current backEmf : Nat)
  /-- CHECK_COMPLETE (R20): the control period that ends a running check. -/
  | checkComplete (current backEmf : Nat)
  /-- MOTOR_SHORT (R14): the current sensed, in mA. -/
  | motorShort (current : Nat)
  /-- MOTOR_STALL (R15): the control period that detects a stall. -/
  | motorStall (current backEmf : Nat)
  /-- MOTOR_OPEN (R16): the control period that detects an open winding. -/
  | motorOpen (current backEmf : Nat)
  /-- FAULT_RETRY (R17). -/
  | faultRetry
  /-- CAM_INPUT_CHANGE (R23): the level the input takes. -/
  | camInputChange (level : Level)
  /-- CAM_CHUFF (R23). -/
  | camChuff
  /-- DWELL_EXPIRY (R39). -/
  | dwellExpiry
  /-- CAP_DISTANCE_EXPIRY (R34, R40): the control period whose odometer reaches the cap's expiry. -/
  | capDistanceExpiry (current backEmf : Nat)
  /-- BUDGET_PERIOD (R145): track and store voltage in mV. -/
  | budgetPeriod (trackMv storeMv : Nat)
  /-- RIDE_LIMIT (R150): the budget period at which the ride limit installs the SUPPLY hold. -/
  | rideLimit (trackMv storeMv : Nat)
  /-- RESTORE (R148): the budget period at which the restore completes. -/
  | restore (trackMv storeMv : Nat)
  /-- PARK (R152): the budget period at which the park test holds. -/
  | park (trackMv storeMv : Nat)
  /-- OUTPUT_PERIOD (R105): the currents of groups 0 and 1 in mA. -/
  | outputPeriod (group0 group1 : Nat)
  /-- GROUP_RETRY (R112) of one output group. -/
  | groupRetry (group : Nat)
  /-- MOMENTARY_EXPIRY (R100) of one switch. -/
  | momentaryExpiry (switch : Nat)
  /-- SAMPLE_EVENT (R127). -/
  | sampleEvent
  /-- VOLUME_STEP (R128). -/
  | volumeStep
  /-- ENVELOPE_STEP (R126, R131) of one voice. -/
  | envelopeStep (voice : Nat)
  /-- VOICE_READ_COMPLETE (R121, R122): whether the read succeeded. -/
  | voiceReadComplete (ok : Bool)
  /-- DIRECTORY_READ_COMPLETE (R113): whether the Flash Port read without error. -/
  | directoryReadComplete (ok : Bool)
  /-- FLASH_REQUEST_START (R175). -/
  | flashRequestStart
  /-- SMOKE_PERIOD (R136): the sensor reading in degrees C. -/
  | smokePeriod (reading : Int)
  /-- PUFF_END (R142). -/
  | puffEnd
  /-- FAN_STOP (R139). -/
  | fanStop
  /-- BURST_BEGIN (R156, R157): the level of the envelope line at each eighth since it was last sampled. -/
  | burstBegin (line : List Level)
  /-- BURST_END (R156, R157): the level of the envelope line at each eighth since it was last sampled. -/
  | burstEnd (line : List Level)
  /-- CAPTURE_QUIET (R156, R157): the level of the envelope line at each eighth since it was last sampled. -/
  | captureQuiet (line : List Level)
  /-- LEARN_EXPIRY (R165). -/
  | learnExpiry
  /-- BYTE_ARRIVAL (R79). -/
  | byteArrival (port : Port) (byte : Byte)
  /-- DISCARDED_FRAME (R83, R84). -/
  | discardedFrame
  /-- UNKNOWN_KIND (R86). -/
  | unknownKind
  /-- RUN_FINISHED (R156, R157): the level of the envelope line at each eighth since it was last sampled. -/
  | runFinished (line : List Level)
  deriving DecidableEq, Repr

end Sys2Proof
end

