-- ==== Sys2Proof/Decode.lean ====
section
/-! DEFINITION. The command a word spells by the bits of spec/opcode_table.json. No row of this table gives
bits (every "fields" list is empty, and no row has a match or a mask), so no word spells a command. What
the part itself decodes, frames, is in Machine/Frames.lean. -/

namespace Sys2Proof

/-- The command that a word of `nbits` bits spells: none, for the table gives no row any bits (log 44). -/
def decodeTableWord (_nbits _w : Nat) : Option Instr := none

end Sys2Proof
end

