-- ==== Sys2Proof/Config.lean ====
section
/-! DEFINITION. The free values: what the manual leaves open and the part produces all the same. None has
a body, so no proof can rest on what one of them is. The first argument is the model's counter
`State.freeCount`, so that two uses need not agree. -/

namespace Sys2Proof

/-- A byte of serial flash whose contents the manual does not give: one that a failed erase or write left
behind, or one read beyond the last page of the sound bank (R173, R174; log 6, 7). -/
opaque Config.freeFlashByte : Nat → Nat → Byte

/-- The estimate field of a CHECK_RESULT report whose record has no estimate (Table 5-6; log 20). -/
opaque Config.absentEstimate : Nat → BitVec 16

/-- A byte of a CONSIST_HOLD payload that belongs to the other hold kind, or the dwell byte of a stop
without a dwell (Table 5-4, R163; log 20). -/
opaque Config.unusedHoldByte : Nat → Nat → Byte

/-- The heater demand computed while no valid temperature reading has been taken (R138; log 34). -/
opaque Config.demandWithoutReading : Nat → Nat

end Sys2Proof
end

