-- ==== Sys2Proof/Machine/Bits.lean ====
section
/-! DEFINITION. Byte order, bytes of a value, and the CRC (00_scope.md section 6, R80). -/

namespace Sys2Proof.Machine

/-- Two bytes of a value, low byte first. -/
def le2 (n : Nat) : List Byte := [BitVec.ofNat 8 n, BitVec.ofNat 8 (n / 256)]

/-- Four bytes of a 32-bit value, low byte first. -/
def le4 (w : BitVec 32) : List Byte :=
  [w.extractLsb' 0 8, w.extractLsb' 8 8, w.extractLsb' 16 8, w.extractLsb' 24 8]

/-- Two bytes of a signed value, low byte first, in two's complement. -/
def le2s (i : Int) : List Byte := le2 (i % 65536).toNat

/-- The byte at an index of a list, 0 beyond its end. -/
def byteAt (bs : List Byte) (i : Nat) : Nat := (bs.getD i 0).toNat

/-- The two-byte little-endian value at an index. -/
def halfAt (bs : List Byte) (i : Nat) : Nat := byteAt bs i + 256 * byteAt bs (i + 1)

/-- The four-byte little-endian value at an index. -/
def wordAt (bs : List Byte) (i : Nat) : Nat := halfAt bs i + 65536 * halfAt bs (i + 2)

/-- A 16-bit pattern read as a two's complement number. -/
def signed16 (n : Nat) : Int := if n < 32768 then (n : Int) else (n : Int) - 65536

/-- One bit of the CRC: generator x^16 + x^12 + x^5 + 1, most significant bit first (R80). -/
def crcBit (c : BitVec 16) : BitVec 16 := if c.msb then (c <<< 1) ^^^ 0x1021#16 else c <<< 1

/-- One byte of the CRC. -/
def crcByte (c : BitVec 16) (b : Byte) : BitVec 16 :=
  let x := c ^^^ (b.setWidth 16 <<< 8)
  crcBit (crcBit (crcBit (crcBit (crcBit (crcBit (crcBit (crcBit x)))))))

/-- The CRC of a run of bytes: initial value 0xFFFF, no reflection, no final inversion (R80). -/
def crc (bs : List Byte) : BitVec 16 := bs.foldl crcByte 0xFFFF#16

/-- The CRC field: the high byte first (R80). -/
def crcBytes (bs : List Byte) : List Byte := [(crc bs).extractLsb' 8 8, (crc bs).extractLsb' 0 8]

end Sys2Proof.Machine
end

