-- ==== Sys2Proof/Machine/Defaults.lean ====
section
/-! DEFINITION. The factory defaults of the 776 bytes of settings: the default values of every table of
settings, 0 in each kept byte (R167). -/

namespace Sys2Proof.Machine

/-- A byte of a default. -/
def dflt (n : Nat) : Byte := BitVec.ofNat 8 n

/-- Indices 0 to 31 (Table 11-2). -/
def defaultGeneral : List Byte :=
  le2 3 ++ [dflt 255] ++ List.replicate 7 0 ++ [dflt 80, dflt 30, dflt 12, dflt 16, dflt 60] ++ List.replicate 17 0

/-- Indices 32 to 95 (Table 11-2, Table 1-2). -/
def defaultMotor : List Byte :=
  (List.range 11).flatMap (fun k => le2 (400 * k)) ++ [dflt 128, dflt 128] ++ le2 400 ++ le2 400 ++ le2 1500
    ++ le2 1000 ++ [dflt 64, dflt 8] ++ le2 3000 ++ [dflt 30] ++ le2 4000 ++ [dflt 0] ++ List.replicate 24 0

/-- Indices 96 to 159: the factory function map (R101). -/
def defaultFunctionMap : List Byte :=
  [dflt (1 + 64), dflt (2 + 128), dflt 3, dflt 0, dflt 9, dflt 0, dflt 10, dflt 0, dflt 41, dflt 0, dflt 42, dflt 0,
    dflt 43, dflt 0, dflt 45, dflt 0] ++ List.replicate 48 0

/-- One output record of indices 160 to 223 (R103). -/
def defaultOutput : List Byte := [dflt 0, dflt 255, dflt 0, dflt 20, dflt 5, dflt 10, dflt 96, dflt 32]

/-- Indices 224 to 231 (Table 8-2). -/
def defaultSmoke : List Byte := le2 230 ++ le2 900 ++ [dflt 80, dflt 255, dflt 60, dflt 60]

/-- Indices 232 to 255 (Table 9-2). -/
def defaultSupply : List Byte :=
  le2 12000 ++ le2 9000 ++ le2 6000 ++ le2 6000 ++ le2 3000 ++ [dflt 50] ++ le2 1000 ++ le2 15000 ++ List.replicate 9 0

/-- One cue of indices 256 to 447: cue c plays clip c as its attack (R114). -/
def defaultCue (c : Nat) : List Byte := [dflt 4, dflt 200, dflt c, dflt 255, dflt 255, dflt 1]

/-- Indices 448 to 479 (R119). -/
def defaultSound : List Byte :=
  [dflt 192] ++ le2 80 ++ le2s (-20) ++ List.replicate 5 (dflt 255) ++ [dflt 31]
    ++ [dflt 0, dflt 12, dflt 12, dflt 12, dflt 24, dflt (10 + 128), dflt 34, dflt (10 + 128), dflt 44, dflt (10 + 128),
      dflt 54, dflt (10 + 128)] ++ List.replicate 9 0

/-- One signature slot of 29 bytes (R158). -/
def defaultSlot : List Byte := [dflt 0, dflt 2] ++ List.replicate 27 0

/-- Indices 480 to 711: eight slots, the last six bytes of slot 7 being the sampling settings (R155). -/
def defaultSlots : List Byte :=
  (List.replicate 7 defaultSlot).flatten ++ [dflt 0, dflt 2] ++ List.replicate 21 0
    ++ [dflt 1] ++ le2 200 ++ [dflt 4] ++ le2 20000

/-- The factory defaults (R167). -/
def factorySettings : List Byte :=
  defaultGeneral ++ defaultMotor ++ defaultFunctionMap ++ (List.replicate 8 defaultOutput).flatten ++ defaultSmoke
    ++ defaultSupply ++ (List.range 32).flatMap defaultCue ++ defaultSound ++ defaultSlots ++ List.replicate 64 0

end Sys2Proof.Machine
end

