-- ==== Sys2Proof/Machine/State.lean ====
section
/-! DEFINITION. Everything the K46 holds, block by block, as plain data, and its value right after reset.
INVENTORY.md '## State' gives the rule of spec/ for each field. -/

namespace Sys2Proof.Machine

/-- FWD or REV (R25). -/
inductive Dir where
  | fwd
  | rev
  deriving DecidableEq, Repr

/-- A source reference: a throttle-table index 0 to 15, or LOCAL (00_scope.md section 5). -/
inductive Source where
  | throttle (index : Nat)
  | localMaster
  deriving DecidableEq, Repr

/-- Who last wrote the demand or a switch: a source reference or BEACON (R25, R97). -/
inductive Writer where
  | source (s : Source)
  | beacon
  deriving DecidableEq, Repr

/-- Motor states (R1). -/
inductive MotorState where
  | stopped
  | running
  | reversing
  | check
  | fault
  deriving DecidableEq, Repr

/-- Motion phases (R24). -/
inductive MotionPhase where
  | stopped
  | accelerating
  | decelerating
  | cruising
  deriving DecidableEq, Repr

/-- The kinds of the Fault List, in the order of Table 5-5 (R176). -/
inductive FaultKind where
  | motorShort
  | motorStall
  | motorOpen
  | outputOverload
  | smokeSensor
  | smokeOvertemp
  | storeLow
  | flashError
  | settingsDefaulted
  deriving DecidableEq, Repr

/-- Status of a Fault List record (R176). -/
inductive FaultStatus where
  | clear
  | active
  | latched
  deriving DecidableEq, Repr

/-- One record of the Fault List (R176). -/
structure FaultRecord where
  status : FaultStatus
  count : Nat
  firstSeen : Time
  lastSeen : Time
  deriving DecidableEq, Repr

/-- The Motor Loop's fault record: the kind, and a retry time, absent when LATCHED (R1). -/
structure MotorFault where
  kind : FaultKind
  retry : Option Time
  deriving DecidableEq, Repr

/-- Results of a motor check, in the order of Table 5-6. -/
inductive CheckResult where
  | notRun
  | normal
  | openCircuit
  | short
  | moving
  | abandoned
  deriving DecidableEq, Repr

/-- The check record (R1, R20). -/
structure CheckRecord where
  result : CheckResult
  estimate : Option Nat
  time : Time
  deriving DecidableEq, Repr

/-- The Motor Loop (Table 1-1), without the odometer's published copy. -/
structure Motor where
  R : Nat
  Mf : Nat
  I : Int
  cap : Nat
  Da : Nat
  C : Nat
  rising : Nat
  falling : Nat
  state : MotorState
  fault : Option MotorFault
  shorts : List Time
  lastStall : Option Time
  stallCount : Nat
  openCount : Nat
  checkRecord : CheckRecord
  checkProgress : Option Nat
  checkC : List Nat
  /-- A CHECK request is accepted and its check starts at the next control period (R19). -/
  checkAccepted : Bool
  /-- A check ended by a short in the control period under way, which R13 leaves unclassified (R20). -/
  checkShorted : Bool
  odometer : Odometer
  chuffAcc : Nat
  camLevel : Level
  camStable : Nat
  camArmed : Bool
  labour : Int
  phase : MotionPhase
  deriving DecidableEq, Repr

/-- The set of values published at the end of a control period (R24). -/
structure Published where
  R : Nat
  Mf : Nat
  Da : Nat
  C : Nat
  L : Int
  phase : MotionPhase
  motorState : MotorState
  odometer : Odometer
  deriving DecidableEq, Repr

/-- The demand record (Table 2-1). -/
structure Demand where
  step : Nat
  commanded : Dir
  applied : Dir
  pending : Bool
  lastWriter : Option Writer
  deriving DecidableEq, Repr

/-- Sources of holds (R29). -/
inductive HoldSource where
  | emergency
  | localMaster
  | supply
  | motorFault
  | radioLoss
  | beacon
  deriving DecidableEq, Repr

/-- Kinds of holds (Table 2-2). -/
inductive HoldKind where
  | stop
  | cap
  deriving DecidableEq, Repr

/-- Decelerations a STOP hold asks for (Table 2-2). -/
inductive Decel where
  | instant
  | normal
  | rate (d : Nat)
  deriving DecidableEq, Repr

/-- The deceleration in effect (R36). -/
inductive EffDecel where
  | instant
  | rate (d : Nat)
  deriving DecidableEq, Repr

/-- When a hold ends by itself (Table 2-2). -/
inductive Expiry where
  | absent
  | atTime (t : Time)
  | atOdometer (o : Odometer)
  deriving DecidableEq, Repr

/-- Progress of a targeted stop (Table 2-2). -/
inductive StopPhase where
  | approach
  | dwell
  deriving DecidableEq, Repr

/-- Where a BEACON hold came from (Table 2-2). -/
inductive Origin where
  | own
  | consist
  deriving DecidableEq, Repr

/-- An entry of the hold list (Table 2-2). `phase`, `dwell`, `reverseAtEnd` and `origin` are those of a
BEACON entry. -/
structure Hold where
  source : HoldSource
  kind : HoldKind
  capValue : Nat
  decel : Decel
  expiry : Expiry
  phase : Option StopPhase
  dwell : Option Nat
  reverseAtEnd : Bool
  origin : Option Origin
  created : Time
  deriving DecidableEq, Repr

/-- An occupied throttle entry (Table 3-1): LOST while `lostSince` is present, else ACTIVE. -/
structure ThrottleEntry where
  id : ThrottleId
  lostSince : Option Time
  lastSeq : Byte
  lastHeard : Time
  path : Byte
  quality : Byte
  intervalCount : Nat
  dropCount : Nat
  deriving DecidableEq, Repr

/-- A holder item: ACTIVE, or RESERVED until a part time (Table 4-1). -/
structure HolderItem where
  source : Source
  until_ : Option Time
  deriving DecidableEq, Repr

/-- Modes of the DRIVE claim (R57). -/
inductive DriveMode where
  | free
  | exclusive
  | shared
  deriving DecidableEq, Repr

/-- The DRIVE claim record (Table 4-1). -/
structure DriveClaim where
  mode : DriveMode
  holders : List HolderItem
  generation : Nat
  deriving DecidableEq, Repr

/-- States of a byte receiver (R79). -/
inductive RxState where
  | hunt
  | length
  | body
  | quality
  deriving DecidableEq, Repr

/-- A byte receiver: its state, the body length, the body bytes kept, and the ms since the previous byte
of the frame (R79). -/
structure Receiver where
  state : RxState
  len : Nat
  body : List Byte
  gap : Nat
  deriving DecidableEq, Repr

/-- A complete frame of an intake queue: its body and, on the radio port, its quality byte (R81). -/
structure Frame where
  body : List Byte
  quality : Byte
  deriving DecidableEq, Repr

/-- A frame of the reply queue: its port, its body, and whether it answers a RESET (R90, R93). -/
structure OutFrame where
  port : Port
  body : List Byte
  isReset : Bool
  deriving DecidableEq, Repr

/-- One port's seven counters (R96). -/
structure Counters where
  received : Nat
  framing : Nat
  overflows : Nat
  crcErrors : Nat
  layout : Nat
  sent : Nat
  dropped : Nat
  deriving DecidableEq, Repr

/-- One port of the Frame Engine: receiver, intake queue, transmitter, counters (R79, R81, R93, R96).
`sending` is the bytes of the frame the transmitter is sending, absent while it is idle (log 57). -/
structure PortState where
  rx : Receiver
  intake : List Frame
  sending : Option (List Byte)
  counters : Counters
  deriving DecidableEq, Repr

/-- One function switch (R97). -/
structure Switch where
  on : Bool
  lastSetter : Option Writer
  expiry : Option Time
  deriving DecidableEq, Repr

/-- Control modes of an output (R104). -/
inductive OutputMode where
  | function
  | localLevel
  deriving DecidableEq, Repr

/-- The live state of one output (R104). -/
structure Output where
  mode : OutputMode
  localLevel : Nat
  fade : Nat
  counter : Nat
  generator : Nat
  drawn : Nat
  lastDemand : Bool
  final : Nat
  deriving DecidableEq, Repr

/-- A clip of the directory copy (R113): variant 0 none, 1 LIGHT, 2 NORMAL, 3 HEAVY. -/
structure Clip where
  id : Nat
  addr : Nat
  len : Nat
  gain : Nat
  loop : Option (Nat × Nat)
  variant : Nat
  deriving DecidableEq, Repr

/-- States of a voice (Table 7-1). -/
inductive VoiceState where
  | idle
  | prime
  | attack
  | loop
  | release
  deriving DecidableEq, Repr

/-- The phases of a cue (R115). -/
inductive CuePhase where
  | attack
  | loop
  | release
  deriving DecidableEq, Repr

/-- Directions of an envelope (Table 7-1). -/
inductive EnvDir where
  | steady
  | rising
  | falling
  deriving DecidableEq, Repr

/-- A partition of the voice buffer RAM: start unit, size in units, double flag (R120). -/
structure Partition where
  start : Nat
  size : Nat
  dbl : Bool
  deriving DecidableEq, Repr

/-- A run of consecutive samples of a clip (R122). -/
structure Run where
  start : Nat
  len : Nat
  deriving DecidableEq, Repr

/-- One half of a double buffer (Table 7-1). -/
inductive Half where
  | empty
  | filling (r : Run)
  | full (r : Run)
  deriving DecidableEq, Repr

/-- Why a voice past PRIME has no sample to give: an underrun, a read from the loop point, or a fading
voice whose data has run out (R122, R131). -/
inductive Wait where
  | none
  | underrun
  | loopRead
  | starved
  deriving DecidableEq, Repr

/-- An entry of a cue stack (R125). -/
structure StackEntry where
  cue : Nat
  phase : CuePhase
  pos : Nat
  passes : Nat
  deriving DecidableEq, Repr

/-- A voice (Table 7-1). `playing` is the half that plays, `nextRun` the start of the run to ask for next
(R122), `exhaust` says that the cue plays one clip chosen by R118. -/
structure Voice where
  state : VoiceState
  cue : Option Nat
  nextPhase : Option CuePhase
  clip : Option Clip
  pos : Nat
  passes : Nat
  env : Nat
  envDir : EnvDir
  startNo : BitVec 32
  part : Option Partition
  half0 : Half
  half1 : Half
  playing : Bool
  nextRun : Option Nat
  wait : Wait
  exhaust : Bool
  resident : Option (Nat × Partition)
  stack : List StackEntry
  underruns : Nat
  deriving DecidableEq, Repr

/-- Engine modes (R130). -/
inductive EngineMode where
  | normal
  | quiet
  deriving DecidableEq, Repr

/-- The Sound Engine (R113, R118, R120, R127, R128, R130, R133). -/
structure Sound where
  directory : List Clip
  voices : List Voice
  startCounter : BitVec 32
  overlapDrops : Nat
  priorityDrops : Nat
  rotation : List Byte
  master : Nat
  mode : EngineMode
  dirPending : Bool
  ambient : Bool
  sample : Int
  deriving DecidableEq, Repr

/-- Smoke states (R134). -/
inductive SmokeState where
  | off
  | heating
  | ready
  | shed
  | fault
  deriving DecidableEq, Repr

/-- Fan modes (R134). -/
inductive FanMode where
  | stopped
  | idle
  | puff
  deriving DecidableEq, Repr

/-- The Smoke Controller's fault record: SMOKE_SENSOR with its fan stop time, or SMOKE_OVERTEMP (R134). -/
inductive SmokeFault where
  | sensor (fanStop : Time)
  | overtemp
  deriving DecidableEq, Repr

/-- The settings of the Smoke Controller that take effect at a smoke period: setpoint, maximum heater duty,
idle level (R135). -/
structure SmokeSettings where
  setpoint : Nat
  maxDuty : Nat
  idle : Nat
  deriving DecidableEq, Repr

/-- The Smoke Controller (Table 8-1); `fresh` until the first smoke period after a reset (R134), `inUse` the
settings in effect (R135; log 56). -/
structure Smoke where
  state : SmokeState
  temp : Option Int
  limit : Int
  demand : Nat
  duty : Nat
  fan : FanMode
  puffEnd : Option Time
  fanLevel : Nat
  fault : Option SmokeFault
  fresh : Bool
  inUse : SmokeSettings
  deriving DecidableEq, Repr

/-- Supply states (R144). -/
inductive SupplyState where
  | track
  | ride
  | dark
  | parked
  deriving DecidableEq, Repr

/-- The grants record (R154). -/
structure Grants where
  lights : Nat
  sound : Nat
  heater : Nat
  charging : Nat
  dim : Nat
  volumeCap : Nat
  heaterCap : Nat
  charge : Nat
  deriving DecidableEq, Repr

/-- The Supply Supervisor (Table 9-1). -/
structure Supply where
  state : SupplyState
  vt : Nat
  vs : Nat
  restoreStart : Option Time
  rideStart : Option Time
  holdFlag : Bool
  lastActivity : Time
  grants : Grants
  deriving DecidableEq, Repr

/-- Receiver states (R155). -/
inductive BeaconState where
  | idle
  | capture
  | learnArmed
  | learnCapture
  deriving DecidableEq, Repr

/-- An entry of the capture list (R156). -/
structure CaptureEntry where
  level : Level
  width : Nat
  deriving DecidableEq, Repr

/-- Learn states (R155). -/
inductive LearnState where
  | none
  | armed
  | learned
  | cancelled
  deriving DecidableEq, Repr

/-- The learn record (R155). -/
structure LearnRecord where
  state : LearnState
  slot : Nat
  entries : Nat
  time : Time
  deriving DecidableEq, Repr

/-- The Beacon Receiver (Table 10-1). `unsettled` says that the last eighth had the other level than the run in
progress, and that the run timer waits to see whether it lasts (R156). -/
structure Beacon where
  state : BeaconState
  closed : Bool
  runLevel : Level
  runLen : Nat
  unsettled : Bool
  capture : List CaptureEntry
  lastMatch : Option (Nat × Odometer)
  learn : LearnRecord
  learnExpiry : Option Time
  deriving DecidableEq, Repr

/-- States of the configuration transaction (R169). -/
inductive TxnState where
  | closed
  | openWrite
  | openRead
  deriving DecidableEq, Repr

/-- Targets of a transaction (R169). -/
inductive TxnTarget where
  | settings
  | bank
  deriving DecidableEq, Repr

/-- The transaction record with the staged buffer: each of the first `count` places is absent until it is
staged, so that a place present is a marked byte (R169). -/
structure Txn where
  state : TxnState
  opener : Source
  target : TxnTarget
  start : Nat
  count : Nat
  staged : List (Option Byte)
  lastFrame : Time
  deriving DecidableEq, Repr

/-- Flash jobs (R167): none, SAVE, and BANK in its two stages, the page write and the directory read that
follows it (R174). -/
inductive FlashJob where
  | none
  | save
  | bank
  | bankRead
  deriving DecidableEq, Repr

/-- Requesters at the Flash Port (R175): a voice, the Sound Engine's directory read, the Settings Store,
and the Store's start-up read. -/
inductive Requester where
  | voice (v : Nat)
  | directory
  | store
  | startUp
  deriving DecidableEq, Repr

/-- Operations of the Flash Port (R175). -/
inductive FlashOp where
  | read (addr len : Nat)
  | eraseSettings
  | writeImage (image : List Byte)
  | writePage (page : Nat) (bytes : List Byte)
  deriving DecidableEq, Repr

/-- A request of the Flash Port (R175). -/
structure FlashRequest where
  who : Requester
  op : FlashOp
  entered : Time
  deriving DecidableEq, Repr

/-- The Flash Port: the requests that have not begun, oldest first, and the operation in progress with a
mark that its result is to be discarded (R175). -/
structure FlashPort where
  waiting : List FlashRequest
  busy : Option (FlashRequest × Bool)
  deriving DecidableEq, Repr

/-- A byte memory: (address, byte) pairs, addresses strictly rising, none equal to what an unlisted
address reads as. -/
abbrev Mem := List Host.Cell

/-- The start-up phase: LOADING from a reset until the saved image or the defaults are installed (R178). -/
inductive StartPhase where
  | loading
  | running
  deriving DecidableEq, Repr

/-- What the K46 holds. -/
structure State where
  partTime : Time
  phase : StartPhase
  resetWait : Bool
  motor : Motor
  pub : Published
  demand : Demand
  holds : List Hold
  throttles : List (Option ThrottleEntry)
  refusedLearns : Nat
  rateDue : Time
  drive : DriveClaim
  groups : List (Option HolderItem)
  radio : PortState
  localLine : PortState
  replies : List OutFrame
  holdSeq : Byte
  switches : List Switch
  outputs : List Output
  trips : List (Option Time)
  lightDemand : Nat
  sound : Sound
  voiceRam : Mem
  smoke : Smoke
  supply : Supply
  beacon : Beacon
  settings : List Byte
  unsaved : Bool
  changedSinceCopy : Bool
  txn : Txn
  job : FlashJob
  image : List Byte
  port : FlashPort
  flash : Mem
  faults : List FaultRecord
  freeCount : Nat
  pending : List Instr
  deriving DecidableEq, Repr

/-- Why the machine stops with a fault. No constructor: no rule of the manual stops the part, and what it
calls a fault is an effect on State (R176; log 41). -/
inductive Fault where
  deriving DecidableEq, Repr

/-- Why a command has no meaning. -/
inductive Refusal where
  /-- Raised by `exec` for a row that has no meaning yet; safe. -/
  | notModelled (mnemonic : String)
  deriving DecidableEq, Repr

/-- The Motor Loop after a power-on reset (Table 1-1). -/
def resetMotor : Motor :=
  { R := 0, Mf := 0, I := 0, cap := 1023, Da := 0, C := 0, rising := 0, falling := 0, state := .stopped,
    fault := none, shorts := [], lastStall := none, stallCount := 0, openCount := 0,
    checkRecord := { result := .notRun, estimate := none, time := 0 }, checkProgress := none, checkC := [],
    checkAccepted := false, checkShorted := false, odometer := 0, chuffAcc := 0, camLevel := .low, camStable := 0, camArmed := true, labour := 0, phase := .stopped }

/-- The published set before the first control period (log 9). -/
def resetPublished : Published :=
  { R := 0, Mf := 0, Da := 0, C := 0, L := 0, phase := .stopped, motorState := .stopped, odometer := 0 }

/-- A receiver in HUNT with empty queues and counters (R79, R81, R96). -/
def resetPort : PortState :=
  { rx := { state := .hunt, len := 0, body := [], gap := 0 }, intake := [], sending := none,
    counters := { received := 0, framing := 0, overflows := 0, crcErrors := 0, layout := 0, sent := 0, dropped := 0 } }

/-- An IDLE voice with its optional fields absent; its passes left, envelope and start number are the model's
choice (R120; log 49). -/
def resetVoice : Voice :=
  { state := .idle, cue := none, nextPhase := none, clip := none, pos := 0, passes := 1, env := 0, envDir := .steady,
    startNo := 0, part := none, half0 := .empty, half1 := .empty, playing := false, nextRun := none, wait := .none,
    exhaust := false, resident := none, stack := [], underruns := 0 }

/-- The live state of output n after a reset (R104). -/
def resetOutput (n : Nat) : Output :=
  { mode := .function, localLevel := 0, fade := 0, counter := 0, generator := n * 4099 + 1, drawn := 0,
    lastDemand := false, final := 0 }

/-- The Smoke Controller after a reset, at the default settings (R134, R135; log 9). -/
def resetSmoke : Smoke :=
  { state := .off, temp := none, limit := 290, demand := 0, duty := 0, fan := .stopped, puffEnd := none, fanLevel := 0,
    fault := none, fresh := true, inUse := { setpoint := 230, maxDuty := 900, idle := 60 } }

/-- The Supply Supervisor before its first budget period (R144; log 9). -/
def resetSupply : Supply :=
  { state := .track, vt := 0, vs := 0, restoreStart := none, rideStart := none, holdFlag := false, lastActivity := 0,
    grants := { lights := 0, sound := 0, heater := 0, charging := 0, dim := 0, volumeCap := 0, heaterCap := 0, charge := 0 } }

/-- The Beacon Receiver after a reset (Table 10-1). -/
def resetBeacon : Beacon :=
  { state := .idle, closed := false, runLevel := .low, runLen := 0, unsettled := false, capture := [], lastMatch := none,
    learn := { state := .none, slot := 0, entries := 0, time := 0 }, learnExpiry := none }

/-- The transaction record after a reset: CLOSED, its other fields the model's choice (R169; log 55). -/
def resetTxn : Txn :=
  { state := .closed, opener := .localMaster, target := .settings, start := 0, count := 0, staged := [], lastFrame := 0 }

/-- The Sound Engine after a reset: QUIET until its directory read completes (R120, R128, R130). -/
def resetSound : Sound :=
  { directory := [], voices := List.replicate 6 resetVoice, startCounter := 0, overlapDrops := 0, priorityDrops := 0,
    rotation := [0, 0, 0], master := 0, mode := .quiet, dirPending := true, ambient := false, sample := 0 }

/-- A CLEAR record of the Fault List (R176). -/
def clearFaultRecord : FaultRecord := { status := .clear, count := 0, firstSeen := 0, lastSeen := 0 }

/-- The start-up read of the saved image: 778 bytes from address 0 (R178). -/
def startUpRead (now : Time) : FlashRequest := { who := .startUp, op := .read 0 778, entered := now }

/-- The machine right after a power-on reset (R178): every block at its reset values, the start-up read of
the saved image in progress. -/
def State.reset : State :=
  { partTime := 0
    phase := .loading
    resetWait := false
    motor := resetMotor
    pub := resetPublished
    demand := { step := 0, commanded := .fwd, applied := .fwd, pending := false, lastWriter := none }
    holds := []
    throttles := List.replicate 16 none
    refusedLearns := 0
    rateDue := 500
    drive := { mode := .free, holders := [], generation := 1 }
    groups := List.replicate 4 none
    radio := resetPort
    localLine := resetPort
    replies := []
    holdSeq := 0
    switches := List.replicate 32 { on := false, lastSetter := none, expiry := none }
    outputs := (List.range 8).map resetOutput
    trips := [none, none]
    lightDemand := 0
    sound := resetSound
    voiceRam := []
    smoke := resetSmoke
    supply := resetSupply
    beacon := resetBeacon
    settings := factorySettings
    unsaved := false
    changedSinceCopy := false
    txn := resetTxn
    job := .none
    image := []
    port := { waiting := [], busy := some (startUpRead 0, false) }
    flash := []
    faults := List.replicate 9 clearFaultRecord
    freeCount := 0
    pending := [] }

end Sys2Proof.Machine
end

