-- ==== Sys2Proof/Machine/Ops.lean ====
section
/-! DEFINITION. The named operations every block uses: part time, saturating counts, byte memories, the
tick of part time, the Fault List, entries of indexed tables. -/

namespace Sys2Proof.Machine

/-! ### Time and numbers -/

/-- An expiry is reached when part time has advanced to it (00_scope.md section 6, "Time"): the wrapping
difference is below half the wrap period (log 39). -/
def reached (now due : Time) : Bool := (now - due).toNat < 2147483648

/-- Milliseconds from a time stamp to now. -/
def ageMs (now t : Time) : Nat := (now - t).toNat

/-- A time some milliseconds after another. -/
def later (t : Time) (ms : Nat) : Time := t + BitVec.ofNat 32 ms

/-- An age in tenths of a second, saturating at 65535 (R55, R88). -/
def ageTenths (now t : Time) : Nat := min 65535 (ageMs now t / 100)

/-- A count that saturates at 65535 (R43, R96, R120). -/
def bump16 (n : Nat) : Nat := min 65535 (n + 1)

/-- A count that saturates at 255 (R155, R176). -/
def bump8 (n : Nat) : Nat := min 255 (n + 1)

/-- Clamping to lo..hi (00_scope.md section 6, "Arithmetic"). -/
def clamp (lo hi x : Int) : Int := if x < lo then lo else if hi < x then hi else x

/-- Clamping a natural number to lo..hi. -/
def clampNat (lo hi x : Nat) : Nat := if x < lo then lo else if hi < x then hi else x

/-! ### Byte memories in canonical form -/

/-- What an unlisted flash byte reads as: an erased byte (log 6). -/
def flashBlank : Byte := 0xFF#8

/-- What an unlisted byte of the voice buffer RAM reads as (log 35). -/
def ramBlank : Byte := 0#8

/-- The byte a memory holds at an address; `d` is what an unlisted address reads as. -/
def Mem.read (d : Byte) : Mem → Nat → Byte
  | [], _ => d
  | (k, v) :: rest, a => if a = k then v else if a < k then d else Mem.read d rest a

/-- Put a cell at the head of a memory unless it holds what an unlisted address reads as. -/
def Mem.put (d : Byte) (a : Nat) (b : Byte) (rest : Mem) : Mem := if b = d then rest else (a, b) :: rest

/-- Write one byte, keeping the canonical form. -/
def Mem.write (d : Byte) : Mem → Nat → Byte → Mem
  | [], a, b => Mem.put d a b []
  | (k, v) :: rest, a, b =>
    if a = k then Mem.put d a b rest
    else if a < k then Mem.put d a b ((k, v) :: rest)
    else (k, v) :: Mem.write d rest a b

/-- Write bytes at rising addresses from `a`. -/
def Mem.writeBytes (d : Byte) : Mem → Nat → List Byte → Mem
  | m, _, [] => m
  | m, a, b :: bs => Mem.writeBytes d (Mem.write d m a b) (a + 1) bs

/-- Read `n` bytes at rising addresses from `a`. -/
def Mem.readBytes (d : Byte) (m : Mem) (a n : Nat) : List Byte := (List.range n).map (fun i => Mem.read d m (a + i))

/-- Every address of a memory lies at or above a bound, addresses rise strictly, and no cell holds the
blank byte. -/
def Mem.wfFrom (d : Byte) : Nat → Mem → Bool
  | _, [] => true
  | lo, (k, v) :: rest => decide (lo ≤ k) && decide (v ≠ d) && Mem.wfFrom d (k + 1) rest

/-- The canonical form: addresses strictly rising, no entry equal to what an unlisted address reads as. -/
def Mem.wf (d : Byte) (m : Mem) : Bool := Mem.wfFrom d 0 m

/-- Every cell from an address on: what is left after everything below it reads blank. -/
def Mem.dropBelow (a : Nat) (m : Mem) : Mem := m.filter (fun c => decide (a ≤ c.1))

/-! ### Entries of a table indexed from 0 -/

/-- Change the entry at an index; an index beyond the table changes nothing. -/
def updateAt {α : Type} (l : List α) (i : Nat) (f : α → α) : List α := l.modify i f

/-- Lay bytes over a list from an index on (R168). -/
def overlay (base : List Byte) (start : Nat) (bs : List Byte) : List Byte :=
  base.take start ++ bs ++ base.drop (start + bs.length)

/-! ### Time passing -/

/-- The gap a receiver measures grows while a frame is in progress (R79). -/
def tickPort (p : PortState) : PortState :=
  if p.rx.state = .hunt then p else { p with rx := { p.rx with gap := p.rx.gap + 1 } }

/-- One millisecond of part time: the receivers' gaps (R79), and once the start-up has ended the cam's stable
time (R23), go on counting (log 1). -/
def tick (s : State) : State :=
  let s := { s with partTime := s.partTime + 1, radio := tickPort s.radio, localLine := tickPort s.localLine }
  if s.phase = .loading then s else { s with motor := { s.motor with camStable := s.motor.camStable + 1 } }

/-! ### The Fault List -/

/-- The index of a kind, in the order of Table 5-5. -/
def FaultKind.index : FaultKind → Nat
  | .motorShort => 0
  | .motorStall => 1
  | .motorOpen => 2
  | .outputOverload => 3
  | .smokeSensor => 4
  | .smokeOvertemp => 5
  | .storeLow => 6
  | .flashError => 7
  | .settingsDefaulted => 8

/-- What a report does to its kind's record (R176). -/
def FaultRecord.report (r : FaultRecord) (latched : Bool) (now : Time) : FaultRecord :=
  { status := if latched then .latched else if r.status = .clear then .active else r.status
    count := bump8 r.count
    firstSeen := if r.status = .clear then now else r.firstSeen
    lastSeen := now }

/-- A block reports a kind to the Fault List (R176). -/
def reportFault (k : FaultKind) (latched : Bool) (s : State) : State :=
  { s with faults := updateAt s.faults k.index (fun r => r.report latched s.partTime) }

/-- The active fault set: one bit for each kind whose status is not CLEAR (R176, Table 5-5). -/
def activeFaults (s : State) : Nat :=
  ((List.range 9).map (fun k =>
    match s.faults[k]? with
    | some r => if r.status = .clear then 0 else 2 ^ k
    | none => 0)).sum

/-- At least one record has latched status (R107). -/
def anyLatched (s : State) : Bool := s.faults.any (fun r => r.status == .latched)

end Sys2Proof.Machine
end

