-- ==== Sys2Proof/Machine/Operands.lean ====
section
/-! DEFINITION. Reading operands: the settings by name (chapters 1 to 11), the fields of a frame body
(Table 5-1a), and the questions one block asks of another's state. -/

namespace Sys2Proof.Machine

/-! ### Settings (Table 11-2 and the tables of the chapters) -/

/-- The one-byte setting at an index. -/
def set8 (s : State) (i : Nat) : Nat := byteAt s.settings i

/-- The two-byte setting at an index. -/
def set16 (s : State) (i : Nat) : Nat := halfAt s.settings i

/-- Loco address (Table 11-2). -/
def locoAddress (s : State) : Nat := set16 s 0

/-- Positions in a consist (R74). -/
inductive ConsistPosition where
  | none
  | lead
  | mid
  | trail
  deriving DecidableEq, Repr

/-- The position a byte names (Table 11-2). -/
def positionOf (n : Nat) : ConsistPosition :=
  if n = 1 then .lead else if n = 2 then .mid else if n = 3 then .trail else .none

/-- The consist address of the record in force (R74). -/
def consistAddress (s : State) : Nat := set8 s 3

/-- The consist position of the record in force (R74). -/
def consistPosition (s : State) : ConsistPosition := positionOf (set8 s 4)

/-- The reversed flag of the record in force (R74). -/
def consistReversed (s : State) : Bool := set8 s 5 % 2 == 1

/-- The consist record is set: address 1..127 and a position other than NONE (R74). -/
def consistSet (s : State) : Bool :=
  1 ≤ consistAddress s && consistAddress s ≤ 127 && consistPosition s != .none

/-- The consist function mask names a switch (R74). -/
def consistMask (s : State) (sw : Nat) : Bool := set8 s (6 + sw / 8) / 2 ^ (sw % 8) % 2 == 1

/-- A point of the speed table (Table 1-2). -/
def speedPoint (s : State) (k : Nat) : Nat := set16 s (32 + 2 * k)

/-- An index that names something, unless it lies above the last one (R119). -/
def namedCue (n : Nat) : Option Nat := if n ≤ 31 then some n else none

/-- A byte of cue c's record (R114). -/
def cueByte (s : State) (c i : Nat) : Nat := set8 s (256 + 6 * c + i)

/-- Priority of a cue (R114). -/
def cuePriority (s : State) (c : Nat) : Nat := cueByte s c 0 % 8

/-- Resumable flag of a cue (R114). -/
def cueResumable (s : State) (c : Nat) : Bool := cueByte s c 0 / 8 % 2 == 1

/-- The ambient cue setting (R119). -/
def ambientCue (s : State) : Option Nat := namedCue (set8 s 457)

/-- The exhaust cue setting (R119). -/
def exhaustCue (s : State) : Option Nat := namedCue (set8 s 458)

/-- A byte of output n's record (R103). -/
def outByte (s : State) (n i : Nat) : Nat := set8 s (160 + 8 * n + i)

/-- A byte of a beacon action (R161). -/
def actionByte (s : State) (slot i : Nat) : Nat := set8 s (712 + 8 * slot + i)

/-- A byte of a signature slot (R158). -/
def slotByte (s : State) (slot i : Nat) : Nat := set8 s (480 + 29 * slot + i)

/-! ### Directions -/

/-- The opposite direction. -/
def Dir.flip : Dir → Dir
  | .fwd => .rev
  | .rev => .fwd

/-- The wanted direction: the commanded one, inverted when the consist record is reversed (R25). -/
def wantedDir (s : State) : Dir := if consistReversed s then s.demand.commanded.flip else s.demand.commanded

/-- A direction satisfies a qualifier: BOTH (0), FWD (1), REV (2) (R101, R161). -/
def qualifies (q : Nat) (d : Dir) : Bool :=
  if q = 1 then d == .fwd else if q = 2 then d == .rev else true

/-! ### Features (R101, R102) -/

/-- A thing a feature code names: code of SMOKE. -/
def featSmoke : Nat := 41
/-- Feature code of BRAKE. -/
def featBrake : Nat := 42
/-- Feature code of YARD. -/
def featYard : Nat := 43
/-- Feature code of MOMENTUM_OFF. -/
def featMomentumOff : Nat := 44
/-- Feature code of MUTE. -/
def featMute : Nat := 45
/-- Feature code of OUTPUT n. -/
def featOutput (n : Nat) : Nat := 1 + n
/-- Feature code of CUE c. -/
def featCue (c : Nat) : Nat := 9 + c

/-- A feature byte of a switch that is on names a code actively: the qualifier is satisfied by the applied
direction, or the switch carries a momentary expiry (R102). -/
def featureActive (s : State) (sw : Switch) (code b : Nat) : Bool :=
  sw.on && b % 64 == code && (sw.expiry.isSome || qualifies (b / 64) s.demand.applied)

/-- At least one active feature names the thing (R102). -/
def asked (s : State) (code : Nat) : Bool :=
  (List.range 32).any (fun i =>
    match s.switches[i]? with
    | some sw => featureActive s sw code (set8 s (96 + 2 * i)) || featureActive s sw code (set8 s (97 + 2 * i))
    | none => false)

/-! ### Step to speed (R4, R5) -/

/-- The speed of a throttle step from the speed table (R4). A step above 250 reads as 250. -/
def stepSpeed (s : State) (t : Nat) : Nat :=
  let k := t / 25
  if 10 ≤ k then speedPoint s 10
  else
    ((speedPoint s k : Int)
      + Int.tdiv (((speedPoint s (k + 1) : Int) - (speedPoint s k : Int)) * ((t : Int) - 25 * (k : Int))) 25).toNat

/-- The trim of a direction (R5). -/
def trim (s : State) : Dir → Nat
  | .fwd => set8 s 54
  | .rev => set8 s 55

/-- The trimmed speed of a step in the applied direction (R5). -/
def trimmedSpeed (s : State) (t : Nat) : Nat := min 4000 (stepSpeed s t * trim s s.demand.applied / 128)

/-! ### What the Motion Controller publishes (R35, R36) -/

/-- A STOP entry is present. -/
def stopHeld (s : State) : Bool := s.holds.any (fun h => h.kind == .stop)

/-- The cap values present. -/
def capValues (s : State) : List Nat := s.holds.filterMap (fun h => if h.kind = .cap then some h.capValue else none)

/-- The smaller of a speed and every cap value. -/
def underCaps (speed : Nat) (caps : List Nat) : Nat := caps.foldl min speed

/-- The effective target (R35). -/
def sEff (s : State) : Nat :=
  if stopHeld s || s.demand.pending || asked s featBrake then 0
  else
    let speed := if s.demand.step = 0 then 0 else trimmedSpeed s s.demand.step
    let speed := if asked s featYard then speed / 2 else speed
    underCaps speed (capValues s)

/-- The larger of two rates, INSTANT being larger than any (R36). -/
def EffDecel.harder : EffDecel → EffDecel → EffDecel
  | .instant, _ => .instant
  | _, .instant => .instant
  | .rate a, .rate b => .rate (max a b)

/-- The rate a STOP entry asks, NORMAL asking the deceleration setting D (R36). -/
def Decel.asks (d : Nat) : Decel → EffDecel
  | .instant => .instant
  | .normal => .rate d
  | .rate r => .rate r

/-- The rates asked for: B while the brake is active, and each STOP entry's own (R36). -/
def askedDecels (s : State) : List EffDecel :=
  (if asked s featBrake then [EffDecel.rate (set16 s 60)] else [])
    ++ s.holds.filterMap (fun h => if h.kind = .stop then some (h.decel.asks (set16 s 58)) else none)

/-- The largest rate asked, or D when none is (R36). -/
def hardest (d : Nat) : List EffDecel → EffDecel
  | [] => .rate d
  | x :: xs => xs.foldl EffDecel.harder x

/-- The deceleration in effect, INSTANT while MOMENTUM_OFF is active (R36). -/
def decelInEffect (s : State) : EffDecel :=
  if asked s featMomentumOff then .instant else hardest (set16 s 58) (askedDecels s)

/-! ### Claims as other blocks see them (R59) -/

/-- An item names a source and is ACTIVE. -/
def HolderItem.activeFor (i : HolderItem) (src : Source) : Bool := i.source == src && i.until_.isNone

/-- The source holds DRIVE actively (R59). -/
def holdsDrive (s : State) (src : Source) : Bool := s.drive.holders.any (fun i => i.activeFor src)

/-- The sender holds DRIVE or is LOCAL (R19, R75, R170, R173, R177). -/
def mayControl (s : State) (src : Source) : Bool := holdsDrive s src || src == .localMaster

/-- Some holder item, ACTIVE or RESERVED, names a throttle index (R45, R52). -/
def namedByClaim (s : State) (i : Nat) : Bool :=
  s.drive.holders.any (fun h => h.source == .throttle i)
    || s.groups.any (fun g => match g with | some h => h.source == .throttle i | none => false)

/-! ### Fields of a frame body (Table 5-1a) -/

/-- Layout id of a request body. -/
def Frame.layoutId (f : Frame) : Nat := byteAt f.body 0
/-- Path byte of a request body. -/
def Frame.pathByte (f : Frame) : Byte := f.body.getD 1 0
/-- Destination of a request body. -/
def Frame.dest (f : Frame) : Nat := halfAt f.body 2
/-- Source id of a request body. -/
def Frame.sourceId (f : Frame) : ThrottleId := BitVec.ofNat 32 (wordAt f.body 4)
/-- Sequence of a request body. -/
def Frame.seqByte (f : Frame) : Byte := f.body.getD 8 0
/-- Kind code of a request body. -/
def Frame.kind (f : Frame) : Nat := byteAt f.body 9
/-- Payload of a request body: from offset 10 up to the CRC field. -/
def Frame.payload (f : Frame) : List Byte := (f.body.drop 10).dropLast.dropLast
/-- The frame passes the CRC check (R80). -/
def Frame.crcOk (f : Frame) : Bool :=
  crcBytes (f.body.take (f.body.length - 2)) == f.body.drop (f.body.length - 2)

end Sys2Proof.Machine
end

