-- ==== Sys2Proof/Machine/Smoke.lean ====
section
/-! DEFINITION. The Smoke Controller (chapter 8): sensor checks, states, heater, faults, fan. -/

namespace Sys2Proof.Machine

/-- The setpoint setting in degrees C (R135). -/
def smokeSetpoint (s : State) : Int := set16 s 224

/-- The live settings that a smoke period takes into use (R135). -/
def smokeSettings (s : State) : SmokeSettings := { setpoint := set16 s 224, maxDuty := set16 s 226, idle := set8 s 230 }

/-- The settings that take effect at a smoke period are taken into use (R135; log 56). -/
def takeSmokeSettings (s : State) : State := { s with smoke := { s.smoke with inUse := smokeSettings s } }

/-- The smoke state of Table 8-3 (R137). -/
def smokeStateOf (s : State) : SmokeState :=
  if !asked s featSmoke then .off
  else if s.supply.state = .parked then .off
  else if s.supply.state = .ride ∨ s.supply.state = .dark then .shed
  else
    match s.smoke.temp with
    | none => .heating
    | some t => if t < (s.smoke.inUse.setpoint : Int) - 20 then .heating else .ready

/-- The heater demand of a smoke state (R138). While T is absent the rule's formula has no value: the demand
is free within 0..maximum heater duty (log 34). -/
def heaterDemand (s : State) (st : SmokeState) : Nat :=
  match st with
  | .heating | .ready =>
    match s.smoke.temp with
    | some t => (clamp 0 s.smoke.inUse.maxDuty (((s.smoke.inUse.setpoint : Int) - t) * 16)).toNat
    | none => min s.smoke.inUse.maxDuty (Config.demandWithoutReading s.freeCount)
  | _ => 0

/-- The applied heater duty follows the demand and the heater duty cap (R138). -/
def applyHeater (s : State) : State :=
  { s with smoke := { s.smoke with duty := min s.smoke.demand s.supply.grants.heaterCap } }

/-- The fan takes a mode, and the level of that mode (R141). A changed idle level takes effect at once for a fan
whose puff ends by it (R135). -/
def setFan (m : FanMode) (s : State) : State :=
  let idle := if s.smoke.fan = .puff then set8 s 230 else s.smoke.inUse.idle
  { s with smoke := { s.smoke with
      fan := m
      puffEnd := none
      fanLevel := match m with
        | .stopped => 0
        | .idle => idle
        | .puff => set8 s 229
      inUse := { s.smoke.inUse with idle := idle } } }

/-- T is present and at least 100 degrees C (R141). -/
def chamberHot (s : State) : Bool :=
  match s.smoke.temp with
  | some t => 100 ≤ t
  | none => false

/-- The fan on entry to a smoke state (R141). -/
def fanOnEntry (st : SmokeState) (s : State) : State :=
  match st with
  | .heating | .ready | .fault => setFan .idle s
  | .off | .shed => if chamberHot s then setFan .idle s else setFan .stopped s

/-- The state takes a value: a change of state is an entry, which ends a puff, sets the fan and the demand
(R138, R141, R143). -/
def enterSmoke (st : SmokeState) (s : State) : State :=
  let s := if s.smoke.state = st then s else fanOnEntry st { s with smoke := { s.smoke with state := st } }
  applyHeater { s with
    smoke := { s.smoke with demand := heaterDemand s st }
    freeCount := if s.smoke.temp.isNone then s.freeCount + 1 else s.freeCount }

/-- The state is decided again because the supply state or the SMOKE feature has changed (R137), also between a
CLEAR_FAULTS and the next smoke period (R140; log 54): nothing in FAULT, and the applied duty is set again (R138). -/
def smokeDecide (s : State) : State :=
  if s.smoke.state = .fault then s
  else
    let st := smokeStateOf s
    if st = s.smoke.state then applyHeater s else enterSmoke st s

/-- FAULT is entered with a fault record (R139). -/
def smokeFaultEnter (r : SmokeFault) (k : FaultKind) (s : State) : State :=
  reportFault k true
    (setFan .idle { s with smoke := { s.smoke with state := .fault, demand := 0, duty := 0, fault := some r } })

/-- SMOKE_SENSOR is detected (R136, R139): FAULT is entered, or an OVERTEMP record becomes SENSOR, or an
existing SENSOR fault stands. -/
def smokeSensorDetected (s : State) : State :=
  let stopAt := later s.partTime 120000
  if s.smoke.state = .fault then
    match s.smoke.fault with
    | some (.sensor _) => s
    | _ => smokeFaultEnter (.sensor stopAt) .smokeSensor s
  else smokeFaultEnter (.sensor stopAt) .smokeSensor s

/-- The fan of a smoke period in a state that has not just been entered (R139, R141): the level follows the
settings. -/
def fanAtPeriod (s : State) : State :=
  match s.smoke.state with
  | .heating => setFan .idle s
  | .ready => if s.smoke.fan = .puff then s else setFan .idle s
  | .off | .shed =>
    match s.smoke.fan with
    | .idle =>
      match s.smoke.temp with
      | some t => if t < 100 then setFan .stopped s else setFan .idle s
      | none => setFan .idle s
    | _ => s
  | .fault => if s.smoke.fan = .idle then setFan .idle s else s

/-- The fan of a smoke period in FAULT (R139): after an overtemperature it runs until a valid T below 100. -/
def fanInFault (valid : Bool) (s : State) : State :=
  match s.smoke.fault with
  | some .overtemp => if valid && !chamberHot s then setFan .stopped s else fanAtPeriod s
  | _ => fanAtPeriod s

/-- A valid reading: T takes it, and a held overtemp limit falls once T is below the setpoint + 60 (R136). -/
def takeReading (t : Int) (s : State) : State :=
  let target := smokeSetpoint s + 60
  { s with smoke := { s.smoke with
      temp := some t
      limit := if target < s.smoke.limit ∧ t < target then target else s.smoke.limit } }

/-- The first smoke period after a reset treats OFF as an entry (R134); a state that is no longer OFF takes the row
of each smoke period (log 53). -/
def firstOffEntry (s : State) : State := if s.smoke.fresh ∧ s.smoke.state = .off then fanOnEntry .off s else s

/-- One smoke period (R135, R136, R137, R139, R141). -/
def smokePeriod (reading : Int) (s : State) : State :=
  let s := takeSmokeSettings s
  let s :=
    if 400 < reading ∨ reading < -40 then
      let wasFault := s.smoke.state == .fault
      let s := smokeSensorDetected s
      if wasFault then fanInFault false s else s
    else
      let s := takeReading reading s
      if s.smoke.state = .fault then fanInFault true s
      else if s.smoke.limit ≤ reading then smokeFaultEnter .overtemp .smokeOvertemp s
      else
        let st := smokeStateOf s
        if st = s.smoke.state then enterSmoke st (firstOffEntry (fanAtPeriod s)) else enterSmoke st s
  { s with smoke := { s.smoke with fresh := false } }

/-- A chuff in READY starts or renews a puff (R142). -/
def smokeChuff (s : State) : State :=
  if s.smoke.state = .ready then
    let lc := (clamp 0 100 s.pub.L).toNat
    { s with smoke := { s.smoke with
        fan := .puff
        fanLevel := set8 s 229
        puffEnd := some (later s.partTime (set8 s 231 * (100 + lc) / 100)) } }
  else s

/-- The puff end is reached (R142). -/
def puffEnds (s : State) : State :=
  match s.smoke.puffEnd with
  | some t => if reached s.partTime t then setFan .idle s else s
  | none => s

/-- The fan stop time of a SMOKE_SENSOR fault is reached (R139). -/
def fanStops (s : State) : State :=
  match s.smoke.fault with
  | some (.sensor t) => if reached s.partTime t then setFan .stopped s else s
  | _ => s

/-- The Fault List tells the Smoke Controller of an accepted CLEAR_FAULTS (R140). -/
def smokeCleared (s : State) : State :=
  if s.smoke.state = .fault then
    { s with smoke := { s.smoke with state := .off, demand := 0, duty := 0, fault := none } }
  else s

/-- A new setpoint has been applied (R136). -/
def setpointApplied (s : State) : State :=
  { s with smoke := { s.smoke with limit := max s.smoke.limit (smokeSetpoint s + 60) } }

/-- SMOKE_PERIOD (R136). -/
def execSmokePeriod (reading : Int) (s : State) : Host.Outcome State Fault Refusal :=
  .next (if s.phase = .running then smokePeriod reading s else s)

/-- PUFF_END (R142). -/
def execPuffEnd (s : State) : Host.Outcome State Fault Refusal := .next (puffEnds s)

/-- FAN_STOP (R139). -/
def execFanStop (s : State) : Host.Outcome State Fault Refusal := .next (fanStops s)

end Sys2Proof.Machine
end

