-- ==== Sys2Proof/Machine/Flash.lean ====
section
/-! DEFINITION. The Flash Port (R175) and what its operations do to the serial flash (R173, R174). -/

namespace Sys2Proof.Machine

/-- The first address beyond the last page of the sound bank: 4096 + 256 × 16384 (R174). -/
def flashEnd : Nat := 4198400

/-- The byte a read of the serial flash gives; beyond the last page it is free (log 6). -/
def flashByte (s : State) (a : Nat) : Byte :=
  if a < flashEnd then Mem.read flashBlank s.flash a else Config.freeFlashByte s.freeCount a

/-- The bytes a read of the serial flash gives. -/
def flashBytes (s : State) (a n : Nat) : List Byte := (List.range n).map (fun i => flashByte s (a + i))

/-- Bytes of flash that a failed operation leaves open (log 7). -/
def freeBytes (s : State) (n : Nat) : List Byte := (List.range n).map (Config.freeFlashByte s.freeCount)

/-- The stored CRC of a 778-byte image equals the CRC of its first 776 bytes (R178). -/
def imageValid (image : List Byte) : Bool := crcBytes (image.take 776) == (image.drop 776).take 2

/-- What a failed write of the image leaves: free bytes that are no valid image (R173; log 7). -/
def spoiledImage (s : State) : List Byte :=
  let bs := freeBytes s 778
  if imageValid bs then bs.set 777 (~~~ bs.getD 777 0) else bs

/-- Another use of the free values. -/
def spendFree (s : State) : State := { s with freeCount := s.freeCount + 1 }

/-- A page of 256 bytes: the staged bytes at its start, 0xFF in the rest (R174). -/
def pageBytes (bs : List Byte) : List Byte := bs ++ List.replicate (256 - bs.length) 0xFF#8

/-- What an erase or a write does to the flash when it ends (R173, R174). -/
def flashEffect (op : FlashOp) (ok : Bool) (s : State) : State :=
  match op with
  | .read _ _ => s
  | .eraseSettings =>
    if ok then { s with flash := Mem.dropBelow 4096 s.flash }
    else spendFree { s with flash := Mem.writeBytes flashBlank s.flash 0 (freeBytes s 4096) }
  | .writeImage image =>
    if ok then { s with flash := Mem.writeBytes flashBlank s.flash 0 image }
    else spendFree { s with flash := Mem.writeBytes flashBlank s.flash 0 (spoiledImage s) }
  | .writePage page bs =>
    if ok then { s with flash := Mem.writeBytes flashBlank s.flash (4096 + 256 * page) (pageBytes bs) }
    else spendFree { s with flash := Mem.writeBytes flashBlank s.flash (4096 + 256 * page) (freeBytes s 256) }

/-- A request enters the set; into an idle port with no other request it starts at once (R175), the first one made
where a command makes several (log 66). -/
def requestFlash (who : Requester) (op : FlashOp) (s : State) : State :=
  let r : FlashRequest := { who := who, op := op, entered := s.partTime }
  if s.port.busy.isNone && s.port.waiting.isEmpty then { s with port := { s.port with busy := some (r, false) } }
  else { s with port := { s.port with waiting := s.port.waiting ++ [r] } }

/-- A voice withdraws its request: dropped if it has not begun, its result discarded if it is in progress
(R121, R175). -/
def withdrawVoice (v : Nat) (s : State) : State :=
  { s with port :=
      { waiting := s.port.waiting.filter (fun r => r.who != .voice v)
        busy := s.port.busy.map (fun b => if b.1.who = .voice v then (b.1, true) else b) } }

/-- A voice has a request outstanding (R121). -/
def voiceOutstanding (v : Nat) (s : State) : Bool :=
  s.port.waiting.any (fun r => r.who == .voice v)
    || (match s.port.busy with
        | some (r, discarded) => r.who == .voice v && !discarded
        | none => false)

/-- The request the arbiter chooses: the lowest-numbered voice's, else the oldest (R175). -/
def arbiterChoice (waiting : List FlashRequest) : Option FlashRequest :=
  match (List.range 6).findSome? (fun v => waiting.find? (fun r => r.who == .voice v)) with
  | some r => some r
  | none => waiting.head?

/-- The operation in progress has ended. During the start-up the read of the saved image follows it
(R175, R178). -/
def portFreed (s : State) : State :=
  { s with port := { s.port with
      busy := if s.phase = .loading then some (startUpRead s.partTime, false) else none } }

/-- The idle port's arbiter starts a request (R175). -/
def startFlashRequest (s : State) : State :=
  if s.port.busy.isSome then s
  else match arbiterChoice s.port.waiting with
    | some r => { s with port := { waiting := s.port.waiting.erase r, busy := some (r, false) } }
    | none => s

/-- The port at a reset: the set is emptied, and an operation in progress runs to its end with its result
discarded, the start-up read beginning after it (R175, R178). -/
def resetFlashPort (now : Time) (p : FlashPort) : FlashPort :=
  { waiting := []
    busy := match p.busy with
      | some (r, _) => some (r, true)
      | none => some (startUpRead now, false) }

/-- FLASH_REQUEST_START (R175). -/
def execFlashRequestStart (s : State) : Host.Outcome State Fault Refusal := .next (startFlashRequest s)

end Sys2Proof.Machine
end

