-- ==== Sys2Proof/Machine/Sound.lean ====
section
/-! DEFINITION. The Sound Engine (chapter 7): the clip directory, cues, triggers, voices and their buffers,
starting, pre-empting and resuming, the mixer, and the engine modes. -/

namespace Sys2Proof.Machine

/-! ### Clips and cues (R113, R114) -/

/-- One entry of the clip directory in flash, as the copy takes it (R113). -/
def clipOfEntry (e : List Byte) : Clip :=
  let len := wordAt e 8
  let a := wordAt e 12
  let b := wordAt e 16
  { id := byteAt e 0
    addr := wordAt e 4
    len := len
    gain := byteAt e 2
    loop := if byteAt e 3 % 2 = 1 ∧ b ≤ len ∧ a < b then some (a, b) else none
    variant := if byteAt e 1 ≤ 3 then byteAt e 1 else 0 }

/-- Add an entry to the copy unless it is unused, empty, or its id is taken (R113); an entry left out takes no id
(log 52). -/
def addClip (copy : List Clip) (c : Clip) : List Clip :=
  if c.id = 255 ∨ c.len = 0 ∨ copy.any (fun d => d.id == c.id) then copy else copy ++ [c]

/-- The directory as it lies in flash, 4 + 20 × 64 bytes from address 4096 (R113, R174; log 26): the copy,
or nothing when the entry count or the CRC is refused. -/
def parseDirectory (bs : List Byte) : Option (List Clip) :=
  let n := halfAt bs 0
  let entries := (bs.drop 4).take (20 * n)
  if 64 < n then none
  else if crcBytes entries = (bs.drop 2).take 2 then
    some (((List.range n).map (fun i => clipOfEntry ((entries.drop (20 * i)).take 20))).foldl addClip [])
  else none

/-- The clip of an id, absent for 255 and for an id the copy does not hold (R114). -/
def findClip (s : State) (id : Nat) : Option Clip :=
  if id = 255 then none else s.sound.directory.find? (fun c => c.id == id)

/-- Where a cue's record names a phase's clip (R114). -/
def CuePhase.offset : CuePhase → Nat
  | .attack => 2
  | .loop => 3
  | .release => 4

/-- The clip of a cue's phase, absent when the directory does not hold it (R114). -/
def phaseClip (s : State) (c : Nat) (ph : CuePhase) : Option Clip := findClip s (cueByte s c ph.offset)

/-- A looping cue is one with a loop clip (R115). -/
def isLooping (s : State) (c : Nat) : Bool := (phaseClip s c .loop).isSome

/-- A cue is playable: a clip of it is present, or it is the exhaust cue and a variant clip is (R114). -/
def playable (s : State) (c : Nat) : Bool :=
  (phaseClip s c .attack).isSome || (phaseClip s c .loop).isSome || (phaseClip s c .release).isSome
    || (exhaustCue s == some c && s.sound.directory.any (fun d => d.variant != 0))

/-- The cue's trigger is held: the Function Table asks for it, or it is the ambient cue and the ambient
trigger stands (R116). -/
def cueHeld (s : State) (c : Nat) : Bool :=
  asked s (featCue c) || (s.sound.ambient && ambientCue s == some c)

/-- The phases after one, in order (R115). -/
def CuePhase.after : CuePhase → List CuePhase
  | .attack => [.loop, .release]
  | .loop => [.release]
  | .release => []

/-- The state of a voice that plays a phase. -/
def CuePhase.voiceState : CuePhase → VoiceState
  | .attack => .attack
  | .loop => .loop
  | .release => .release

/-- The phase a voice plays, or while PRIME is about to. -/
def Voice.phase (vo : Voice) : Option CuePhase :=
  match vo.state with
  | .idle => none
  | .prime => vo.nextPhase
  | .attack => some .attack
  | .loop => some .loop
  | .release => some .release

/-! ### The exhaust clip (R118) -/

/-- The variant of an exhaust beat from the latest published set (R118): 1 LIGHT, 2 NORMAL, 3 HEAVY. -/
def exhaustVariant (s : State) : Nat :=
  if signed16 (set16 s 449) ≤ s.pub.L then 3
  else if s.pub.L ≤ signed16 (set16 s 451) ∨ s.pub.phase = .decelerating then 1
  else 2

/-- The next clip of a variant in rotation, and the rotation indices after it (R118). -/
def rotateVariant (s : State) (var : Nat) : Option (Clip × List Byte) :=
  let clips := s.sound.directory.filter (fun c => c.variant == var)
  let r := s.sound.rotation.getD (var - 1) 0
  match clips[r.toNat % clips.length]? with
  | some c => some (c, s.sound.rotation.set (var - 1) (r + 1))
  | none => none

/-- The clip a start request for the exhaust cue chooses, with the rotation moved on (R118; log 23). -/
def chooseExhaust (c : Nat) (s : State) : Option Clip × State :=
  match rotateVariant s (exhaustVariant s) with
  | some (clip, rot) => (some clip, { s with sound := { s.sound with rotation := rot } })
  | none =>
    match rotateVariant s 2 with
    | some (clip, rot) => (some clip, { s with sound := { s.sound with rotation := rot } })
    | none => (phaseClip s c .attack, s)

/-! ### Voices and partitions (R120) -/

/-- A voice's record. -/
def voice (s : State) (v : Nat) : Voice := s.sound.voices.getD v resetVoice

/-- Replace a voice's record. -/
def setVoice (v : Nat) (vo : Voice) (s : State) : State :=
  { s with sound := { s.sound with voices := s.sound.voices.set v vo } }

/-- A voice's partition as its settings now give it, shortened to end at unit 63 (R119, R120). -/
def voicePartition (s : State) (v : Nat) : Partition :=
  let start := min 63 (set8 s (459 + 2 * v))
  let b := set8 s (460 + 2 * v)
  { start := start, size := min (min 32 (b % 64)) (64 - start), dbl := 128 ≤ b }

/-- No cue starts on a voice whose partition has size 0, or is double with size 1 (R120). -/
def Partition.disabled (p : Partition) : Bool := p.size == 0 || (p.dbl && p.size == 1)

/-- Two partitions share a unit (R120). -/
def Partition.overlaps (p q : Partition) : Bool := p.start < q.start + q.size && q.start < p.start + p.size

/-- The capacity of a single buffer in samples (R121). -/
def Partition.capacity (p : Partition) : Nat := p.size * 64

/-- The samples of one half of a double buffer (R121). -/
def Partition.halfSamples (p : Partition) : Nat := p.size / 2 * 64

/-- Where half k of a partition begins in the voice buffer RAM, in bytes (R120, R121). -/
def Partition.halfBase (p : Partition) (second : Bool) : Nat :=
  p.start * 128 + (if second then p.size / 2 * 128 else 0)

/-- The samples of a clip a voice plays: all of it, or what a single buffer takes (R121). -/
def playLen (p : Partition) (c : Clip) : Nat := if p.dbl then c.len else min c.len p.capacity

/-- The loop point of a clip in a partition (R115, R121). -/
def loopPoint (p : Partition) (c : Clip) : Nat :=
  match c.loop with
  | some (_, b) => min b (playLen p c)
  | none => playLen p c

/-- The wrap target of a clip in a partition, 0 when it is not below the loop point (R115, R121). -/
def wrapTarget (p : Partition) (c : Clip) : Nat :=
  match c.loop with
  | some (a, _) => if a < loopPoint p c then a else 0
  | none => 0

/-- A voice that is fading (R131, R132). -/
def Voice.fading (vo : Voice) : Bool := vo.state != .idle && vo.envDir == .falling

/-- A voice plays a cue: it is not IDLE, not fading, and the cue is its own (R123; log 24). -/
def Voice.plays (vo : Voice) (c : Nat) : Bool := vo.state != .idle && !vo.fading && vo.cue == some c

/-- The partition in use of a voice other than `v` that is not IDLE overlaps `p` (R124). -/
def overlapsOther (s : State) (v : Nat) (p : Partition) : Bool :=
  (List.range 6).any (fun w =>
    w != v && (voice s w).state != .idle
      && (match (voice s w).part with | some q => p.overlaps q | none => false))

/-! ### Priming and streaming (R121, R122) -/

/-- The half a voice may ask data for: the playing one when it is EMPTY, else the other when it is. -/
def freeHalf (vo : Voice) : Option Bool :=
  let mine := if vo.playing then vo.half1 else vo.half0
  let other := if vo.playing then vo.half0 else vo.half1
  if mine = .empty then some vo.playing else if other = .empty then some (!vo.playing) else none

/-- Set one half. -/
def Voice.setHalf (vo : Voice) (second : Bool) (h : Half) : Voice :=
  if second then { vo with half1 := h } else { vo with half0 := h }

/-- One half. -/
def Voice.half (vo : Voice) (second : Bool) : Half := if second then vo.half1 else vo.half0

/-- Where a run from position `a` ends: at the loop point while LOOP is played towards it, else at the end
of the clip (R122). -/
def runLimit (p : Partition) (c : Clip) (ph : CuePhase) (a : Nat) : Nat :=
  if ph = .loop ∧ a < loopPoint p c then loopPoint p c else playLen p c

/-- The run that begins at a position (R122). -/
def runFrom (p : Partition) (c : Clip) (ph : CuePhase) (a : Nat) : Run :=
  { start := a, len := min p.halfSamples (runLimit p c ph a - a) }

/-- Where the run after one begins: the wrap target after the loop point, nothing after the clip's end
(R122). -/
def runAfter (p : Partition) (c : Clip) (ph : CuePhase) (r : Run) : Option Nat :=
  if r.start + r.len < runLimit p c ph r.start then some (r.start + r.len)
  else if ph = .loop ∧ r.start < loopPoint p c then some (wrapTarget p c)
  else none

/-- A double-buffered voice with no request outstanding asks for its next run into a free half; a fading
voice asks for nothing (R121, R122, R131; log 22). -/
def askRun (v : Nat) (s : State) : State :=
  let vo := voice s v
  match vo.part, vo.clip, vo.nextRun, vo.phase, freeHalf vo with
  | some p, some c, some a, some ph, some k =>
    if !p.dbl || voiceOutstanding v s || vo.fading then s
    else
      let r := runFrom p c ph a
      requestFlash (.voice v) (.read (c.addr + 2 * a) (2 * r.len))
        (setVoice v { vo.setHalf k (.filling r) with nextRun := runAfter p c ph r } s)
  | _, _, _, _, _ => s

/-- A voice's buffer in PRIME: no run, no wait. -/
def Voice.primed (vo : Voice) (ph : CuePhase) (c : Clip) (pos : Nat) : Voice :=
  { vo with state := .prime, nextPhase := some ph, clip := some c, pos := pos, half0 := .empty, half1 := .empty,
            playing := false, nextRun := none, wait := .none }

/-- A voice goes to PRIME for a phase at a position (R121). A single buffer that already holds the clip ends
PRIME at once (log 21). -/
def primeVoice (v : Nat) (ph : CuePhase) (c : Clip) (pos : Nat) (s : State) : State :=
  let s := withdrawVoice v s
  let vo := (voice s v).primed ph c pos
  match vo.part with
  | none => s
  | some p =>
    if p.dbl then askRun v (setVoice v { vo with nextRun := some pos, resident := none } s)
    else if vo.resident = some (c.id, p) then
      setVoice v { vo with state := ph.voiceState, nextPhase := none } s
    else requestFlash (.voice v) (.read c.addr (2 * min c.len p.capacity)) (setVoice v vo s)

/-- A phase that would end before its first sample: a single buffer that already holds a clip not longer
than the position, or a double-buffered voice with a position not below the clip's length (R121;
log 25). -/
def endsAtOnce (vo : Voice) (c : Clip) (pos : Nat) : Bool :=
  match vo.part with
  | some p => decide (playLen p c ≤ pos) && (p.dbl || vo.resident == some (c.id, p))
  | none => false

/-- The first phase of a list that is present and has something to play (R115, R126). `ex` is the chosen
clip of an exhaust cue, whose loop and release are not played (R118). -/
def pickPhase (s : State) (vo : Voice) (c : Nat) (ex : Option (Option Clip)) :
    List (CuePhase × Nat) → Option (CuePhase × Clip × Nat)
  | [] => none
  | (ph, pos) :: rest =>
    let clip :=
      match ex with
      | none => phaseClip s c ph
      | some chosen => if ph = .attack then chosen else none
    match clip with
    | none => pickPhase s vo c ex rest
    | some cl => if endsAtOnce vo cl pos then pickPhase s vo c ex rest else some (ph, cl, pos)

/-- A voice becomes IDLE and frees its partition; the resident clip and the underrun count stay (R120,
R126, R131). -/
def idleVoice (v : Nat) (s : State) : State :=
  let s := withdrawVoice v s
  setVoice v { resetVoice with resident := (voice s v).resident, underruns := (voice s v).underruns } s

/-- Pop a voice's stack until an entry can be resumed, or the voice becomes IDLE (R126). An entry saved in LOOP or
RELEASE whose cue is now the exhaust cue resumes its chosen clip from the start (log 51). -/
def resumeFrom (v : Nat) : List StackEntry → State → State
  | [], s => idleVoice v s
  | e :: rest, s =>
    let isExhaust := exhaustCue s == some e.cue
    let chosen := if isExhaust then chooseExhaust e.cue s else (none, s)
    let s := chosen.2
    let vo := { voice s v with cue := some e.cue, passes := e.passes, stack := rest, env := 0, envDir := .rising,
                               exhaust := isExhaust }
    let s := setVoice v vo s
    let picked :=
      if isExhaust then pickPhase s vo e.cue (some chosen.1) [(.attack, if e.phase = .attack then e.pos else 0)]
      else pickPhase s vo e.cue none ((e.phase, e.pos) :: e.phase.after.map (fun ph => (ph, 0)))
    match picked with
    | some (ph, c, pos) => primeVoice v ph c pos s
    | none => resumeFrom v rest s

/-- A cue ends on a voice (R126). -/
def cueEnd (v : Nat) (s : State) : State := resumeFrom v (voice s v).stack s

/-- A phase ends on a voice: the next phase present, or the end of the cue; a fading voice becomes IDLE
(R115, R131). Whether the cue plays as the exhaust cue was settled when it began (R118; log 59). -/
def phaseEnd (v : Nat) (s : State) : State :=
  let vo := voice s v
  if vo.fading then idleVoice v s
  else
    match vo.cue, vo.phase with
    | some c, some ph =>
      if vo.exhaust then cueEnd v s
      else
        match pickPhase s vo c none (ph.after.map (fun q => (q, 0))) with
        | some (q, cl, pos) => primeVoice v q cl pos s
        | none => cueEnd v s
    | _, _ => cueEnd v s

/-! ### Starting and pre-empting (R123 to R125) -/

/-- Passes left of a cue that starts (R115). -/
def startPasses (s : State) (c : Nat) (held : Bool) : Nat := if held then 1 else cueByte s c 5

/-- A cue starts or restarts on a voice whose partition in use is set (R123); one with no phase to play ends at once
(R126). -/
def startOn (v c : Nat) (held : Bool) (ex : Option (Option Clip)) (s : State) : State :=
  let vo := { voice s v with cue := some c, passes := startPasses s c held, env := 256, envDir := .steady,
                             exhaust := ex.isSome }
  let s := setVoice v vo s
  match pickPhase s vo c ex [(.attack, 0), (.loop, 0), (.release, 0)] with
  | some (ph, cl, pos) => primeVoice v ph cl pos s
  | none => cueEnd v s

/-- The outcome of the search of R124. -/
inductive VoiceChoice where
  | free (v : Nat)
  | displace (v : Nat)
  | overlapDrop
  | priorityDrop
  deriving DecidableEq, Repr

/-- Step 1 of R124 but for the overlap: IDLE and not disabled. -/
def idleEnabled (s : State) (v : Nat) : Bool := (voice s v).state == .idle && !(voicePartition s v).disabled

/-- Step 2 of R124 but for the overlap: not IDLE, not fading, not disabled, a cue of lower priority. -/
def displaceable (s : State) (c v : Nat) : Bool :=
  let vo := voice s v
  vo.state != .idle && !vo.fading && !(voicePartition s v).disabled
    && (match vo.cue with | some d => cuePriority s d < cuePriority s c | none => false)

/-- The better of two voices to displace: lower priority, then smaller start number (R124). -/
def betterVictim (s : State) (a b : Nat) : Nat :=
  let pa := cuePriority s ((voice s a).cue.getD 0)
  let pb := cuePriority s ((voice s b).cue.getD 0)
  if pb < pa ∨ (pb = pa ∧ (voice s b).startNo.toNat < (voice s a).startNo.toNat) then b else a

/-- The voice a fresh start of a cue takes (R124). -/
def chooseVoice (s : State) (c : Nat) : VoiceChoice :=
  let fits := fun v => !overlapsOther s v (voicePartition s v)
  match (List.range 6).find? (fun v => idleEnabled s v && fits v) with
  | some v => .free v
  | none =>
    match (List.range 6).filter (fun v => displaceable s c v && fits v) with
    | v :: vs => .displace (vs.foldl (betterVictim s) v)
    | [] =>
      if (List.range 6).any (fun v => (idleEnabled s v || displaceable s c v) && !fits v) then .overlapDrop
      else .priorityDrop

/-- The resident clips of other voices in partitions that overlap `p` are removed (R121). -/
def dropResidents (v : Nat) (p : Partition) (s : State) : State :=
  { s with sound := { s.sound with voices := s.sound.voices.mapIdx (fun w vo =>
      match vo.resident with
      | some (_, q) => if w ≠ v ∧ p.overlaps q then { vo with resident := none } else vo
      | none => vo) } }

/-- A displaced cue goes onto its voice's stack when it is resumable (R125). -/
def displacedStack (s : State) (vo : Voice) : List StackEntry :=
  match vo.cue, vo.phase with
  | some d, some ph =>
    if cueResumable s d then ({ cue := d, phase := ph, pos := vo.pos, passes := vo.passes } :: vo.stack).take 2
    else vo.stack
  | _, _ => vo.stack

/-- A cue is started fresh on a voice (R123 case 3). -/
def freshOn (v c : Nat) (held : Bool) (ex : Option (Option Clip)) (stack : List StackEntry) (s : State) : State :=
  let p := voicePartition s v
  let s := dropResidents v p { s with sound := { s.sound with startCounter := s.sound.startCounter + 1 } }
  startOn v c held ex
    (setVoice v { voice s v with startNo := s.sound.startCounter, part := some p, stack := stack } s)

/-- A fresh start: a voice is chosen, or a drop is counted (R123, R124). -/
def freshStart (c : Nat) (held : Bool) (ex : Option (Option Clip)) (s : State) : State :=
  match chooseVoice s c with
  | .free v => freshOn v c held ex [] s
  | .displace v => freshOn v c held ex (displacedStack s (voice s v)) s
  | .overlapDrop => { s with sound := { s.sound with overlapDrops := bump16 s.sound.overlapDrops } }
  | .priorityDrop => { s with sound := { s.sound with priorityDrops := bump16 s.sound.priorityDrops } }

/-- Entries of a cue leave every stack. -/
def unstack (c : Nat) (s : State) : State :=
  { s with sound := { s.sound with voices := s.sound.voices.map (fun vo =>
      { vo with stack := vo.stack.filter (fun e => e.cue != c) }) } }

/-- The start request taken in NORMAL mode for a playable cue (R123). -/
def takeStart (c : Nat) (held : Bool) (ex : Option (Option Clip)) (s : State) : State :=
  match (List.range 6).find? (fun v => (voice s v).plays c) with
  | some v => startOn v c held ex s
  | none => freshStart c held ex (unstack c s)

/-- A start request for a cue (R116, R123): ignored in QUIET (R132) and for a cue that is not playable
(R114). The exhaust cue chooses its clip, and is ignored when it finds none (R118). -/
def startRequest (c : Nat) (held : Bool) (s : State) : State :=
  if s.sound.mode = .quiet || !playable s c then s
  else if exhaustCue s = some c then
    let chosen := chooseExhaust c s
    match chosen.1 with
    | some clip => takeStart c held (some (some clip)) chosen.2
    | none => s
  else takeStart c held none s

/-- A momentary start request for a cue setting that may be none (R117, R118). -/
def momentaryStart (c : Option Nat) (s : State) : State :=
  match c with
  | some c => startRequest c false s
  | none => s

/-- A held trigger of a cue ends (R115, R116, R126); nothing while another trigger still holds the cue
(log 37). A stacked entry of a looping cue goes whichever trigger last started it (log 50). -/
def triggerEnd (c : Nat) (s : State) : State :=
  if cueHeld s c then s
  else
    let looping := isLooping s c
    { s with sound := { s.sound with voices := s.sound.voices.map (fun vo =>
        { vo with
          passes := if vo.state ≠ .idle ∧ vo.cue = some c then 1 else vo.passes
          stack := if looping then vo.stack.filter (fun e => e.cue != c) else vo.stack }) } }

/-! ### Engine modes and the ambient cue (R130 to R133) -/

/-- What makes the engine QUIET (R130). -/
def quietCause (s : State) : Bool :=
  s.supply.state == .parked || s.supply.state == .dark
    || (s.txn.state != .closed && s.txn.target == .bank)
    || s.job != .none || s.sound.dirPending

/-- A half of a fading voice keeps what it holds and awaits nothing more (R131). -/
def Half.faded : Half → Half
  | .filling _ => .empty
  | h => h

/-- A voice begins to fade (R131); one whose envelope is still 0 becomes IDLE at its next envelope step (log 61). -/
def fadeVoice (v : Nat) (s : State) : State :=
  let vo := voice s v
  if vo.state = .idle then setVoice v { vo with stack := [] } s
  else if vo.state = .prime then idleVoice v (setVoice v { vo with stack := [] } s)
  else
    setVoice v { vo with stack := [], envDir := .falling, half0 := vo.half0.faded, half1 := vo.half1.faded,
                         wait := if vo.wait = .none then .none else .starved }
      (withdrawVoice v s)

/-- The mode becomes QUIET (R131, R133). -/
def goQuiet (s : State) : State :=
  let ended := if s.sound.ambient then ambientCue s else none
  let s := { s with sound := { s.sound with mode := .quiet, ambient := false } }
  let s := match ended with
    | some c => triggerEnd c s
    | none => s
  (List.range 6).foldl (fun s v => fadeVoice v s) s

/-- The ambient trigger begins (R133). -/
def ambientBegin (s : State) : State :=
  let s := { s with sound := { s.sound with ambient := true } }
  match ambientCue s with
  | some c => startRequest c true s
  | none => s

/-- The mode is decided again (R130). -/
def updateMode (s : State) : State :=
  match s.sound.mode, quietCause s with
  | .normal, true => goQuiet s
  | .quiet, false =>
    let s := { s with sound := { s.sound with mode := .normal } }
    if s.supply.state = .track then ambientBegin s else s
  | _, _ => s

/-- A cue is on a voice's stack. -/
def stacked (s : State) (c : Nat) : Bool := s.sound.voices.any (fun vo => vo.stack.any (fun e => e.cue == c))

/-- The ambient cue is neither playing nor stacked (R133). -/
def ambientAbsent (s : State) : Bool :=
  match ambientCue s with
  | some c => !(s.sound.voices.any (fun vo => vo.plays c)) && !stacked s c
  | none => true

/-- The supply state has changed: the mode follows, and TRACK reached in NORMAL may begin the ambient
trigger again (R130, R133). -/
def soundSupplyChange (s : State) : State :=
  let wasNormal := s.sound.mode == .normal
  let s := updateMode s
  if wasNormal && s.sound.mode == .normal && s.supply.state == .track && ambientAbsent s then ambientBegin s else s

/-- The ambient cue setting has changed while the trigger stands (R133). -/
def ambientChanged (old : Option Nat) (s : State) : State :=
  if s.sound.ambient && ambientCue s != old then
    let s := match old with
      | some c => triggerEnd c s
      | none => s
    ambientBegin s
  else s

/-! ### The mixer and the master volume (R127 to R129) -/

/-- A voice past PRIME has the sample at its position (R127). -/
def Voice.hasData (vo : Voice) : Bool :=
  (vo.state == .attack || vo.state == .loop || vo.state == .release) && vo.wait == .none
    && (match vo.part with
        | some p =>
          !p.dbl || (match vo.half vo.playing with
                     | .full r => decide (r.start ≤ vo.pos) && decide (vo.pos < r.start + r.len)
                     | _ => false)
        | none => false)

/-- Where a voice's next sample lies in the voice buffer RAM. -/
def sampleAddr (vo : Voice) (p : Partition) : Nat :=
  if p.dbl then
    match vo.half vo.playing with
    | .full r => p.halfBase vo.playing + 2 * (vo.pos - r.start)
    | _ => p.halfBase vo.playing
  else p.start * 128 + 2 * vo.pos

/-- The sample a voice gives: a 16-bit signed value, low byte first (R113, R127). -/
def voiceSample (s : State) (vo : Voice) : Int :=
  match vo.part with
  | some p =>
    if vo.hasData then signed16 (halfAt (Mem.readBytes ramBlank s.voiceRam (sampleAddr vo p) 2) 0) else 0
  | none => 0

/-- The contribution of a sample under cue gain, clip gain and envelope, each step truncating toward zero
(R127). -/
def contribution (sample : Int) (cueGain clipGain env : Nat) : Int :=
  Int.tdiv (Int.tdiv (Int.tdiv (sample * cueGain) 256 * clipGain) 256 * env) 256

/-- The contribution of a voice (R127). -/
def voiceContribution (s : State) (vo : Voice) : Int :=
  match vo.cue, vo.clip with
  | some c, some cl => contribution (voiceSample s vo) (cueByte s c 1) cl.gain vo.env
  | _, _ => 0

/-- The sum under the master volume, saturated to 16 bits (R127). -/
def mixed (sum : Int) (master : Nat) : Int := clamp (-32768) 32767 (Int.tdiv (sum * master) 256)

/-- The playing half of a double buffer is used up (R122): the voice turns to the other half, asks for the
next run into the half just used up, and underruns when the other half is not FULL. A fading voice counts
no underrun (R131). -/
def turnHalf (v : Nat) (s : State) : State :=
  let vo := voice s v
  let vo := { vo.setHalf vo.playing .empty with playing := !vo.playing }
  let ready := match vo.half vo.playing with
    | .full _ => true
    | _ => false
  let vo :=
    if ready then vo
    else if vo.fading then { vo with wait := .starved }
    else { vo with wait := .underrun, underruns := bump16 vo.underruns }
  askRun v (setVoice v vo s)

/-- The loop point is reached and not wrapped in a double-buffered voice: halves with data from the wrap
target are discarded and a run from the loop point is asked for, into half 0 (R122; log 60). -/
def leaveLoop (v lp : Nat) (s : State) : State :=
  let s := withdrawVoice v s
  let vo := voice s v
  askRun v (setVoice v { vo with pos := lp, half0 := .empty, half1 := .empty, playing := false, nextRun := some lp,
                                 wait := if vo.fading then .starved else .loopRead } s)

/-- The playing half is used up at a position (R122). -/
def halfUsed (vo : Voice) (pos : Nat) : Bool :=
  match vo.half vo.playing with
  | .full r => decide (r.start + r.len ≤ pos)
  | _ => true

/-- A voice has played the sample at its position and moves on: the loop point with its wrap decision, the
end of the clip, the end of a half (R115, R122). -/
def advanceVoice (v : Nat) (s : State) : State :=
  let vo := voice s v
  match vo.part, vo.clip, vo.cue with
  | some p, some cl, some c =>
    let pos := vo.pos + 1
    let lp := loopPoint p cl
    let held := cueHeld s c
    if vo.state = .loop ∧ pos = lp then
      if held || decide (1 < vo.passes) then
        let s := setVoice v { vo with pos := wrapTarget p cl, passes := if held then vo.passes else vo.passes - 1 } s
        if p.dbl then turnHalf v s else s
      else if playLen p cl ≤ lp then phaseEnd v s
      else if p.dbl then leaveLoop v lp s
      else setVoice v { vo with pos := pos } s
    else if playLen p cl ≤ pos then phaseEnd v s
    else
      let s := setVoice v { vo with pos := pos } s
      if p.dbl && halfUsed vo pos then turnHalf v s else s
  | _, _, _ => s

/-- One sample event (R127): the mix, and then each voice that has played a sample moves on. -/
def sampleEvent (s : State) : State :=
  let sum := (s.sound.voices.map (voiceContribution s)).sum
  let playing := (List.range 6).filter (fun v => (voice s v).hasData)
  let s := { s with sound := { s.sound with sample := mixed sum s.sound.master } }
  playing.foldl (fun s v => advanceVoice v s) s

/-- The target of the master volume (R128). -/
def volumeTarget (s : State) : Nat :=
  if asked s featMute then 0
  else
    let t := min (set8 s 448) s.supply.grants.volumeCap
    if s.supply.state = .ride then min t 128 else t

/-- One step of the master volume: toward the target by up to 8 (R128). -/
def volumeMoved (master target : Nat) : Nat :=
  if master < target then min target (master + 8) else max target (master - 8)

/-- The volume the engine asks of the supervisor (R129). -/
def volumeAsked (s : State) : Nat :=
  if s.sound.mode = .normal && !asked s featMute then set8 s 448 else 0

/-- One envelope step of a voice (R126, R131). -/
def envelopeStep (v : Nat) (s : State) : State :=
  let vo := voice s v
  if vo.state = .idle then s
  else
    match vo.envDir with
    | .steady => s
    | .rising =>
      let e := min 256 (vo.env + 16)
      setVoice v { vo with env := e, envDir := if e = 256 then .steady else .rising } s
    | .falling =>
      if vo.env ≤ 16 then idleVoice v s else setVoice v { vo with env := vo.env - 16 } s

/-! ### Reads that complete (R113, R121, R122) -/

/-- A voice's data has arrived in its partition (R121, R122). -/
def voiceDataArrived (v : Nat) (s : State) : State :=
  let vo := voice s v
  match vo.part, vo.clip with
  | some p, some cl =>
    if p.dbl then
      let vo :=
        match vo.half0, vo.half1 with
        | .filling r, _ => { vo with half0 := .full r }
        | _, .filling r => { vo with half1 := .full r }
        | _, _ => vo
      let vo :=
        match vo.state, vo.nextPhase with
        | .prime, some ph => { vo with state := ph.voiceState, nextPhase := none }
        | _, _ => vo
      let vo :=
        match vo.half vo.playing with
        | .full _ => { vo with wait := .none }
        | _ => vo
      askRun v (setVoice v vo s)
    else
      match vo.state, vo.nextPhase with
      | .prime, some ph =>
        let s := setVoice v { vo with state := ph.voiceState, nextPhase := none, resident := some (cl.id, p) } s
        if playLen p cl ≤ vo.pos then phaseEnd v s else s
      | _, _ => s
  | _, _ => s

/-- Where the data a voice asked for goes in the voice buffer RAM. -/
def fillAddr (vo : Voice) : Nat :=
  match vo.part with
  | some p =>
    if p.dbl then
      match vo.half0 with
      | .filling _ => p.halfBase false
      | _ => p.halfBase true
    else p.start * 128
  | none => 0

/-- A voice's read ends (R121, R122): discarded if withdrawn, a failure ending its cue with FLASH_ERROR, the
data otherwise entering the voice buffer RAM. -/
def voiceReadDone (v addr len : Nat) (discarded ok : Bool) (s : State) : State :=
  let data := flashBytes s addr len
  let s := portFreed (if flashEnd < addr + len then spendFree s else s)
  if discarded then s
  else if !ok then cueEnd v (reportFault .flashError false s)
  else voiceDataArrived v { s with voiceRam := Mem.writeBytes ramBlank s.voiceRam (fillAddr (voice s v)) data }

/-- The engine asks for the clip directory (R113; log 26). -/
def requestDirectory (s : State) : State :=
  requestFlash .directory (.read 4096 1284) { s with sound := { s.sound with dirPending := true } }

/-- The directory read ends (R113, R118, R121, R130, R174): the copy is rebuilt or emptied with FLASH_ERROR,
rotation indices and resident clips go, and a BANK job is over. -/
def directoryReadDone (ok : Bool) (s : State) : State :=
  let parsed := if ok then parseDirectory (flashBytes s 4096 1284) else none
  let s := portFreed s
  let s := if parsed.isNone then reportFault .flashError false s else s
  updateMode
    { s with
      job := if s.job = .bankRead then .none else s.job
      sound := { s.sound with
        directory := parsed.getD []
        rotation := [0, 0, 0]
        dirPending := false
        voices := s.sound.voices.map (fun vo => { vo with resident := none }) } }

/-! ### The commands -/

/-- SAMPLE_EVENT (R127); sample events run from the end of the start-up (R178). -/
def execSampleEvent (s : State) : Host.Outcome State Fault Refusal :=
  .next (if s.phase = .running then sampleEvent s else s)

/-- VOLUME_STEP (R128). -/
def execVolumeStep (s : State) : Host.Outcome State Fault Refusal :=
  .next (if s.phase = .running then
    { s with sound := { s.sound with master := volumeMoved s.sound.master (volumeTarget s) } } else s)

/-- ENVELOPE_STEP (R126, R131). -/
def execEnvelopeStep (v : Nat) (s : State) : Host.Outcome State Fault Refusal :=
  .next (if s.phase = .running ∧ v < 6 then envelopeStep v s else s)

/-- VOICE_READ_COMPLETE (R121, R122): the operation in progress is a voice's read. -/
def execVoiceReadComplete (ok : Bool) (s : State) : Host.Outcome State Fault Refusal :=
  .next (match s.port.busy with
    | some ({ who := .voice v, op := .read addr len, .. }, discarded) => voiceReadDone v addr len discarded ok s
    | _ => s)

/-- DIRECTORY_READ_COMPLETE (R113): the operation in progress is the directory read. -/
def execDirectoryReadComplete (ok : Bool) (s : State) : Host.Outcome State Fault Refusal :=
  .next (match s.port.busy with
    | some ({ who := .directory, .. }, discarded) => if discarded then portFreed s else directoryReadDone ok s
    | _ => s)

end Sys2Proof.Machine
end

