-- ==== Sys2Proof/Machine/Supply.lean ====
section
/-! DEFINITION. The Supply Supervisor (chapter 9): supply states, the SUPPLY hold, activity and parking, the
load budget; with the hold list's two operations (R30) and the ending of a motor check (R20, R21), which a
change of the supply state may cause. -/

namespace Sys2Proof.Machine

/-! ### The hold list (R30) -/

/-- Replace the entry of the same source in place, or append. -/
def insertHold (h : Hold) : List Hold → List Hold
  | [] => [h]
  | x :: xs => if x.source = h.source then h :: xs else x :: insertHold h xs

/-- A request to install a hold (R30): created now. -/
def installHold (h : Hold) (s : State) : State :=
  { s with holds := insertHold { h with created := s.partTime } s.holds }

/-- A removal request for a source (R30). -/
def removeHold (src : HoldSource) (s : State) : State :=
  { s with holds := s.holds.filter (fun h => h.source != src) }

/-- A STOP hold without expiry (R31, R33). -/
def plainStop (src : HoldSource) (d : Decel) : Hold :=
  { source := src, kind := .stop, capValue := 0, decel := d, expiry := .absent, phase := none, dwell := none,
    reverseAtEnd := false, origin := none, created := 0 }

/-- The entry of a source. -/
def findHold (s : State) (src : HoldSource) : Option Hold := s.holds.find? (fun h => h.source == src)

/-! ### Ending a motor check -/

/-- A check ends with a result (R20, R21): the record is stored, the progress removed, the motor
state becomes STOPPED and the bridge is off (log 15). -/
def endCheck (r : CheckResult) (est : Option Nat) (s : State) : State :=
  { s with motor := { s.motor with
      checkRecord := { result := r, estimate := est, time := s.partTime }
      checkProgress := none
      checkC := []
      checkAccepted := false
      Da := 0
      state := .stopped } }

/-- A check is running, or accepted for the next control period (R19). -/
def Motor.checking (m : Motor) : Bool := m.state == .check || m.checkAccepted

/-- A check is abandoned (R21), one that is accepted and has not started too (log 15). -/
def abandonCheck (s : State) : State := if s.motor.checking then endCheck .abandoned none s else s

/-- Entry to DARK (R11): R and both accumulators go to 0, the duty and the integral with them. -/
def motorDark (s : State) : State :=
  { s with motor := { s.motor with R := 0, rising := 0, falling := 0, Da := 0, I := 0 } }

/-! ### Supply states (R147 to R152) -/

/-- The SUPPLY hold is requested and the flag set (R150, R151). -/
def requestSupplyHold (s : State) : State :=
  installHold (plainStop .supply .normal) { s with supply := { s.supply with holdFlag := true } }

/-- The supervisor's own entry actions (R149, R151). -/
def supplyEntry (old new : SupplyState) (s : State) : State :=
  match new with
  | .track =>
    if old = .parked then { s with supply := { s.supply with state := .track, lastActivity := s.partTime } }
    else
      removeHold .supply { s with supply := { s.supply with
        state := .track, holdFlag := false, restoreStart := none, rideStart := none, lastActivity := s.partTime } }
  | .ride => { s with supply := { s.supply with state := .ride, rideStart := some s.partTime, restoreStart := none } }
  | .dark =>
    let s := reportFault .storeLow false { s with supply := { s.supply with state := .dark, rideStart := none } }
    if s.supply.holdFlag then s else requestSupplyHold s
  | .parked => { s with supply := { s.supply with state := .parked } }

/-- The loads react to a change of the supply state at the moment it is made (R147): the Motor Loop (R11,
R21), the Smoke Controller (R137, R138), the Sound Engine (R130, R133). -/
def loadsReact (old : SupplyState) (s : State) : State :=
  let s := if old = .track ∧ s.supply.state ≠ .track then abandonCheck s else s
  let s := if s.supply.state = .dark then motorDark s else s
  soundSupplyChange (smokeDecide s)

/-- The supply state changes (R147, R149, R151). -/
def changeSupply (new : SupplyState) (s : State) : State :=
  let old := s.supply.state
  if old = new then s else loadsReact old (supplyEntry old new s)

/-- An activity report (R152). -/
def activity (s : State) : State :=
  let s := { s with supply := { s.supply with lastActivity := s.partTime } }
  if s.supply.state = .parked then changeSupply .track s else s

/-- The park test (R152). -/
def parkTest (s : State) : Bool :=
  set8 s 14 != 0 && s.pub.phase == .stopped && sEff s == 0
    && reached s.partTime (later s.supply.lastActivity (set8 s 14 * 10000))

/-- The wake test (R152). -/
def wakeTest (s : State) : Bool := set8 s 14 == 0 || sEff s != 0 || s.pub.phase != .stopped

/-- The track voltage is good (R146, R147). -/
def trackGood (s : State) : Bool := set16 s 232 ≤ s.supply.vt

/-- The timing of the restore at a budget period in RIDE or DARK (R148). -/
def timeRestore (s : State) : State :=
  if !trackGood s then { s with supply := { s.supply with restoreStart := none } }
  else if s.supply.restoreStart.isNone then { s with supply := { s.supply with restoreStart := some s.partTime } }
  else s

/-- The restore completes (R148). -/
def restoreDone (s : State) : Bool :=
  match s.supply.restoreStart with
  | some t => reached s.partTime (later t 100)
  | none => false

/-- The state decision of a budget period (R147). -/
def decideSupply (s : State) : State :=
  match s.supply.state with
  | .track => if !trackGood s then changeSupply .ride s else if parkTest s then changeSupply .parked s else s
  | .parked => if !trackGood s then changeSupply .ride s else if wakeTest s then changeSupply .track s else s
  | .ride =>
    let s := timeRestore s
    if restoreDone s then changeSupply .track s
    else if s.supply.vs < set16 s 236 then changeSupply .dark s else s
  | .dark =>
    let s := timeRestore s
    if restoreDone s then changeSupply .track s else s

/-- The ride limit is reached (R150). -/
def rideLimitReached (s : State) : Bool :=
  match s.supply.rideStart with
  | some t => set8 s 242 != 0 && reached s.partTime (later t (set8 s 242 * 100))
  | none => false

/-- The hold decision of a budget period (R150). -/
def decideHold (s : State) : State :=
  if s.supply.state = .ride ∧ s.supply.holdFlag = false ∧ (s.supply.vs < set16 s 234 ∨ rideLimitReached s = true) then
    requestSupplyHold s
  else s

/-! ### The load budget (R153, R154) -/

/-- The budget of the present state in mA (R153). -/
def budget (s : State) : Nat :=
  match s.supply.state with
  | .track | .parked => set16 s 238
  | .ride => set16 s 240
  | .dark => 0

/-- The current available after the motor's draw (R153). -/
def available (s : State) : Nat := budget s - s.pub.C

/-- The claim of the sound (R153). -/
def soundClaim (s : State) : Nat := 300 * volumeAsked s / 255

/-- The claim of the smoke heater (R153). -/
def heaterClaim (s : State) : Nat := 10 * set8 s 228 * s.smoke.demand / 1023

/-- The claim of the charging (R153). -/
def chargeClaim (s : State) : Nat := if s.supply.vs < set16 s 245 then set16 s 243 else 0

/-- The grants record of a budget period (R153, R154). -/
def computeGrants (s : State) : Grants :=
  let avail := available s
  let light := s.lightDemand
  let lights := min light avail
  let left1 := avail - lights
  let sound := min (soundClaim s) left1
  let left2 := left1 - sound
  let heater := min (heaterClaim s) left2
  let left3 := left2 - heater
  let dim := if light ≤ avail then 256 else avail * 256 / light
  let vol := if soundClaim s ≤ left1 then 255 else min 255 (left1 * 255 / 300)
  let hcap := if heaterClaim s ≤ left2 then 1023 else min 1023 (left2 * 1023 / (10 * set8 s 228))
  match s.supply.state with
  | .track | .parked =>
    { lights := lights, sound := sound, heater := heater, charging := min (chargeClaim s) left3, dim := dim,
      volumeCap := vol, heaterCap := hcap, charge := min (chargeClaim s) left3 }
  | .ride =>
    { lights := lights, sound := sound, heater := 0, charging := 0, dim := min dim 128, volumeCap := min vol 128,
      heaterCap := 0, charge := 0 }
  | .dark =>
    { lights := 0, sound := 0, heater := 0, charging := 0, dim := 0, volumeCap := 0, heaterCap := 0, charge := 0 }

/-- The grants are published, and the heater's applied duty is set again (R138, R154). -/
def publishGrants (s : State) : State := applyHeater { s with supply := { s.supply with grants := computeGrants s } }

/-- The readings of a budget period, within the ranges of the senses (R144, R145; log 40). -/
def senseSupply (vt vs : Nat) (s : State) : State :=
  { s with supply := { s.supply with vt := min 30000 vt, vs := min 20000 vs } }

/-- One budget period (R145): sensing, the state decision, the hold decision, the grants. -/
def budgetPeriod (vt vs : Nat) (s : State) : State := publishGrants (decideHold (decideSupply (senseSupply vt vs s)))

/-- The budget period at the end of a reset (R144): TRACK, or DARK with the SUPPLY hold and no STORE_LOW. -/
def supplyStart (vt vs : Nat) (s : State) : State :=
  let s := senseSupply vt vs s
  let s := { s with supply := { s.supply with lastActivity := s.partTime } }
  let s :=
    if trackGood s then { s with supply := { s.supply with state := .track, holdFlag := false } }
    else motorDark (requestSupplyHold { s with supply := { s.supply with state := .dark } })
  publishGrants (smokeDecide s)

/-! ### The commands -/

/-- BUDGET_PERIOD (R145). -/
def execBudgetPeriod (vt vs : Nat) (s : State) : Host.Outcome State Fault Refusal :=
  .next (if s.phase = .running then budgetPeriod vt vs s else s)

/-- RIDE_LIMIT (R150): the budget period at which the ride limit is reached and the SUPPLY hold installed
(log 3). -/
def execRideLimit (vt vs : Nat) (s : State) : Host.Outcome State Fault Refusal :=
  let t := budgetPeriod vt vs s
  .next (if s.phase = .running ∧ s.supply.holdFlag = false ∧ t.supply.holdFlag = true ∧ t.supply.state = .ride
      ∧ rideLimitReached t = true then t else s)

/-- RESTORE (R148): the budget period at which the restore completes (log 3). -/
def execRestore (vt vs : Nat) (s : State) : Host.Outcome State Fault Refusal :=
  let t := budgetPeriod vt vs s
  .next (if s.phase = .running ∧ (s.supply.state = .ride ∨ s.supply.state = .dark) ∧ t.supply.state = .track then t
    else s)

/-- PARK (R152): the budget period at which the park test holds (log 3). -/
def execPark (vt vs : Nat) (s : State) : Host.Outcome State Fault Refusal :=
  let t := budgetPeriod vt vs s
  .next (if s.phase = .running ∧ s.supply.state = .track ∧ t.supply.state = .parked then t else s)

end Sys2Proof.Machine
end

