-- ==== Sys2Proof/Machine/Functions.lean ====
section
/-! DEFINITION. The Function Table (chapter 6): switches, and the events that a change of the active features
gives (R102). -/

namespace Sys2Proof.Machine

/-- The brake goes on (R37): the target step becomes 0 and the Sound Engine takes a brake-on event (R117). -/
def brakeOn (s : State) : State :=
  momentaryStart (namedCue (set8 s 456)) { s with demand := { s.demand with step := 0 } }

/-- The trigger of CUE c begins or ends when the thing goes from not asked to asked or back (R102, R116). -/
def cueChange (was is : Bool) (c : Nat) (s : State) : State :=
  if was && !is then triggerEnd c s
  else if !was && is then startRequest c true s
  else s

/-- The events of a change from `old` to `s` of a cause of the active features, given as one set: cue
triggers that end, cue triggers that begin, the brake, and, when SMOKE goes from asked to not asked or back, the
Smoke Controller's decision (R37, R102, R137; log 17). -/
def featureEvents (old s : State) : State :=
  let was := fun c => asked old (featCue c)
  let is := fun c => asked s (featCue c)
  let ended := (List.range 32).filter (fun c => was c && !is c)
  let begun := (List.range 32).filter (fun c => !was c && is c)
  let brake := !asked old featBrake && asked s featBrake
  let smoke := asked old featSmoke != asked s featSmoke
  let s := ended.foldl (fun s c => cueChange true false c s) s
  let s := begun.foldl (fun s c => cueChange false true c s) s
  let s := if brake then brakeOn s else s
  if smoke then smokeDecide s else s

/-- A FUNC write of one switch (R98). -/
def Switch.write (sw : Switch) (value : Bool) (src : Source) : Switch :=
  { sw with on := value, lastSetter := some (.source src), expiry := none }

/-- A beacon FUNCTION action on one switch (R99); a duration of 0 is taken as 1 s. -/
def Switch.beacon (sw : Switch) (duration : Nat) (now : Time) : Switch :=
  if sw.on && sw.expiry.isNone then sw
  else { on := true, lastSetter := some .beacon, expiry := some (later now ((if duration = 0 then 1 else duration) * 1000)) }

/-- The switches of group g named by a mask take their values (R98). -/
def writeSwitches (g mask values : Nat) (src : Source) (s : State) : State :=
  featureEvents s { s with switches := s.switches.mapIdx (fun i sw =>
    if i / 8 = g ∧ mask / 2 ^ (i % 8) % 2 = 1 then sw.write (values / 2 ^ (i % 8) % 2 == 1) src else sw) }

/-- A permitted FUNC (R98): the switches named change together, and the request is activity (R152; log 13). -/
def funcTaken (g mask values : Nat) (src : Source) (s : State) : State :=
  activity (writeSwitches g mask values src s)

/-- A beacon FUNCTION action (R99). -/
def beaconFunction (i duration : Nat) (s : State) : State :=
  featureEvents s { s with switches := updateAt s.switches i (fun sw => sw.beacon duration s.partTime) }

/-- A momentary expiry that is reached: the switch goes off (R100). -/
def switchExpires (i : Nat) (s : State) : State :=
  match s.switches[i]? with
  | some { expiry := some t, .. } =>
    if reached s.partTime t then
      featureEvents s { s with switches := updateAt s.switches i (fun sw => { sw with on := false, expiry := none }) }
    else s
  | _ => s

/-- MOMENTARY_EXPIRY (R100). -/
def execMomentaryExpiry (i : Nat) (s : State) : Host.Outcome State Fault Refusal := .next (switchExpires i s)

end Sys2Proof.Machine
end

