-- ==== Sys2Proof/Machine/Motion.lean ====
section
/-! DEFINITION. The Motion Controller (chapter 2): the demand record, direction changes, operators' holds,
targeted stops and beacon caps. The effective target and the deceleration in effect are in Operands.lean. -/

namespace Sys2Proof.Machine

/-! ### Direction (R12, R27, R28) -/

/-- The applied direction flips (R12, R27, R28): the integral and both accumulators are cleared, a running
check is abandoned (R21), and the features are recomputed (R102). -/
def flipApplied (d : Dir) (s : State) : State :=
  let t := { s with
    demand := { s.demand with applied := d, pending := false }
    motor := { s.motor with I := 0, rising := 0, falling := 0 } }
  featureEvents s (abandonCheck t)

/-- The locomotive stands by the latest published set: R is 0 and Mf below 20 (R27, R28). -/
def pubStands (s : State) : Bool := s.pub.R == 0 && s.pub.Mf < 20

/-- The wanted direction is compared with the applied one (R27). `agreed` says that they agreed before the
change, so that a reversal begins and its event is given (R117), after the feature events of a flip (log 47). -/
def reconcile (agreed : Bool) (s : State) : State :=
  if wantedDir s = s.demand.applied then { s with demand := { s.demand with pending := false } }
  else
    let t :=
      if pubStands s then flipApplied (wantedDir s) s
      else { s with demand := { s.demand with pending := true } }
    if agreed then momentaryStart (namedCue (set8 s 455)) t else t

/-- The wanted and the applied direction agree. -/
def dirAgrees (s : State) : Bool := wantedDir s == s.demand.applied

/-- A pending reversal completes at a published standstill (R28). -/
def completeReversal (s : State) : State :=
  if s.demand.pending && pubStands s then flipApplied (wantedDir s) s else s

/-- An accepted DRIVE is stored (R26): step, direction, last writer, EMERGENCY removed by a stored step of 0,
the direction reconciled, and activity reported (R152; log 13). -/
def driveStored (step : Nat) (d : Dir) (src : Source) (s : State) : State :=
  let agreed := dirAgrees s
  let step := min 250 step
  let s := { s with demand := { s.demand with step := step, commanded := d, lastWriter := some (.source src) } }
  let s := if step = 0 then removeHold .emergency s else s
  activity (reconcile agreed s)

/-! ### Targeted stops and caps (R38 to R40) -/

/-- The deceleration of a targeted stop from R and the stopping distance (R38). -/
def stopDecel (r d : Nat) : Decel :=
  if r = 0 ∨ d = 0 then .instant else .rate (clampNat 10 4000 ((50 * r * r + d - 1) / d))

/-- A targeted stop ends by its dwell (R39): the entry goes, and reverse-at-end inverts the commanded
direction. -/
def dwellEnds (s : State) : State :=
  match findHold s .beacon with
  | some h =>
    let agreed := dirAgrees s
    let s := removeHold .beacon s
    if h.reverseAtEnd then
      reconcile agreed { s with demand := { s.demand with
        commanded := s.demand.commanded.flip, lastWriter := some .beacon } }
    else s
  | none => s

/-- The expiry a dwell sets (R39). -/
def dwellExpiry (now : Time) : Option Nat → Expiry
  | none => .absent
  | some d => .atTime (later now (d * 1000))

/-- A BEACON STOP entry enters DWELL (R39); a dwell of 0 expires at once. -/
def enterDwell (h : Hold) (s : State) : State :=
  let h' := { h with phase := some .dwell, expiry := dwellExpiry s.partTime h.dwell }
  let s := { s with holds := s.holds.map (fun x => if x.source = .beacon then h' else x) }
  if h.dwell = some 0 then dwellEnds s else s

/-- At a control period whose published R is 0, a BEACON STOP in APPROACH enters DWELL (R39). -/
def beginDwell (s : State) : State :=
  match findHold s .beacon with
  | some h => if h.kind = .stop ∧ h.phase = some .approach ∧ s.pub.R = 0 then enterDwell h s else s
  | none => s

/-- An odometer expiry is reached: the wrapping difference is below 2^31 (R34). -/
def odometerReached (odo expiry : Odometer) : Bool := (odo - expiry).toNat < 2147483648

/-- A BEACON hold's odometer expiry is examined against the published odometer (R34, R40). -/
def expireCap (s : State) : State :=
  match findHold s .beacon with
  | some { expiry := .atOdometer o, .. } =>
    if odometerReached s.pub.odometer o then removeHold .beacon s else s
  | _ => s

/-- A request of an origin is taken in this position (R41). -/
def originTaken (s : State) (o : Origin) : Bool :=
  let follower := consistPosition s == .mid || consistPosition s == .trail
  match o with
  | .own => !follower
  | .consist => follower

/-- A request to install a BEACON STOP (R38): in APPROACH, or in DWELL when R is 0. -/
def installStop (decel : Decel) (dwell : Option Nat) (rev : Bool) (o : Origin) (s : State) : State :=
  if originTaken s o then
    let h : Hold :=
      { source := .beacon, kind := .stop, capValue := 0, decel := decel, expiry := .absent, phase := some .approach,
        dwell := dwell, reverseAtEnd := rev, origin := some o, created := s.partTime }
    let s := installHold h s
    if s.pub.R = 0 then enterDwell h s else s
  else s

/-- A request to install a BEACON CAP (R40), the distance limit in du, 0 for none. -/
def installCap (value limit : Nat) (o : Origin) (s : State) : State :=
  if originTaken s o then
    installHold
      { source := .beacon, kind := .cap, capValue := value, decel := .normal,
        expiry := if limit = 0 then .absent else .atOdometer (s.pub.odometer + BitVec.ofNat 32 limit),
        phase := none, dwell := none, reverseAtEnd := false, origin := some o, created := s.partTime } s
  else s

/-- The dwell of a targeted stop has expired (R34, R39). -/
def dwellReached (s : State) : State :=
  match findHold s .beacon with
  | some { expiry := .atTime t, .. } => if reached s.partTime t then dwellEnds s else s
  | _ => s

/-- The Motion Controller is told of a new consist record (R41, R78): BEACON entries of an origin the
position or the address no longer allows go, and a changed reversed flag reconciles the direction (R27). -/
def consistTold (old s : State) : State :=
  let s' :=
    match findHold s .beacon with
    | some h =>
      let gone := match h.origin with
        | some .consist => !originTaken s .consist || consistAddress s != consistAddress old
        | _ => !originTaken s .own
      if gone then removeHold .beacon s else s
    | none => s
  if consistReversed s = consistReversed old then s' else reconcile (dirAgrees old) s'

/-! ### Operators' holds (R31, R32) -/

/-- A STOP (R31): LOCAL from the local master, EMERGENCY from a throttle or as an all-call. -/
def stopTaken (src : Option Source) (s : State) : State :=
  if src = some .localMaster then installHold (plainStop .localMaster .instant) s
  else installHold (plainStop .emergency .instant) s

/-- The holds a RESUME removes by its sender (R32), none when the sender is refused. -/
def resumeRemoves (holder : Bool) (src : Source) : Option (List HoldSource) :=
  match src, holder with
  | .throttle _, true => some [.emergency, .beacon]
  | .localMaster, true => some [.emergency, .beacon, .localMaster]
  | .localMaster, false => some [.emergency, .localMaster]
  | .throttle _, false => none

/-- DWELL_EXPIRY (R39). -/
def execDwellExpiry (s : State) : Host.Outcome State Fault Refusal := .next (dwellReached s)

end Sys2Proof.Machine
end

