-- ==== Sys2Proof/Machine/MotorLoop.lean ====
section
/-! DEFINITION. The Motor Loop (chapter 1): the stages of a control period, motor faults, the motor check,
chuffs, and the publishing of the period's values. -/

namespace Sys2Proof.Machine

/-! ### Stage 0 and stage 3 (R3, R6, R7) -/

/-- The filtered speed after a back-EMF sample (R3). -/
def filterSpeed (mf m : Nat) : Nat := ((mf : Int) + Int.tdiv ((m : Int) - (mf : Int)) 4).toNat

/-- An instant move of the reference (R6). -/
def moveInstant (target : Nat) (m : Motor) : Motor := { m with R := target, rising := 0, falling := 0 }

/-- A ramping move up at a rate (R7). -/
def rampUp (target rate : Nat) (m : Motor) : Motor :=
  let acc := m.rising + rate
  let r := min (m.R + acc / 100) target
  if r = target then { m with R := r, rising := 0, falling := 0 }
  else { m with R := r, rising := acc % 100, falling := 0 }

/-- A ramping move down at a rate (R7). -/
def rampDown (target rate : Nat) (m : Motor) : Motor :=
  let acc := m.falling + rate
  let r := max (m.R - acc / 100) target
  if r = target then { m with R := r, rising := 0, falling := 0 }
  else { m with R := r, rising := 0, falling := acc % 100 }

/-- Stage 3: the reference moves toward the effective target (R6, R7). `accel` is absent while MOMENTUM_OFF
is active. -/
def moveReference (target : Nat) (accel : Option Nat) (decel : EffDecel) (m : Motor) : Motor :=
  if m.R < target then
    match accel with
    | some a => rampUp target a m
    | none => moveInstant target m
  else if target < m.R then
    match decel with
    | .instant => moveInstant target m
    | .rate d => rampDown target d m
  else { m with rising := 0, falling := 0 }

/-! ### Stages 4 to 6 (R8 to R10) -/

/-- The settings of the speed loop (R2). -/
structure LoopSettings where
  kff : Nat
  kp : Nat
  ki : Nat
  clim : Nat
  deriving DecidableEq, Repr

/-- The feed-forward term (R8). -/
def feedForward (k : LoopSettings) (r : Nat) : Nat := r * k.kff / 4096

/-- The provisional integral (R8). -/
def provisionalI (k : LoopSettings) (m : Motor) : Int :=
  clamp (-261888) 261888 (m.I + ((m.R : Int) - (m.Mf : Int)) * k.ki)

/-- The raw drive (R8). -/
def rawDrive (k : LoopSettings) (m : Motor) : Int :=
  (feedForward k m.R : Int) + Int.tdiv (((m.R : Int) - (m.Mf : Int)) * k.kp) 256 + Int.tdiv (provisionalI k m) 256

/-- The demanded duty (R8). -/
def demandedDuty (k : LoopSettings) (m : Motor) : Nat := (clamp 0 1023 (rawDrive k m)).toNat

/-- The current cap after a period's current (R9). -/
def foldCap (clim c cap : Nat) : Nat := if clim < c then max 64 (cap - 32) else min 1023 (cap + 8)

/-- The integral keeps its old value (R10). -/
def holdsIntegral (k : LoopSettings) (m : Motor) : Bool :=
  let e := (m.R : Int) - (m.Mf : Int)
  let draw := rawDrive k m
  (decide (1023 < draw) && decide (0 < e)) || (decide (draw < 0) && decide (e < 0))
    || (decide (m.cap < demandedDuty k m) && decide (0 < e))

/-- Stages 4 to 6 with the cap already folded (R8 to R10). -/
def speedLoop (k : LoopSettings) (target : Nat) (m : Motor) : Motor :=
  let i := if holdsIntegral k m then m.I else provisionalI k m
  let da := min (demandedDuty k m) m.cap
  if m.R = 0 ∧ target = 0 then { m with I := 0, Da := 0 } else { m with I := i, Da := da }

/-! ### Detectors (R14 to R16) -/

/-- The stall condition (R15). -/
def stallCondition (m : Motor) : Bool := 1000 ≤ m.Da && decide (m.Mf < m.R / 8)

/-- The open condition (R16). -/
def openCondition (m : Motor) : Bool := 200 ≤ m.Da && decide (m.C < 20) && decide (m.Mf < 10)

/-- The stall and open counts of a period in which the detectors run (R15, R16). -/
def countFaults (m : Motor) : Motor :=
  { m with
    stallCount := if stallCondition m then min 1000 (m.stallCount + 1) else 0
    openCount := if openCondition m then min 100 (m.openCount + 1) else 0 }

/-- A motor fault is taken (R14 to R16): the record, FAULT, no drive, the MOTOR_FAULT hold, the report. -/
def takeMotorFault (k : FaultKind) (retry : Option Time) (s : State) : State :=
  reportFault k retry.isNone
    (installHold (plainStop .motorFault .instant)
      { s with motor := { s.motor with
          fault := some { kind := k, retry := retry }
          state := .fault
          Da := 0
          I := 0
          stallCount := 0
          openCount := 0 } })

/-- A stall is detected (R15): LATCHED within 60 s of the last stall, else retried after 5 s. -/
def stallDetected (s : State) : State :=
  let again := match s.motor.lastStall with
    | some t => decide (ageMs s.partTime t < 60000)
    | none => false
  takeMotorFault .motorStall (if again then none else some (later s.partTime 5000))
    { s with motor := { s.motor with lastStall := some s.partTime } }

/-- A short is detected (R14): LATCHED as the third within 10 s, else retried after 1 s. -/
def shortDetected (s : State) : State :=
  let history := s.motor.shorts.filter (fun t => decide (ageMs s.partTime t ≤ 10000)) ++ [s.partTime]
  takeMotorFault .motorShort (if 3 ≤ history.length then none else some (later s.partTime 1000))
    { s with motor := { s.motor with shorts := history } }

/-- The outcome of the detectors of a period: an open winding is taken before a stall (R16). -/
def detectFaults (s : State) : State :=
  if s.motor.openCount = 100 then takeMotorFault .motorOpen none s
  else if set8 s 68 * 10 ≤ s.motor.stallCount ∧ 0 < s.motor.stallCount then stallDetected s
  else s

/-! ### The motor check (R19 to R21) -/

/-- The resistance estimate of a NORMAL check (R20). -/
def checkEstimate (vt : Nat) (cs : List Nat) : Nat := min 65535 (vt * 256 / 1023 * 100 / (cs.sum / 3))

/-- The end of period 29 (R20; log 63): OPEN when every recorded current is below 20 mA, else NORMAL. -/
def finishCheck (s : State) : State :=
  if s.motor.checkC.all (fun c => decide (c < 20)) then endCheck .openCircuit (some 65535) s
  else endCheck .normal (some (checkEstimate s.supply.vt s.motor.checkC)) s

/-- One period of a running check (R20): `m` is the back-EMF sampled in it; the current and the cap are
already this period's. A short is a MOTOR_SHORT's, never this averaged current's (log 45). -/
def checkPeriod (m p : Nat) (s : State) : State :=
  let cs := if p % 10 = 1 then s.motor.checkC ++ [s.motor.C] else s.motor.checkC
  let da := if p % 10 = 0 ∨ p = 9 ∨ p = 19 then min 256 s.motor.cap else 0
  let s := { s with motor := { s.motor with
    R := 0, I := 0, rising := 0, falling := 0, checkC := cs, Da := da, checkProgress := some (p + 1) } }
  if p % 10 = 2 ∧ 40 < m then endCheck .moving none s
  else if 29 ≤ p then finishCheck s
  else s

/-- A CHECK request of a sender that may control (R19): an accepted one sets the first pulse's duty at once
(R20), and the check starts at the next control period (log 15). -/
def checkTaken (s : State) : State :=
  if s.motor.state = .check then s
  else if s.motor.R = 0 ∧ s.motor.state = .stopped ∧ s.motor.Mf < 20 ∧ s.supply.state = .track then
    { s with motor := { s.motor with checkAccepted := true, checkShorted := false, Da := min 256 s.motor.cap } }
  else
    { s with motor := { s.motor with checkRecord := { result := .notRun, estimate := none, time := s.partTime } } }

/-- An accepted check starts at the start of a control period (R19). -/
def startCheck (s : State) : State :=
  if s.motor.checkAccepted then
    { s with motor := { s.motor with state := .check, checkProgress := some 0, checkC := [], checkAccepted := false } }
  else s

/-- A short in a check pulse ends the check (R20); R13 classifies the motor from the period after this one. -/
def shortEndsCheck (s : State) : State :=
  let t := endCheck .short (some 0) s
  { t with motor := { t.motor with checkShorted := true } }

/-! ### Publishing and the events that follow (R13, R22 to R24) -/

/-- A chuff goes to the Sound Engine and to the Smoke Controller (R22, R118, R142; log 42). -/
def chuff (s : State) : State := smokeChuff (momentaryStart (exhaustCue s) s)

/-- The chuff accumulator after a period with chuff source DISTANCE, and whether a chuff is due (R22). -/
def chuffStep (span acc mf : Nat) : Nat × Bool :=
  let a := acc + mf
  if span ≤ a then (min (a - span) (span - 1), true) else (a, false)

/-- The motion phase (R24): `before` is R before stage 3 moved it, or before R11 forced it to 0. -/
def phaseOf (before : Nat) (m : Motor) : MotionPhase :=
  if m.R = 0 ∧ m.Mf < 20 then .stopped
  else if before < m.R then .accelerating
  else if m.R < before then .decelerating
  else .cruising

/-- The motor state of R13. -/
def classify (s : State) : State :=
  match s.motor.state with
  | .check => s
  | .fault => s
  | _ => { s with motor := { s.motor with
      state := if s.demand.pending then .reversing
               else if s.motor.R = 0 ∧ s.motor.Mf < 20 then .stopped else .running } }

/-- The classification at the end of a control period (R13), which a period in which a check ended leaves to the
next one (R20). -/
def settle (checkEnded : Bool) (s : State) : State :=
  if checkEnded || s.motor.checkShorted then { s with motor := { s.motor with checkShorted := false } } else classify s

/-- Stage 7 publishes the set, the motor state as it stands before R13 (R24). -/
def publish (s : State) : State :=
  { s with pub :=
    { R := s.motor.R, Mf := s.motor.Mf, Da := s.motor.Da, C := s.motor.C, L := s.motor.labour, phase := s.motor.phase,
      motorState := s.motor.state, odometer := s.motor.odometer } }

/-- The motion event of two successive published phases (R117). -/
def motionEvent (old : MotionPhase) (s : State) : State :=
  if old = .stopped ∧ s.pub.phase = .accelerating then momentaryStart (namedCue (set8 s 453)) s
  else if old ≠ .stopped ∧ s.pub.phase = .stopped then momentaryStart (namedCue (set8 s 454)) s
  else s

/-- Stage 7: odometer, chuff accumulator, labour and motion phase (R22, R24). The answer says whether a
chuff is due. -/
def stage7 (before ff : Nat) (driving : Bool) (s : State) : State × Bool :=
  let cam := set8 s 71 == 1
  let step := chuffStep (set16 s 69) s.motor.chuffAcc s.motor.Mf
  ({ s with motor := { s.motor with
      odometer := s.motor.odometer + BitVec.ofNat 32 s.motor.Mf
      chuffAcc := if cam then 0 else step.1
      labour := if driving then (s.motor.Da : Int) - (ff : Int) else 0
      phase := phaseOf before s.motor } },
    !cam && step.2)

/-- What follows from the published set, in the order of 95_what_each_step_holds.md (log 12): the pending
reversal (R28), the dwell (R39), the cap's expiry (R34), the chuff, the motion event (R117), and the
classification of R13 unless a check ended in this period (R20). -/
def afterPublish (oldPhase : MotionPhase) (isChuff checkEnded : Bool) (s : State) : State :=
  let s := expireCap (beginDwell (completeReversal s))
  let s := if isChuff then chuff s else s
  let s := motionEvent oldPhase s
  settle checkEnded s

/-- The speed-loop settings as they stand (R2). -/
def loopSettings (s : State) : LoopSettings :=
  { kff := set16 s 62, kp := set8 s 64, ki := set8 s 65, clim := set16 s 66 }

/-- Stage 0 of a control period and the cap of stage 5 (R3, R9; log 40). -/
def measure (current backEmf : Nat) (s : State) : State :=
  let c := min 8190 current
  { s with motor := { s.motor with
      C := c
      Mf := filterSpeed s.motor.Mf (min 4095 backEmf)
      cap := foldCap (set16 s 66) c s.motor.cap } }

/-- Stages 3 to 6 in the states STOPPED, RUNNING and REVERSING (R6 to R10), the counts and the detectors
(R15, R16; log 16). A fault is taken here, before stage 7 publishes the period (log 67). -/
def drivePeriod (target : Nat) (accel : Option Nat) (decel : EffDecel) (s : State) : State :=
  let k := loopSettings s
  detectFaults { s with motor := countFaults (speedLoop k target (moveReference target accel decel s.motor)) }

/-- Stages 3 to 6 of one period, by supply and motor state (R6 to R11, R20). -/
def middleStages (target backEmf : Nat) (accel : Option Nat) (decel : EffDecel) (s : State) : State :=
  if s.supply.state = .dark then motorDark s
  else
    match s.motor.state, s.motor.checkProgress with
    | .fault, _ => { s with motor := { moveReference target accel decel s.motor with Da := 0, I := 0 } }
    | .check, some p => checkPeriod (min 4095 backEmf) p s
    | _, _ => drivePeriod target accel decel s

/-- One control period (R3): the start of an accepted check (R19), the abandoning of a check by a raised target
(R21), stage 0, stages 3 to 6, stage 7, publishing and what follows. -/
def controlPeriod (current backEmf : Nat) (s : State) : State :=
  let target := sEff s
  let accel := if asked s featMomentumOff then none else some (set16 s 56)
  let decel := decelInEffect s
  let oldPhase := s.pub.phase
  let s := startCheck s
  let s := if 0 < target then abandonCheck s else s
  let wasCheck := s.motor.state == .check
  let before := if s.supply.state = .dark then s.pub.R else s.motor.R
  let s := middleStages target backEmf accel decel (measure current backEmf s)
  let driving := s.supply.state != .dark && !wasCheck && s.motor.state != .fault
  let r := stage7 before (feedForward (loopSettings s) s.motor.R) driving s
  afterPublish oldPhase r.2 (wasCheck && s.motor.state != .check) (publish r.1)

/-! ### The commands -/

/-- CONTROL_PERIOD (R3; logs 33, 45). -/
def execControlPeriod (c m : Nat) (s : State) : Host.Outcome State Fault Refusal :=
  .next (if s.phase = .running then controlPeriod c m s else s)

/-- CHECK_COMPLETE (R20): the control period that ends a running check with a result of its own (log 3). -/
def execCheckComplete (c m : Nat) (s : State) : Host.Outcome State Fault Refusal :=
  let t := controlPeriod c m s
  .next (if s.phase = .running ∧ s.motor.state = .check ∧ t.motor.state ≠ .check
      ∧ t.motor.checkRecord.result ≠ .abandoned then t else s)

/-- A current of 7500 mA is sensed in a drive phase (R14, R20): the bridge must be driving (log 14). With a check
accepted the drive phase is that of its first period (log 15). S_eff is not looked at (log 68). -/
def shortSensed (current : Nat) (s : State) : State :=
  if 7500 ≤ current ∧ 0 < s.motor.Da ∧ s.supply.state ≠ .dark then
    if s.motor.checking then shortEndsCheck s
    else if s.motor.state = .fault then s
    else shortDetected s
  else s

/-- MOTOR_SHORT (R14). -/
def execMotorShort (current : Nat) (s : State) : Host.Outcome State Fault Refusal := .next (shortSensed current s)

/-- A control period that takes a motor fault of a kind, from a state that is not FAULT. -/
def faultPeriod (k : FaultKind) (c m : Nat) (s : State) : State :=
  let t := controlPeriod c m s
  if s.phase = .running ∧ s.motor.state ≠ .fault ∧ t.motor.state = .fault ∧ t.motor.fault.map (·.kind) = some k then t
  else s

/-- MOTOR_STALL (R15): the control period that detects a stall (log 3). -/
def execMotorStall (c m : Nat) (s : State) : Host.Outcome State Fault Refusal := .next (faultPeriod .motorStall c m s)

/-- MOTOR_OPEN (R16): the control period that detects an open winding (log 3). -/
def execMotorOpen (c m : Nat) (s : State) : Host.Outcome State Fault Refusal := .next (faultPeriod .motorOpen c m s)

/-- The retry time of an unlatched fault record is reached (R17). -/
def faultRetried (s : State) : State :=
  match s.motor.fault with
  | some { retry := some t, .. } =>
    if reached s.partTime t then
      removeHold .motorFault { s with motor := { s.motor with fault := none, state := .stopped } }
    else s
  | _ => s

/-- FAULT_RETRY (R17). -/
def execFaultRetry (s : State) : Host.Outcome State Fault Refusal := .next (faultRetried s)

/-- The Fault List tells the Motor Loop of an accepted CLEAR_FAULTS (R18). -/
def motorCleared (s : State) : State :=
  removeHold .motorFault { s with motor := { s.motor with
    fault := none
    shorts := []
    lastStall := none
    stallCount := 0
    openCount := 0
    state := if s.motor.state = .fault then .stopped else s.motor.state } }

/-- CAP_DISTANCE_EXPIRY (R34, R40): the control period whose published odometer reaches a cap's expiry
(log 3). -/
def execCapDistanceExpiry (c m : Nat) (s : State) : Host.Outcome State Fault Refusal :=
  let t := controlPeriod c m s
  .next (match findHold s .beacon with
    | some { kind := .cap, expiry := .atOdometer o, .. } =>
      if s.phase = .running ∧ odometerReached t.pub.odometer o = true ∧ (findHold t .beacon).isNone = true then t else s
    | _ => s)

/-- The cam input takes a level (R23): the stable time restarts, and a LOW level that has held 5 ms arms the
next edge (log 32). -/
def camInput (l : Level) (s : State) : State :=
  if l = s.motor.camLevel then s
  else { s with motor := { s.motor with
    camLevel := l
    camStable := 0
    camArmed := s.motor.camArmed || (s.motor.camLevel == .low && 5 ≤ s.motor.camStable) } }

/-- CAM_INPUT_CHANGE (R23); a change during the start-up load is not seen (log 46). -/
def execCamInputChange (l : Level) (s : State) : Host.Outcome State Fault Refusal :=
  .next (if s.phase = .running then camInput l s else s)

/-- A HIGH level has held for 5 ms after a LOW one: with chuff source CAM this is a chuff (R23). -/
def camChuffed (s : State) : State :=
  if set8 s 71 = 1 ∧ s.motor.camLevel = .high ∧ 5 ≤ s.motor.camStable ∧ s.motor.camArmed = true then
    chuff { s with motor := { s.motor with camArmed := false } }
  else s

/-- CAM_CHUFF (R23). -/
def execCamChuff (s : State) : Host.Outcome State Fault Refusal :=
  .next (if s.phase = .running then camChuffed s else s)

end Sys2Proof.Machine
end

