-- ==== Sys2Proof/Machine/Txn.lean ====
section
/-! DEFINITION. The ending of a configuration transaction (R171, R172) and the removal of a throttle entry
(R52), which may cause it. -/

namespace Sys2Proof.Machine

/-- The transaction ends: its staged data is discarded, and the Sound Engine decides its mode again (R130,
R171). -/
def endTxn (s : State) : State := updateMode { s with txn := { s.txn with state := .closed, staged := [] } }

/-- A silent abort of the transaction that a source opened (R172). -/
def abortTxnOf (src : Source) (s : State) : State :=
  if s.txn.state ≠ .closed ∧ s.txn.opener = src then endTxn s else s

/-- The entry of a throttle index. -/
def entry (s : State) (i : Nat) : Option ThrottleEntry := s.throttles.getD i none

/-- Replace the entry of an index. -/
def setEntry (i : Nat) (e : Option ThrottleEntry) (s : State) : State := { s with throttles := s.throttles.set i e }

/-- The removal of an entry, with its removed notice to the Settings Store (R52). -/
def removeEntry (i : Nat) (s : State) : State := abortTxnOf (.throttle i) (setEntry i none s)

/-- The forget time of a LOST entry is reached (R52). -/
def forgetDue (s : State) (e : ThrottleEntry) : Bool :=
  e.lostSince.isSome && reached s.partTime (later e.lastHeard (set8 s 12 * 10000))

/-- A LOST entry past its forget time that no claim item names is forgotten (R52). -/
def forgetIfDue (i : Nat) (s : State) : State :=
  match entry s i with
  | some e => if forgetDue s e && !namedByClaim s i then removeEntry i s else s
  | none => s

end Sys2Proof.Machine
end

