-- ==== Sys2Proof/Machine/Claims.lean ====
section
/-! DEFINITION. The Claim Table (chapter 4): claims and releases, the judgement of DRIVE, FUNC and CONSIST,
loss and reclaim, and the notices to other blocks. -/

namespace Sys2Proof.Machine

/-- Result codes, in the order of Table 5-5. -/
inductive Result where
  | ok
  | clamped
  | stale
  | notHolder
  | claimHeld
  | tableFull
  | notStopped
  | cfgBusy
  | cfgNone
  | cfgOverrun
  | cfgShort
  | range
  | notLocal
  | wrongAddress
  | armed
  deriving DecidableEq, Repr

/-- Address marks of a matched frame (Table 5-2, R84). -/
inductive Mark where
  | allCall
  | own
  | consist
  deriving DecidableEq, Repr

/-! ### Notices (R73) -/

/-- The release notice to the Throttle Table when the last item naming an index is gone (R52, R73). -/
def releaseNotice (i : Nat) (s : State) : State := if namedByClaim s i then s else forgetIfDue i s

/-- The drive-lost notice for a source: the transaction of a throttle opener is aborted (R172, R73). -/
def driveLost (src : Source) (s : State) : State :=
  match src with
  | .throttle _ => abortTxnOf src s
  | .localMaster => s

/-- Items naming a source have been removed: its release notice as due. -/
def itemGone (src : Source) (s : State) : State :=
  match src with
  | .throttle i => releaseNotice i s
  | .localMaster => s

/-- The next generation: 65535 wraps to 1 (R66). -/
def nextGeneration (g : Nat) : Nat := if g = 65535 then 1 else g + 1

/-- The holder list changes (R66): one increase of the generation, FREE when it is empty, and the notices for
each source that lost its item. -/
def changeHolders (mode : DriveMode) (holders : List HolderItem) (s : State) : State :=
  let gone := (s.drive.holders.map (·.source)).filter (fun x => !(holders.any (fun h => h.source == x)))
  let s := { s with drive :=
    { mode := if holders.isEmpty then .free else mode, holders := holders,
      generation := nextGeneration s.drive.generation } }
  gone.foldl (fun s x => itemGone x (driveLost x s)) s

/-- The record of group g takes a holder, or OPEN; a source that lost the group may have lost its last item
(R64, R65, R73). -/
def changeGroup (g : Nat) (item : Option HolderItem) (s : State) : State :=
  let old := s.groups.getD g none
  let s := { s with groups := s.groups.set g item }
  match old with
  | some h => itemGone h.source s
  | none => s

/-- Some DRIVE item is ACTIVE. -/
def driveActive (s : State) : Bool := s.drive.holders.any (fun h => h.until_.isNone)

/-- The RADIO_LOSS hold is requested (R72). -/
def requestRadioLoss (s : State) : State := installHold (plainStop .radioLoss .normal) s

/-! ### Claiming (R60 to R64) -/

/-- A fresh item of a source. -/
def activeItem (src : Source) : HolderItem := { source := src, until_ := none }

/-- A grant of DRIVE that adds its sender: RADIO_LOSS goes (R61, R62, R72). -/
def grantDrive (mode : DriveMode) (holders : List HolderItem) (s : State) : State :=
  removeHold .radioLoss (changeHolders mode holders s)

/-- The source has an item in the DRIVE record. -/
def hasDriveItem (s : State) (src : Source) : Bool := s.drive.holders.any (fun h => h.source == src)

/-- CLAIM DRIVE without an override (R61, R62): nothing when it is refused with CLAIM_HELD. -/
def claimDrive (mode : DriveMode) (steal : Bool) (src : Source) (s : State) : Option State :=
  if hasDriveItem s src then some s
  else if s.drive.mode = .free then some (grantDrive mode [activeItem src] s)
  else if steal && s.drive.holders.all (fun h => h.until_.isSome) then some (grantDrive mode [activeItem src] s)
  else if mode = .shared ∧ s.drive.mode = .shared ∧ s.drive.holders.length < 3 then
    some (grantDrive .shared (s.drive.holders ++ [activeItem src]) s)
  else none

/-- CLAIM DRIVE with LOCAL's override (R63). -/
def overrideDrive (mode : DriveMode) (s : State) : State :=
  let mine := s.drive.holders.filter (fun h => h.source == .localMaster)
  if mine.isEmpty then grantDrive mode [activeItem .localMaster] s
  else if mine.length = s.drive.holders.length then { s with drive := { s.drive with mode := mode } }
  else changeHolders mode mine s

/-- CLAIM of group g without an override (R64). -/
def claimGroup (g : Nat) (steal : Bool) (src : Source) (s : State) : Option State :=
  match s.groups.getD g none with
  | none => some (changeGroup g (some (activeItem src)) s)
  | some h =>
    if h.source = src then some s
    else if steal && h.until_.isSome then some (changeGroup g (some (activeItem src)) s)
    else none

/-- A CLAIM (R60): resource 0 DRIVE or 1 to 4 a group, mode 0 EXCLUSIVE or 1 SHARED; a mode above 1 is refused for
a group too (log 48). -/
def claimTaken (resource mode : Nat) (steal override : Bool) (src : Source) (s : State) : Result × State :=
  if 4 < resource ∨ 1 < mode then (.range, s)
  else
    let asked : DriveMode := if mode = 1 then .shared else .exclusive
    let byLocal := override && src == .localMaster
    let r :=
      if resource = 0 then (if byLocal then some (overrideDrive asked s) else claimDrive asked steal src s)
      else if byLocal then some (changeGroup (resource - 1) (some (activeItem .localMaster)) s)
      else claimGroup (resource - 1) steal src s
    match r with
    | some t => (.ok, activity t)
    | none => (.claimHeld, s)

/-! ### Releasing (R65) -/

/-- RELEASE of DRIVE by a source with an item (R65, R72). -/
def releaseDrive (src : Source) (s : State) : State :=
  let left := s.drive.holders.filter (fun h => h.source != src)
  let t := changeHolders s.drive.mode left s
  if driveActive s && !driveActive t && !left.isEmpty then requestRadioLoss t else t

/-- A RELEASE (R65). -/
def releaseTaken (resource : Nat) (src : Source) (s : State) : Result × State :=
  if 4 < resource then (.range, s)
  else if resource = 0 then
    if hasDriveItem s src then (.ok, releaseDrive src s) else (.notHolder, s)
  else
    match s.groups.getD (resource - 1) none with
    | some h => if h.source = src then (.ok, changeGroup (resource - 1) none s) else (.notHolder, s)
    | none => (.notHolder, s)

/-! ### Writes under a claim (R67, R68) -/

/-- The checks of a DRIVE (R67), in order: the refusal, if any. -/
def driveRefusal (mark : Mark) (gen dir : Nat) (src : Source) (s : State) : Option Result :=
  if consistSet s && mark == .own then some .wrongAddress
  else if !holdsDrive s src then some .notHolder
  else if 1 < dir then some .range
  else if s.drive.mode = .exclusive ∧ gen = 0 then none
  else if gen = s.drive.generation then none
  else some .stale

/-- A DRIVE (R67, R26). -/
def driveTaken (mark : Mark) (gen step dir : Nat) (src : Source) (s : State) : Result × State :=
  match driveRefusal mark gen dir src s with
  | some r => (r, s)
  | none =>
    (if 250 < step then .clamped else .ok,
      driveStored step (if dir = 1 then .rev else .fwd) src
        { s with drive := { s.drive with generation := nextGeneration s.drive.generation } })

/-- The consist function mask of group g (R77). -/
def groupMask (s : State) (g : Nat) : Nat := set8 s (6 + g)

/-- A FUNC for group g is permitted to a sender (R68). -/
def funcPermitted (g : Nat) (src : Source) (s : State) : Bool :=
  match s.groups.getD g none with
  | none => true
  | some h => h.source == src

/-- The change mask that reaches the Function Table (R68, R77). -/
def narrowedMask (mark : Mark) (g mask : Nat) (s : State) : Nat :=
  if mark = .consist then mask &&& groupMask s g else mask

/-- A FUNC (R68). -/
def funcRequest (mark : Mark) (g mask values : Nat) (src : Source) (s : State) : Result × State :=
  if consistSet s && mark == .own then (.wrongAddress, s)
  else if 3 < g then (.range, s)
  else if !funcPermitted g src s then (.notHolder, s)
  else (.ok, funcTaken g (narrowedMask mark g mask s) values src s)

/-! ### The consist record (R75) -/

/-- Bytes 3 to 9 of the settings for an accepted CONSIST (R75). -/
def consistBytes (addr pos flags : Nat) (mask : List Byte) : List Byte :=
  if addr = 0 then List.replicate 7 0
  else [BitVec.ofNat 8 addr, BitVec.ofNat 8 pos, BitVec.ofNat 8 (flags % 2)] ++ mask

/-- A change of the live settings that SAVE has not written (R167, R173). -/
def markUnsaved (s : State) : State := { s with unsaved := true, changedSinceCopy := true }

/-- A CONSIST (R75); `mask` is the four mask bytes. -/
def consistRequest (addr pos flags : Nat) (mask : List Byte) (src : Source) (s : State) : Result × State :=
  if !mayControl s src then (.notHolder, s)
  else if s.pub.R ≠ 0 then (.notStopped, s)
  else if 127 < addr ∨ 3 < pos ∨ (1 ≤ addr ∧ pos = 0) then (.range, s)
  else
    (.ok, consistTold s (markUnsaved
      { s with settings := overlay s.settings 3 (consistBytes addr pos flags (mask.take 4)) }))

/-! ### Loss and reclaim (R69 to R72) -/

/-- An item of a source becomes RESERVED until a time. -/
def HolderItem.reserve (i : HolderItem) (src : Source) (t : Time) : HolderItem :=
  if i.source = src then { i with until_ := some t } else i

/-- A RESERVED item of a source becomes ACTIVE. -/
def HolderItem.restore (i : HolderItem) (src : Source) : HolderItem :=
  if i.source = src then { i with until_ := none } else i

/-- Every item of an index becomes RESERVED for the reclaim window (R69). -/
def reserveItems (i : Nat) (t : Time) (s : State) : State :=
  { s with
    drive := { s.drive with holders := s.drive.holders.map (·.reserve (.throttle i) t) }
    groups := s.groups.map (Option.map (·.reserve (.throttle i) t)) }

/-- The items of a source that satisfy a test are removed from DRIVE and from the groups, with the notices
(R66, R69, R71, R73). -/
def removeItems (src : Source) (test : HolderItem → Bool) (s : State) : State :=
  let goes := fun (h : HolderItem) => h.source == src && test h
  let hadGroup := s.groups.any (fun g => match g with | some h => goes h | none => false)
  let left := s.drive.holders.filter (fun h => !goes h)
  let s' := { s with groups := s.groups.map (fun g => match g with
    | some h => if goes h then none else some h
    | none => none) }
  let s' := if left.length = s.drive.holders.length then s' else changeHolders s.drive.mode left s'
  if hadGroup then itemGone src s' else s'

/-- A lost notice (R69, R72). -/
def lostNotice (i : Nat) (s : State) : State :=
  let w := set8 s 11
  let t :=
    if w = 0 then removeItems (.throttle i) (fun _ => true) s
    else reserveItems i (later s.partTime (w * 1000)) s
  if driveActive s && !driveActive t then requestRadioLoss t else t

/-- A DRIVE item of an index is RESERVED. -/
def driveReserved (i : Nat) (s : State) : Bool :=
  s.drive.holders.any (fun h => h.source == .throttle i && h.until_.isSome)

/-- A heard notice (R70, R72). -/
def heardNotice (i : Nat) (s : State) : State :=
  let t := { s with
    drive := { s.drive with holders := s.drive.holders.map (·.restore (.throttle i)) }
    groups := s.groups.map (Option.map (·.restore (.throttle i))) }
  if driveReserved i s then removeHold .radioLoss t else t

/-- The until time of a RESERVED item is reached (R71). -/
def itemExpired (now : Time) (h : HolderItem) : Bool :=
  match h.until_ with
  | some t => reached now t
  | none => false

/-- The RESERVED items of an index whose until time is reached are removed (R71). -/
def reservationsExpire (i : Nat) (s : State) : State := removeItems (.throttle i) (itemExpired s.partTime) s

/-- RESERVATION_EXPIRY (R71). -/
def execReservationExpiry (i : Nat) (s : State) : Host.Outcome State Fault Refusal := .next (reservationsExpire i s)

end Sys2Proof.Machine
end

