-- ==== Sys2Proof/Machine/Throttles.lean ====
section
/-! DEFINITION. The Throttle Table (chapter 3): learning, eviction, repeats, paths, the rate limit, silence
and forgetting. -/

namespace Sys2Proof.Machine

/-- An index 0 to 15 whose entry satisfies a test, the lowest one. -/
def findIndex (s : State) (test : ThrottleEntry → Bool) : Option Nat :=
  (List.range 16).find? (fun i => match entry s i with | some e => test e | none => false)

/-- The lowest free index (R44). -/
def freeIndex (s : State) : Option Nat := (List.range 16).find? (fun i => (entry s i).isNone)

/-- An eviction candidate: a LOST entry that no claim item names (R45). -/
def evictable (s : State) (i : Nat) : Bool :=
  match entry s i with
  | some e => e.lostSince.isSome && !namedByClaim s i
  | none => false

/-- The ms since an entry was last heard. -/
def silence (s : State) (i : Nat) : Nat :=
  match entry s i with
  | some e => ageMs s.partTime e.lastHeard
  | none => 0

/-- The candidate with the oldest last-heard time, the lowest index among equal ones (R45). -/
def evictionChoice (s : State) : Option Nat :=
  match (List.range 16).filter (evictable s) with
  | [] => none
  | i :: is => some (is.foldl (fun a b => if silence s a < silence s b then b else a) i)

/-- A freshly learned entry (R44). Its last sequence is set when the learning frame passes the rate check
(R47). -/
def learnedEntry (f : Frame) (now : Time) : ThrottleEntry :=
  { id := f.sourceId, lostSince := none, lastSeq := f.seqByte, lastHeard := now, path := f.pathByte,
    quality := f.quality, intervalCount := 0, dropCount := 0 }

/-- What becomes of a presented frame (R42). -/
inductive Presented where
  /-- Handed over for dispatch with the entry's index. -/
  | taken (index : Nat)
  /-- Refused with TABLE_FULL (R45). -/
  | refused
  /-- Discarded without a reply: a repeat, a rate drop, or a PRESENCE that finds the table full. -/
  | dropped
  deriving DecidableEq, Repr

/-- The rate check and the record of the accepted sequence and path (R47, R49; log 18). -/
def rateCheck (i : Nat) (e : ThrottleEntry) (f : Frame) (s : State) : Presented × State :=
  let accept := fun (e : ThrottleEntry) =>
    (Presented.taken i, setEntry i (some { e with lastSeq := f.seqByte, path := f.pathByte }) s)
  if f.kind = 5 then accept e
  else if e.intervalCount < set8 s 13 then accept { e with intervalCount := e.intervalCount + 1 }
  else (.dropped, setEntry i (some { e with dropCount := bump16 e.dropCount }) s)

/-- An unknown id is learned at an index, and its frame goes on at the rate check (R44). -/
def learnAt (i : Nat) (f : Frame) (s : State) : Presented × State := rateCheck i (learnedEntry f s.partTime) f s

/-- A frame with an unknown id (R44, R45). -/
def unknownId (f : Frame) (s : State) : Presented × State :=
  match freeIndex s with
  | some i => learnAt i f s
  | none =>
    match evictionChoice s with
    | some i => learnAt i f (removeEntry i s)
    | none =>
      (if f.kind = 0x23 then .dropped else .refused, { s with refusedLearns := bump16 s.refusedLearns })

/-- A frame heard from an entry: last-heard time and quality, and the return of a LOST entry with its heard
notice (R43, R51). -/
def heard (i : Nat) (e : ThrottleEntry) (f : Frame) (s : State) : State :=
  let s' := setEntry i (some { e with lastHeard := s.partTime, quality := f.quality, lostSince := none }) s
  if e.lostSince.isSome then heardNotice i s' else s'

/-- A presented frame (R42). -/
def present (f : Frame) (s : State) : Presented × State :=
  match findIndex s (fun e => e.id == f.sourceId) with
  | none => unknownId f s
  | some i =>
    match entry s i with
    | none => unknownId f s
    | some e =>
      let s := heard i e f s
      let e := { e with lastHeard := s.partTime, quality := f.quality, lostSince := none }
      if f.seqByte = e.lastSeq then (.dropped, s) else rateCheck i e f s

/-- The silence limit of an ACTIVE entry is reached (R50). -/
def silenceDue (s : State) (e : ThrottleEntry) : Bool :=
  e.lostSince.isNone && reached s.partTime (later e.lastHeard (set8 s 10 * 100))

/-- An entry becomes LOST with its lost notice, and is forgotten at once when its forget time is past too
(R50, R52). -/
def loseEntry (i : Nat) (e : ThrottleEntry) (s : State) : State :=
  forgetIfDue i (lostNotice i (setEntry i (some { e with lostSince := some s.partTime }) s))

/-- The silence limit of an index, if it is reached (R50). -/
def silenceIfDue (i : Nat) (s : State) : State :=
  match entry s i with
  | some e => if silenceDue s e then loseEntry i e s else s
  | none => s

/-- The rate interval timer expires: every interval count becomes 0 (R48). -/
def rateExpires (s : State) : State :=
  if reached s.partTime s.rateDue then
    { s with
      rateDue := later s.rateDue 500
      throttles := s.throttles.map (Option.map (fun e => { e with intervalCount := 0 })) }
  else s

/-- RATE_INTERVAL (R48). -/
def execRateInterval (s : State) : Host.Outcome State Fault Refusal :=
  .next (if s.phase = .running then rateExpires s else s)

/-- SILENCE_LIMIT (R50). -/
def execSilenceLimit (i : Nat) (s : State) : Host.Outcome State Fault Refusal := .next (silenceIfDue i s)

/-- FORGET_TIME (R52). -/
def execForgetTime (i : Nat) (s : State) : Host.Outcome State Fault Refusal := .next (forgetIfDue i s)

end Sys2Proof.Machine
end

