-- ==== Sys2Proof/Machine/Frames.lean ====
section
/-! DEFINITION. Bytes and frames of the Frame Engine (chapter 5): byte receivers, intake queues and the order
of taking, the reply queue and the transmitters, the building of frames, port counters. -/

namespace Sys2Proof.Machine

/-! ### Ports -/

/-- The state of a port. -/
def portState (s : State) : Port → PortState
  | .radio => s.radio
  | .localLine => s.localLine

/-- Replace the state of a port. -/
def setPort (p : Port) (ps : PortState) (s : State) : State :=
  match p with
  | .radio => { s with radio := ps }
  | .localLine => { s with localLine := ps }

/-- The capacity of a port's intake queue (R81). -/
def intakeCapacity : Port → Nat
  | .radio => 8
  | .localLine => 4

/-! ### Byte receivers (R79) -/

/-- A receiver in HUNT with no partial frame. -/
def hunting : Receiver := { state := .hunt, len := 0, body := [], gap := 0 }

/-- A framing error discards the partial frame (R79). -/
def PortState.framingError (p : PortState) : PortState :=
  { p with rx := hunting, counters := { p.counters with framing := bump16 p.counters.framing } }

/-- A complete frame enters the intake queue, or is discarded as an overflow (R81). -/
def PortState.complete (cap : Nat) (f : Frame) (p : PortState) : PortState :=
  if p.intake.length < cap then
    { p with rx := hunting, intake := p.intake ++ [f],
             counters := { p.counters with received := bump16 p.counters.received } }
  else { p with rx := hunting, counters := { p.counters with overflows := bump16 p.counters.overflows } }

/-- More than 5 ms have passed since the previous byte of a partial frame (R79). -/
def PortState.gapExceeded (p : PortState) : Bool := p.rx.state != .hunt && 5 < p.rx.gap

/-- The gap timeout of a receiver (R79). -/
def PortState.gapTimeout (p : PortState) : PortState := if p.gapExceeded then p.framingError else p

/-- A body byte is kept; the last one completes the body (R79). -/
def PortState.bodyByte (which : Port) (b : Byte) (p : PortState) : PortState :=
  let body := p.rx.body ++ [b]
  if body.length < p.rx.len then { p with rx := { p.rx with body := body, gap := 0 } }
  else
    match which with
    | .radio => { p with rx := { p.rx with state := .quality, body := body, gap := 0 } }
    | .localLine => p.complete 4 { body := body, quality := 0 }

/-- A byte arrives at a receiver, a gap that has grown too long having been taken first (R79). -/
def PortState.takeByte (which : Port) (p : PortState) (b : Byte) : PortState :=
  let p := p.gapTimeout
  match p.rx.state with
  | .hunt => if b = 0x7E#8 then { p with rx := { state := .length, len := 0, body := [], gap := 0 } } else p
  | .length =>
    if 12 ≤ b.toNat ∧ b.toNat ≤ 36 then
      { p with rx := { state := .body, len := b.toNat, body := [], gap := 0 } }
    else p.framingError
  | .body => p.bodyByte which b
  | .quality => p.complete 8 { body := p.rx.body, quality := b }

/-- A byte arrives at a port (R79). -/
def byteArrives (which : Port) (b : Byte) (s : State) : State :=
  setPort which ((portState s which).takeByte which b) s

/-- The bytes of a frame on the line: start byte, length byte, body (section 5.1). A transmitter sends just these,
with no quality byte (R93). -/
def frameBytes (body : List Byte) : List Byte := [0x7E#8, BitVec.ofNat 8 body.length] ++ body

/-- The bytes a receiver is given for a frame: on the radio port the quality byte follows the body (section 5.1). -/
def lineBytes (which : Port) (body : List Byte) (quality : Byte) : List Byte :=
  frameBytes body ++ (match which with | .radio => [quality] | .localLine => [])

/-- The bytes of a whole frame arrive back to back (R79, R81; log 5). -/
def frameArrives (which : Port) (body : List Byte) (quality : Byte) (s : State) : State :=
  setPort which ((lineBytes which body quality).foldl (PortState.takeByte which) (portState s which)) s

/-- BYTE_ARRIVAL (R79). -/
def execByteArrival (which : Port) (b : Byte) (s : State) : Host.Outcome State Fault Refusal :=
  .next (byteArrives which b s)

/-- FRAME_RECEIVED (R81; log 38). -/
def execFrameReceived (which : Port) (body : List Byte) (quality : Byte) (s : State) :
    Host.Outcome State Fault Refusal :=
  .next (if body.length < 256 then frameArrives which body quality s else s)

/-- BYTE_GAP_TIMEOUT (R79). -/
def execByteGapTimeout (which : Port) (s : State) : Host.Outcome State Fault Refusal :=
  .next (setPort which (portState s which).gapTimeout s)

/-! ### The order of taking (R82) -/

/-- The next frame the Frame Engine takes: the oldest local frame, else the oldest radio frame; none while the
start-up load or a RESET waits (R82, R90, R178). -/
def nextTaken (s : State) : Option (Port × Frame) :=
  if s.phase = .loading ∨ s.resetWait = true then none
  else
    match s.localLine.intake, s.radio.intake with
    | f :: _, _ => some (.localLine, f)
    | [], f :: _ => some (.radio, f)
    | [], [] => none

/-- A frame leaves its queue when it is taken (R81). -/
def popIntake (which : Port) (s : State) : State :=
  setPort which { portState s which with intake := (portState s which).intake.tail } s

/-! ### Building frames (R80, R92, R94) -/

/-- A body with its CRC field. -/
def sealBody (bs : List Byte) : List Byte := bs ++ crcBytes bs

/-- A reply frame body (Table 5-1b, R92). -/
def replyBody (layout path : Byte) (id : ThrottleId) (loco : Nat) (seq kind : Byte) (payload : List Byte) : List Byte :=
  sealBody ([layout, path] ++ le4 id ++ le2 loco ++ [seq, kind] ++ payload)

/-- A CONSIST_HOLD frame body (R94). -/
def consistHoldBody (s : State) (payload : List Byte) : List Byte :=
  sealBody ([BitVec.ofNat 8 (set8 s 2), 0] ++ le2 (0x8000 + consistAddress s) ++ le2 (locoAddress s) ++ [0xFF, 0xFF]
    ++ [s.holdSeq, 0x40] ++ payload)

/-! ### The reply queue and the transmitters (R93) -/

/-- Count a discarded reply of a port (R93, R96). -/
def PortState.replyDropped (p : PortState) : PortState :=
  { p with counters := { p.counters with dropped := bump16 p.counters.dropped } }

/-- A frame is appended to the reply queue, or discarded and counted when four are in it (R93). -/
def queueReply (f : OutFrame) (s : State) : State :=
  if s.replies.length < 4 then { s with replies := s.replies ++ [f] }
  else setPort f.port (portState s f.port).replyDropped s

/-- The Frame Engine sends a CONSIST_HOLD (R94), which carries the hold sequence as it was before its increase
(log 11). -/
def sendConsistHold (payload : List Byte) (s : State) : State :=
  queueReply { port := .radio, body := consistHoldBody s payload, isReset := false }
    { s with holdSeq := s.holdSeq + 1 }

/-- The oldest frame for a port in the reply queue (R93). -/
def oldestReply (which : Port) (s : State) : Option OutFrame := s.replies.find? (fun f => f.port == which)

/-- An idle transmitter starts on the oldest frame for its port: the frame's bytes go out, and the frame stays in
the queue (R93; log 57). -/
def startSending (which : Port) (s : State) : State :=
  match oldestReply which s with
  | some f => setPort which { portState s which with sending := some (frameBytes f.body) } s
  | none => s

/-- The last byte of the frame being sent has gone: it leaves the queue and is counted (R93). -/
def finishSending (which : Port) (s : State) : State :=
  let p := portState s which
  match oldestReply which s with
  | some f =>
    setPort which { p with sending := none, counters := { p.counters with sent := bump16 p.counters.sent } }
      { s with replies := s.replies.erase f }
  | none => s

/-- REPLY_SENT (R93). -/
def execReplySent (which : Port) (s : State) : Host.Outcome State Fault Refusal :=
  .next (if (portState s which).sending.isSome then finishSending which s else s)

/-- REPLY_SEND_START (R93). -/
def execReplySendStart (which : Port) (s : State) : Host.Outcome State Fault Refusal :=
  .next (if (portState s which).sending.isSome then s else startSending which s)

end Sys2Proof.Machine
end

