-- ==== Sys2Proof/Machine/Beacon.lean ====
section
/-! DEFINITION. The Beacon Receiver (chapter 10): runs, bursts, matching, actions, learning, the sampled line. -/

namespace Sys2Proof.Machine

/-! ### Runs (R156) -/

/-- The current run has lasted some eighths more; its length saturates, and the line has its level (R155, R156). -/
def advanceRun (eighths : Nat) (s : State) : State :=
  { s with beacon := { s.beacon with runLen := min 65535 (s.beacon.runLen + eighths), unsettled := false } }

/-- The width of a finished run: 0 for a glitch of 2 to 5 eighths (R156). -/
def entryWidth (eighths : Nat) : Nat := if eighths ≤ 5 then 0 else min 127 ((eighths + 4) / 8)

/-- The sample limit in eighths (R157). -/
def limitEighths (s : State) : Nat := set16 s 707 * 8

/-- The other level. -/
def otherLevel : Level → Level
  | .low => .high
  | .high => .low

/-- A burst is being captured (R157). -/
def capturing (s : State) : Bool := s.beacon.state == .capture || s.beacon.state == .learnCapture

/-! ### Matching (R158, R159) -/

/-- The entries a slot may hold (R158). -/
def slotLimit (slot : Nat) : Nat := if slot = 7 then 18 else 24

/-- Position i of a slot is ignored (R158). -/
def slotIgnores (s : State) (slot i : Nat) : Bool := slotByte s slot (2 + i / 8) / 2 ^ (i % 8) % 2 == 1

/-- The level a slot's entry byte names (R158). -/
def entryLevel (b : Nat) : Level := if 128 ≤ b then .high else .low

/-- A captured entry agrees with position i of a slot (R159); a glitch never does, nor a slot entry of width 0. -/
def entryMatches (s : State) (slot i : Nat) (e : CaptureEntry) : Bool :=
  let b := slotByte s slot (5 + i)
  let tol := slotByte s slot 1
  slotIgnores s slot i
    || (e.level == entryLevel b && decide (e.width ≤ b % 128 + tol) && decide (b % 128 ≤ e.width + tol)
        && e.width != 0 && b % 128 != 0)

/-- A slot matches the capture list (R159). -/
def slotMatches (s : State) (slot : Nat) : Bool :=
  let n := slotByte s slot 0
  n != 0 && decide (n ≤ s.beacon.capture.length)
    && (List.range n).all (fun i =>
      match s.beacon.capture[i]? with
      | some e => entryMatches s slot i e
      | none => false)

/-- The first slot that matches (R159). -/
def matchedSlot (s : State) : Option Nat := (List.range 8).find? (slotMatches s)

/-! ### Actions (R161 to R163) -/

/-- A deceleration as a CONSIST_HOLD carries it: 0 for INSTANT (Table 5-4). -/
def Decel.wire : Decel → Nat
  | .rate d => d
  | _ => 0

/-- The payload that carries a lead's STOP to the members (R163); the limit bytes, and the dwell byte of a
halt, are free (log 20). -/
def stopPayload (s : State) (decel : Decel) (dwell : Option Nat) (rev : Bool) : List Byte :=
  let free := Config.unusedHoldByte s.freeCount
  [0] ++ le2 decel.wire
    ++ [match dwell with | some d => BitVec.ofNat 8 d | none => free 3,
        BitVec.ofNat 8 ((if rev then 1 else 0) + (if dwell.isNone then 2 else 0)), free 5, free 6]

/-- The payload that carries a lead's CAP to the members (R163); the dwell byte is free (log 20). -/
def capPayload (s : State) (value limit : Nat) : List Byte :=
  [1] ++ le2 value ++ [Config.unusedHoldByte s.freeCount 3, 0] ++ le2 limit

/-- A STOP_AT is carried out (R162, R163). -/
def stopAt (slot : Nat) (s : State) : State :=
  let d := (actionByte s slot 1 + 256 * actionByte s slot 2) * 100
  let flags := actionByte s slot 4
  let dwell := if flags % 2 = 1 then some (actionByte s slot 3) else none
  let rev := flags % 2 == 1 && flags / 2 % 2 == 1
  let decel := stopDecel s.pub.R d
  let t := installStop decel dwell rev .own s
  if consistPosition s = .lead then sendConsistHold (stopPayload t decel dwell rev) (spendFree t) else t

/-- The cap value of a SLOW_TO (R162). -/
def slowCap (s : State) (step : Nat) : Nat := if step = 0 then 0 else trimmedSpeed s (min 250 step)

/-- A SLOW_TO is carried out (R162, R163). -/
def slowTo (slot : Nat) (s : State) : State :=
  let value := slowCap s (actionByte s slot 1)
  let limit := actionByte s slot 2 + 256 * actionByte s slot 3
  let t := installCap value (limit * 100) .own s
  if consistPosition s = .lead then sendConsistHold (capPayload t value limit) (spendFree t) else t

/-- The position takes the receiver's own motion actions (R161, R162). -/
def ownMotion (s : State) : Bool := consistPosition s == .none || consistPosition s == .lead

/-- The action of a slot is carried out when the applied direction satisfies its qualifier (R161). -/
def carryOut (slot : Nat) (s : State) : State :=
  let b := actionByte s slot 0
  if !qualifies (b / 64) s.demand.applied then s
  else if b % 8 = 1 then (if ownMotion s then stopAt slot s else s)
  else if b % 8 = 2 then (if ownMotion s then slowTo slot s else s)
  else if b % 8 = 3 then momentaryStart (some (min 31 (actionByte s slot 1))) s
  else if b % 8 = 4 then beaconFunction (min 31 (actionByte s slot 1)) (actionByte s slot 2) s
  else s

/-- A match of a slot is repeated (R160). -/
def repeatedMatch (s : State) (slot : Nat) : Bool :=
  match s.beacon.lastMatch with
  | some (t, odo) => t == slot && decide ((s.pub.odometer - odo).toNat < set16 s 710)
  | none => false

/-- A match that is not repeated is taken (R160). -/
def takeMatch (slot : Nat) (s : State) : State :=
  carryOut slot (activity { s with beacon := { s.beacon with lastMatch := some (slot, s.pub.odometer) } })

/-- A burst is handed to the matcher (R159, R160). -/
def matchBurst (s : State) : State :=
  match matchedSlot s with
  | some slot => if repeatedMatch s slot then s else takeMatch slot s
  | none => s

/-! ### Learning (R164, R165) -/

/-- A capture entry as a slot's entry byte (R158). -/
def CaptureEntry.toByte (e : CaptureEntry) : Byte := BitVec.ofNat 8 ((if e.level = .high then 128 else 0) + e.width)

/-- A burst is learned into the armed slot (R165). -/
def learnBurst (s : State) : State :=
  let slot := s.beacon.learn.slot
  let n := min s.beacon.capture.length (slotLimit slot)
  let bytes := [BitVec.ofNat 8 n, 2, 0, 0, 0] ++ (s.beacon.capture.take n).map CaptureEntry.toByte
  markUnsaved { s with
    settings := overlay s.settings (480 + 29 * slot) bytes
    beacon := { s.beacon with
      learn := { state := .learned, slot := slot, entries := n, time := s.partTime }
      learnExpiry := none } }

/-- A short burst in LEARN_CAPTURE is counted (R165). -/
def countShort (s : State) : State :=
  { s with beacon := { s.beacon with
      learn := { s.beacon.learn with entries := bump8 s.beacon.learn.entries } } }

/-- A LEARN for a slot arms a learn (R164). -/
def armLearn (slot : Nat) (s : State) : State :=
  { s with beacon := { s.beacon with
      state := .learnArmed
      closed := false
      capture := []
      learn := { state := .armed, slot := slot, entries := 0, time := s.partTime }
      learnExpiry := some (later s.partTime 30000) } }

/-- The learn expiry is reached: the learn is cancelled (R165). -/
def learnExpires (s : State) : State :=
  match s.beacon.learnExpiry with
  | some t =>
    if reached s.partTime t then
      { s with beacon := { s.beacon with
          learn := { s.beacon.learn with state := .cancelled, time := s.partTime }
          learnExpiry := none
          state := match s.beacon.state with
            | .learnArmed => .idle
            | .learnCapture => .capture
            | st => st } }
    else s
  | none => s

/-! ### Bursts (R157) -/

/-- A burst begins (R157). -/
def beginBurst (s : State) : State :=
  { s with beacon := { s.beacon with
      capture := []
      closed := false
      state := if s.beacon.state = .learnArmed then .learnCapture else .capture } }

/-- A burst ends: the list is closed, the run's length restarts, and the burst is discarded, matched or
learned (R157). -/
def endBurst (held : Bool) (s : State) : State :=
  let learning := s.beacon.state == .learnCapture
  let s := { s with beacon := { s.beacon with closed := true, runLen := 0 } }
  if held then s
  else if s.beacon.capture.length < set8 s 709 then (if learning then countShort s else s)
  else if learning then learnBurst s
  else matchBurst s

/-- The run in progress has reached the sample limit (R157). -/
def limitReached (s : State) : Bool := decide (limitEighths s ≤ s.beacon.runLen)

/-- The end of a burst by quiet or by a held carrier, if it is due (R157). -/
def burstEndDue (s : State) : State :=
  if capturing s && !s.beacon.closed && limitReached s then endBurst (s.beacon.runLevel == .high) s else s

/-- The closing quiet of a burst, if it is due (R157). -/
def captureQuiet (s : State) : State :=
  if capturing s && s.beacon.closed && s.beacon.runLevel == .low && limitReached s then
    { s with beacon := { s.beacon with
        capture := []
        closed := false
        state := if s.beacon.state = .learnCapture ∧ s.beacon.learn.state = .armed then .learnArmed else .idle } }
  else s

/-- A finished run becomes an entry of the open list; the 32nd ends the burst (R156, R157). -/
def appendEntry (e : CaptureEntry) (s : State) : State :=
  let s := { s with beacon := { s.beacon with capture := s.beacon.capture ++ [e] } }
  if 32 ≤ s.beacon.capture.length then endBurst false s else s

/-- The run in progress ends at a change of level that has lasted two eighths, and the new level's run begins
(R156, R157). -/
def finishRun (s : State) : State :=
  let e : CaptureEntry := { level := s.beacon.runLevel, width := entryWidth s.beacon.runLen }
  let s := { s with beacon := { s.beacon with
    runLevel := otherLevel s.beacon.runLevel, runLen := 2, unsettled := false } }
  if capturing s then (if s.beacon.closed then s else appendEntry e s)
  else if s.beacon.runLevel = .high then beginBurst s
  else s

/-- The level the line has shown last (R156). -/
def lineLevel (s : State) : Level := if s.beacon.unsettled then otherLevel s.beacon.runLevel else s.beacon.runLevel

/-- A change of the sample period discards a burst in progress; the run starts afresh at the line's level (R166). -/
def samplePeriodChanged (s : State) : State :=
  { s with beacon := { s.beacon with
      capture := []
      closed := false
      runLevel := lineLevel s
      runLen := 0
      unsettled := false
      state := if s.beacon.learn.state = .armed then .learnArmed else .idle } }

/-! ### The sampled line (R156, R157) -/

/-- What a grown run brings about: the end of an open burst, or the closing quiet of a closed one (R157). -/
def judgeRun (s : State) : State := if s.beacon.closed then captureQuiet s else burstEndDue s

/-- One eighth of the envelope line (R156). The run's own level makes it longer, by a single other eighth before it
too; a first eighth of the other level waits; a second one ends the run at the change. -/
def sampleLine (s : State) (l : Level) : State :=
  if l = s.beacon.runLevel then judgeRun (advanceRun (if s.beacon.unsettled then 2 else 1) s)
  else if s.beacon.unsettled then finishRun s
  else { s with beacon := { s.beacon with unsettled := true } }

/-- The eighths of the envelope line in order (R156; log 10). -/
def sampleEighths (line : List Level) (s : State) : State := line.foldl sampleLine s

/-! ### The commands -/

/-- RUN_FINISHED (R156, R157): the line is sampled, and a run ends; not during the start-up load (log 62). -/
def execRunFinished (line : List Level) (s : State) : Host.Outcome State Fault Refusal :=
  .next (if s.phase = .running then sampleEighths line s else s)

/-- BURST_BEGIN (R157): the line is sampled, and a HIGH run begins in IDLE or LEARN_ARMED (log 62). -/
def execBurstBegin (line : List Level) (s : State) : Host.Outcome State Fault Refusal :=
  .next (if s.phase = .running then sampleEighths line s else s)

/-- BURST_END (R157): the line is sampled, and a burst ends by quiet, a full list or a held carrier (log 62). -/
def execBurstEnd (line : List Level) (s : State) : Host.Outcome State Fault Refusal :=
  .next (if s.phase = .running then sampleEighths line s else s)

/-- CAPTURE_QUIET (R157): the line is sampled, and the closing quiet of a burst is complete (log 62). -/
def execCaptureQuiet (line : List Level) (s : State) : Host.Outcome State Fault Refusal :=
  .next (if s.phase = .running then sampleEighths line s else s)

/-- LEARN_EXPIRY (R165). -/
def execLearnExpiry (s : State) : Host.Outcome State Fault Refusal := .next (learnExpires s)

end Sys2Proof.Machine
end

