-- ==== Sys2Proof/Machine/Outputs.lean ====
section
/-! DEFINITION. The Output Controller (chapter 6): the stages of an output's level, the light demand, and
the overload protection of the two groups. -/

namespace Sys2Proof.Machine

/-- The effect code of output n: 0 STEADY, 1 FLICKER, 2 STROBE, 3 FADE, 4 FIREBOX (R103). -/
def effectOf (s : State) (n : Nat) : Nat := outByte s n 0

/-- The automatic mode of output n: 0 NONE, 1 HEAD, 2 MOVING (R103). -/
def autoMode (s : State) (n : Nat) : Nat := outByte s n 2 % 4

/-- The HEAD direction of output n (R103). -/
def headDir (s : State) (n : Nat) : Dir := if outByte s n 2 / 4 % 2 = 1 then .rev else .fwd

/-- The lead-only flag of output n (R103). -/
def leadOnly (s : State) (n : Nat) : Bool := outByte s n 2 / 8 % 2 == 1

/-- The park behaviour of output n: 0 OFF, 1 DIM, 2 KEEP (R103). -/
def parkBehaviour (s : State) (n : Nat) : Nat := outByte s n 2 / 16 % 4

/-- The fault-blink flag of output n (R103). -/
def faultBlink (s : State) (n : Nat) : Bool := outByte s n 2 / 64 % 2 == 1

/-- The demand of output n in FUNCTION mode (R105). -/
def outputDemand (s : State) (n : Nat) : Bool :=
  asked s (featOutput n)
    || (autoMode s n == 1 && s.demand.applied == headDir s n)
    || (autoMode s n == 2 && s.pub.phase != .stopped)

/-- The next draw of a flicker generator (R106). -/
def drawFlicker (o : Output) : Output :=
  let g := (o.generator * 25173 + 13849) % 65536
  { o with generator := g, drawn := g / 256 }

/-- The fade level moves toward a target by max(1, b / f), at once when f is 0 (R106). -/
def moveFade (fade target b f : Nat) : Nat :=
  if f = 0 then target
  else
    let d := max 1 (b / f)
    if fade < target then min target (fade + d) else max target (fade - d)

/-- The effect counter of an output period with the demand on (R106): back to 0 after p - 1. -/
def nextCount (count p : Nat) : Nat := if p ≤ count + 1 then 0 else count + 1

/-- The effect phase of a STROBE period with the demand on (R106). -/
def strobeStep (o : Output) (p : Nat) : Output :=
  { o with counter := if o.lastDemand then nextCount o.counter p else 0 }

/-- The effect phase of a FLICKER or FIREBOX period with the demand on (R106): a value is drawn when the
counter returns to 0 and when the demand has just come on (log 27). -/
def flickerStep (o : Output) (p : Nat) : Output :=
  let o' := { o with counter := nextCount o.counter p }
  if p ≤ o.counter + 1 || !o.lastDemand then drawFlicker o' else o'

/-- A level lowered by a depth and a drawn value (R106). -/
def flickerLevel (b d r : Nat) : Nat := b - b * d * r / 65025

/-- The depth of a FIREBOX: d + L clamped to 0..255 (R106). -/
def fireboxDepth (d : Nat) (labour : Int) : Nat := (clamp 0 255 ((d : Int) + labour)).toNat

/-- The effect stage (R106): the level, and the output with its new effect phase. -/
def effectStage (s : State) (n : Nat) (demand : Bool) (o : Output) : Nat × Output :=
  let b := outByte s n 1
  let p := outByte s n 5
  let d := outByte s n 6
  let code := effectOf s n
  let r : Nat × Output :=
    if code = 3 then
      let f := moveFade o.fade (if demand then b else 0) b (outByte s n 3)
      (f, { o with fade := f })
    else if !demand then (0, o)
    else if code = 1 then
      let o := flickerStep o p
      (flickerLevel b d o.drawn, o)
    else if code = 2 then
      let o := strobeStep o p
      (if o.counter < max 1 (p / 4) then b else 0, o)
    else if code = 4 then
      let o := flickerStep o p
      (flickerLevel b (fireboxDepth d s.pub.L) o.drawn, o)
    else (b, o)
  (r.1, { r.2 with lastDemand := demand })

/-- The consist gate and the fault blink (R107). -/
def gateAndBlink (s : State) (n level : Nat) : Nat :=
  let level := if leadOnly s n && (consistPosition s == .mid || consistPosition s == .trail) then 0 else level
  if faultBlink s n && anyLatched s then (if s.partTime.toNat % 1000 < 500 then 255 else 0) else level

/-- Supply scaling (R108); `function` says that the output is in FUNCTION mode. -/
def supplyScale (s : State) (n : Nat) (function : Bool) (level : Nat) : Nat :=
  let level := level * s.supply.grants.dim / 256
  match s.supply.state with
  | .dark => 0
  | .parked =>
    if function then
      if parkBehaviour s n = 0 then 0
      else if parkBehaviour s n = 1 then min level (outByte s n 7) else level
    else level
  | _ => level

/-- Output n belongs to group n / 4, which is TRIPPED (R110). -/
def groupTripped (s : State) (g : Nat) : Bool :=
  match s.trips[g]? with
  | some (some _) => true
  | _ => false

/-- The level that enters supply scaling, and the output with its new effect phase: stages 1 to 5. -/
def levelBeforeSupply (s : State) (n : Nat) (o : Output) : Nat × Output :=
  match o.mode with
  | .localLevel => (o.localLevel, o)
  | .function =>
    let e := effectStage s n (outputDemand s n) o
    (gateAndBlink s n e.1, e.2)

/-- One output of one output period (R105 to R109, R111): the output, and its share of the light demand in
mA. -/
def outputStep (s : State) (n : Nat) (o : Output) : Output × Nat :=
  let before := levelBeforeSupply s n o
  let function := o.mode == .function
  let tripped := groupTripped s (n / 4)
  let level := if tripped then 0 else supplyScale s n function before.1
  let lit := decide (0 < before.1) && !tripped && s.supply.state != .dark
    && !(s.supply.state == .parked && function && parkBehaviour s n == 0)
  ({ before.2 with final := level }, if lit then 10 * outByte s n 4 else 0)

/-- The overload comparison of a group at an output period (R111). -/
def checkGroup (g ma : Nat) (s : State) : State :=
  if !groupTripped s g && decide (500 < ma) then
    reportFault .outputOverload false
      { s with trips := updateAt s.trips g (fun _ => some (later s.partTime 2000)) }
  else s

/-- One output period (R105): the group senses, then every output's chain, and the light demand. -/
def outputPeriod (ma0 ma1 : Nat) (s : State) : State :=
  let s := checkGroup 1 ma1 (checkGroup 0 ma0 s)
  let steps := s.outputs.mapIdx (fun n o => outputStep s n o)
  { s with outputs := steps.map (·.1), lightDemand := (steps.map (·.2)).sum }

/-- The retry time of a tripped group is reached (R112). -/
def groupRetried (g : Nat) (s : State) : State :=
  match s.trips[g]? with
  | some (some t) => if reached s.partTime t then { s with trips := updateAt s.trips g (fun _ => none) } else s
  | _ => s

/-- An output takes a control mode and a local level; from LOCAL to FUNCTION its effect starts afresh
(R104). -/
def Output.control (o : Output) (mode : OutputMode) (level : Nat) : Output :=
  if o.mode = .localLevel ∧ mode = .function then
    { o with mode := mode, localLevel := level, fade := 0, counter := 0, lastDemand := false }
  else { o with mode := mode, localLevel := level }

/-- The effect phase starts afresh because the effect has changed (R103). -/
def Output.restart (o : Output) : Output := { o with fade := 0, counter := 0, lastDemand := false }

/-- OUTPUT_PERIOD (R105). -/
def execOutputPeriod (ma0 ma1 : Nat) (s : State) : Host.Outcome State Fault Refusal :=
  .next (if s.phase = .running then outputPeriod ma0 ma1 s else s)

/-- GROUP_RETRY (R112). -/
def execGroupRetry (g : Nat) (s : State) : Host.Outcome State Fault Refusal := .next (groupRetried g s)

end Sys2Proof.Machine
end

