-- ==== Sys2Proof/Machine/Settings.lean ====
section
/-! DEFINITION. The Settings Store (chapter 11): the checks of applied settings, configuration transactions,
SAVE and the sound bank. -/

namespace Sys2Proof.Machine

/-! ### The checks of R168 -/

/-- A range of settings one byte each: first index, how many, lowest and highest value. -/
def byteRanges : List (Nat × Nat × Nat × Nat) :=
  [(3, 1, 0, 127), (4, 1, 0, 3), (10, 1, 10, 200), (11, 1, 0, 250), (12, 1, 1, 255), (13, 1, 4, 64), (54, 2, 64, 192),
    (68, 1, 5, 100), (71, 1, 0, 1), (228, 1, 1, 255), (231, 1, 10, 255), (706, 1, 0, 3), (709, 1, 2, 24)]

/-- A range of settings two bytes each: first index, how many, lowest and highest value. -/
def halfRanges : List (Nat × Nat × Nat × Nat) :=
  [(0, 1, 1, 4095), (32, 11, 0, 4000), (56, 3, 1, 4000), (62, 1, 0, 4095), (66, 1, 200, 6000), (69, 1, 100, 65535),
    (224, 1, 150, 300), (226, 1, 0, 1023), (232, 1, 6000, 24000), (234, 1, 3000, 20000), (236, 1, 3000, 20000),
    (238, 1, 1000, 10000), (240, 1, 0, 10000), (243, 1, 0, 1000), (245, 1, 3000, 20000), (707, 1, 16, 4095)]

/-- Apply a mapping to the byte at an index when it is written. -/
def fixByte (w : Nat → Bool) (i : Nat) (f : Nat → Nat) (img : List Byte) : List Byte :=
  if w i then img.set i (BitVec.ofNat 8 (f (byteAt img i))) else img

/-- Put the low and the high byte of a value at an index. -/
def putHalf (img : List Byte) (i n : Nat) : List Byte :=
  (img.set i (BitVec.ofNat 8 n)).set (i + 1) (BitVec.ofNat 8 (n / 256))

/-- Apply a mapping to the two-byte value at an index when a byte of it is written. -/
def fixHalf (w : Nat → Bool) (i : Nat) (f : Nat → Nat) (img : List Byte) : List Byte :=
  if w i || w (i + 1) then putHalf img i (f (halfAt img i)) else img

/-- The values of every range of one-byte settings. -/
def fixBytes (w : Nat → Bool) (img : List Byte) : List Byte :=
  byteRanges.foldl (fun img r =>
    (List.range r.2.1).foldl (fun img k => fixByte w (r.1 + k) (clampNat r.2.2.1 r.2.2.2) img) img) img

/-- The values of every range of two-byte settings. -/
def fixHalves (w : Nat → Bool) (img : List Byte) : List Byte :=
  halfRanges.foldl (fun img r =>
    (List.range r.2.1).foldl (fun img k => fixHalf w (r.1 + 2 * k) (clampNat r.2.2.1 r.2.2.2) img) img) img

/-- A feature byte as applied: code 46..63 is NONE, qualifier 3 is BOTH (R101). -/
def fixFeature (b : Nat) : Nat := (if 46 ≤ b % 64 then 0 else b % 64) + (if 192 ≤ b then 0 else b / 64 * 64)

/-- An effect code above 4 is STEADY (R103). -/
def fixEffect (b : Nat) : Nat := if 4 < b then 0 else b

/-- Byte 2 of an output record: automatic mode 3 is NONE, park behaviour 3 is OFF (R103). -/
def fixModes (b : Nat) : Nat := b - (if b % 4 = 3 then 3 else 0) - (if b / 16 % 4 = 3 then 48 else 0)

/-- A cue id of 32..254 is none (R119). -/
def fixCueId (b : Nat) : Nat := if 32 ≤ b then 255 else b

/-- A size byte: a size above 32 is 32; bits 6 and 7 stay (R119). -/
def fixSize (b : Nat) : Nat := b / 64 * 64 + min 32 (b % 64)

/-- Byte 0 of an action: a kind above 4 is NONE, a qualifier of 3 is BOTH (R161). -/
def fixActionKind (b : Nat) : Nat := (if 4 < b % 8 then 0 else b % 8) + b / 8 % 8 * 8 + (if 192 ≤ b then 0 else b / 64 * 64)

/-- Byte 1 of an action under its kind: a cap step at most 250, a cue or a switch at most 31 (R161). -/
def fixActionValue (kind b : Nat) : Nat :=
  if kind = 2 then min 250 b else if kind = 3 ∨ kind = 4 then min 31 b else b

/-- A signed threshold clamped to -4000..1023, as its two-byte pattern (R119). -/
def fixThreshold (n : Nat) : Nat := (clamp (-4000) 1023 (signed16 n) % 65536).toNat

/-- One action, kind and byte 1 treated together (R161; log 28). -/
def fixAction (w : Nat → Bool) (img : List Byte) (i : Nat) : List Byte :=
  if w i || w (i + 1) then
    let img := img.set i (BitVec.ofNat 8 (fixActionKind (byteAt img i)))
    img.set (i + 1) (BitVec.ofNat 8 (fixActionValue (byteAt img i % 8) (byteAt img (i + 1))))
  else img

/-- One output record (R103). -/
def fixOutput (w : Nat → Bool) (img : List Byte) (i : Nat) : List Byte :=
  fixByte w (i + 5) (max 2) (fixByte w (i + 2) fixModes (fixByte w i fixEffect img))

/-- One signature slot (R158). -/
def fixSlot (w : Nat → Bool) (img : List Byte) (slot : Nat) : List Byte :=
  fixByte w (481 + 29 * slot) (min 15) (fixByte w (480 + 29 * slot) (min (slotLimit slot)) img)

/-- One voice partition (R119). -/
def fixPartition (w : Nat → Bool) (img : List Byte) (v : Nat) : List Byte :=
  fixByte w (460 + 2 * v) fixSize (fixByte w (459 + 2 * v) (min 63) img)

/-- The coded values of the function map, the outputs, the cues, the sound settings, the slots and the
actions (R101, R103, R114, R119, R158, R161). -/
def fixCoded (w : Nat → Bool) (img : List Byte) : List Byte :=
  let img := (List.range 64).foldl (fun img k => fixByte w (96 + k) fixFeature img) img
  let img := (List.range 8).foldl (fun img n => fixOutput w img (160 + 8 * n)) img
  let img := (List.range 32).foldl (fun img c => fixByte w (256 + 6 * c + 5) (max 1) img) img
  let img := fixHalf w 451 fixThreshold (fixHalf w 449 fixThreshold img)
  let img := (List.range 6).foldl (fun img k => fixByte w (453 + k) fixCueId img) img
  let img := (List.range 6).foldl (fixPartition w) img
  let img := (List.range 8).foldl (fixSlot w) img
  (List.range 8).foldl (fun img k => fixAction w img (712 + 8 * k)) img

/-- The stop level is raised to the cut level (R146). -/
def tieLevels (img : List Byte) : List Byte := putHalf img 234 (max (halfAt img 234) (halfAt img 236))

/-- The forget time is raised to the reclaim window, rounded up to 10 s (R53). -/
def tieForget (img : List Byte) : List Byte := img.set 12 (BitVec.ofNat 8 (max (byteAt img 12) ((byteAt img 11 + 9) / 10)))

/-- The consist record of an image is set (R74). -/
def imageConsistSet (img : List Byte) : Bool := 1 ≤ byteAt img 3 && byteAt img 3 ≤ 127 && positionOf (byteAt img 4) != .none

/-- The consist record of an image is clear (R74). -/
def imageConsistClear (img : List Byte) : Bool :=
  byteAt img 3 == 0 && positionOf (byteAt img 4) == .none && byteAt img 5 % 2 == 0 && wordAt img 6 == 0

/-- A consist record that is neither set nor clear is applied as clear (R74). -/
def tieConsist (img : List Byte) : List Byte :=
  if imageConsistSet img || imageConsistClear img then img else overlay img 3 (List.replicate 7 0)

/-- The image to install: every setting with a byte in the written range within its range, and the ties
(R168). -/
def checkedImage (w : Nat → Bool) (img : List Byte) : List Byte :=
  tieConsist (tieForget (tieLevels (fixCoded w (fixHalves w (fixBytes w img)))))

/-- An index lies in a range. -/
def inRange (start count i : Nat) : Bool := decide (start ≤ i) && decide (i < start + count)

/-- The places where two images differ (R168). -/
def differing (a b : List Byte) : Nat := ((a.zip b).filter (fun p => p.1 != p.2)).length

/-! ### What an applied image starts (R168; log 36) -/

/-- Output n starts its effect phase afresh when its effect has changed (R103). -/
def effectsChanged (old s : State) : State :=
  { s with outputs := s.outputs.mapIdx (fun n o => if effectOf s n = effectOf old n then o else o.restart) }

/-- A changed chuff source clears the chuff accumulator and the cam debounce state (R2). -/
def chuffSourceChanged (old s : State) : State :=
  if set8 s 71 = set8 old 71 then s
  else { s with motor := { s.motor with chuffAcc := 0, camLevel := .low, camStable := 0, camArmed := true } }

/-- A changed setpoint changes the overtemp limit (R136). -/
def setpointChanged (old s : State) : State := if set16 s 224 = set16 old 224 then s else setpointApplied s

/-- A changed sample period (R166). -/
def periodChanged (old s : State) : State := if set8 s 706 = set8 old 706 then s else samplePeriodChanged s

/-- A shortened silence limit loses, and a shortened forget time forgets, every entry that now qualifies
(R53). -/
def throttleTimesChanged (old s : State) : State :=
  let s := if set8 s 10 < set8 old 10 then (List.range 16).foldl (fun s i => silenceIfDue i s) s else s
  if set8 s 12 < set8 old 12 then (List.range 16).foldl (fun s i => forgetIfDue i s) s else s

/-- Each block acts on the new values (R168). -/
def settingsInstalled (old s : State) : State :=
  let s := consistTold old (featureEvents old s)
  let s := periodChanged old (setpointChanged old (chuffSourceChanged old (effectsChanged old s)))
  throttleTimesChanged old (ambientChanged (ambientCue old) s)

/-- A SETTINGS write is applied (R168): the clamped count, and the state. -/
def applySettings (start : Nat) (bytes : List Byte) (s : State) : Nat × State :=
  let laid := overlay s.settings start bytes
  let img := checkedImage (inRange start bytes.length) laid
  (differing laid img, settingsInstalled s (markUnsaved { s with settings := img }))

/-! ### Transactions (R169 to R172) -/

/-- The range check of a CFG_OPEN (R170). -/
def openInRange (target dir start count : Nat) : Bool :=
  if target = 0 then dir ≤ 1 && 1 ≤ count && count ≤ 64 && start + count ≤ 776
  else target == 1 && dir == 0 && 1 ≤ count && count ≤ 256 && start ≤ 16383

/-- The opener's own frame renews the last-frame time (R169). -/
def renewTxn (src : Source) (s : State) : State :=
  if s.txn.state ≠ .closed ∧ s.txn.opener = src then { s with txn := { s.txn with lastFrame := s.partTime } } else s

/-- The refusal of a CFG_OPEN, if any (R170). -/
def openRefusal (target dir start count : Nat) (src : Source) (s : State) : Option Result :=
  if !mayControl s src then some .notHolder
  else if src ≠ .localMaster ∧ s.pub.R ≠ 0 then some .notStopped
  else if (s.txn.state ≠ .closed ∧ s.txn.opener ≠ src) ∨ s.job ≠ .none then some .cfgBusy
  else if !openInRange target dir start count then some .range
  else none

/-- A CFG_OPEN (R170). -/
def cfgOpenTaken (target dir start count : Nat) (src : Source) (s : State) : Result × State :=
  match openRefusal target dir start count src s with
  | some r => (r, renewTxn src s)
  | none =>
    (.ok, updateMode { s with txn :=
      { state := if dir = 1 then .openRead else .openWrite, opener := src,
        target := if target = 1 then .bank else .settings, start := start, count := count,
        staged := List.replicate count none, lastFrame := s.partTime } })

/-- The opener of an open transaction, or the refusal of any other sender (R171). -/
def txnRefusal (src : Source) (s : State) : Option Result :=
  if s.txn.state = .closed then some .cfgNone
  else if s.txn.opener = src then none
  else some .cfgBusy

/-- Bytes staged and marked at an offset (R171). -/
def stage (staged : List (Option Byte)) (o : Nat) (bs : List Byte) : List (Option Byte) :=
  staged.take o ++ bs.map some ++ staged.drop (o + bs.length)

/-- What answers a CFG_DATA: a result, or the DATA payload (Table 5-7). -/
inductive DataAnswer where
  | result (r : Result)
  | data (payload : List Byte)
  deriving DecidableEq, Repr

/-- The DATA payload of an open read (R171, Table 5-7). -/
def readPayload (s : State) (o : Nat) : List Byte :=
  let n := min 16 (s.txn.count - o)
  le2 o ++ [BitVec.ofNat 8 n] ++ (List.range n).map (fun k => s.settings.getD (s.txn.start + o + k) 0)

/-- A CFG_DATA (R171; log 19). -/
def cfgDataTaken (o : Nat) (bs : List Byte) (src : Source) (s : State) : DataAnswer × State :=
  match txnRefusal src s with
  | some r => (.result r, s)
  | none =>
    let s := renewTxn src s
    if s.txn.state = .openRead then (.data (readPayload s o), s)
    else if bs.isEmpty then (.result .ok, s)
    else if s.txn.count < o + bs.length then (.result .cfgOverrun, endTxn s)
    else (.result .ok, { s with txn := { s.txn with staged := stage s.txn.staged o bs } })

/-- The bytes of a fully staged buffer (R171). -/
def stagedBytes (s : State) : List Byte := s.txn.staged.map (·.getD 0)

/-- Every byte is marked (R169). -/
def fullyStaged (s : State) : Bool := s.txn.staged.all (·.isSome)

/-- The closing write of a SETTINGS transaction: result, detail, state (R168, R171). -/
def closeSettings (s : State) : Result × Nat × State :=
  let r := applySettings s.txn.start (stagedBytes s) s
  (if 0 < r.1 then .clamped else .ok, min 255 r.1, endTxn r.2)

/-- The closing write of a BANK transaction begins (R171, R174). -/
def closeBank (s : State) : State :=
  requestFlash .store (.writePage s.txn.start (stagedBytes s)) (endTxn { s with job := .bank })

/-- A CFG_CLOSE (R171): result, detail, state. -/
def cfgCloseTaken (src : Source) (s : State) : Result × Nat × State :=
  match txnRefusal src s with
  | some r => (r, 0, s)
  | none =>
    let s := renewTxn src s
    if s.txn.state = .openRead then (.ok, 0, endTxn s)
    else if !fullyStaged s then (.cfgShort, 0, endTxn s)
    else if s.txn.target = .settings then closeSettings s
    else if s.job = .save then (.cfgBusy, 0, s)
    else (.ok, 0, closeBank s)

/-- The timeout of an open transaction (R172). -/
def txnTimeout (s : State) : State :=
  if s.txn.state ≠ .closed ∧ reached s.partTime (later s.txn.lastFrame 2000) = true then endTxn s else s

/-- CFG_TIMEOUT (R172). -/
def execCfgTimeout (s : State) : Host.Outcome State Fault Refusal := .next (txnTimeout s)

/-! ### SAVE and the sound bank (R173, R174) -/

/-- An accepted SAVE (R173): the image is copied, the Sound Engine is told that a SAVE runs, and the sector erase is
asked for. -/
def beginSave (s : State) : State :=
  requestFlash .store .eraseSettings
    (updateMode { s with job := .save, image := s.settings ++ crcBytes s.settings, changedSinceCopy := false })

/-- A SAVE (R173). -/
def saveTaken (src : Source) (s : State) : Result × State :=
  if !mayControl s src then (.notHolder, s)
  else if s.job ≠ .none then (.cfgBusy, s)
  else (.ok, beginSave s)

/-- A SAVE ends (R173). -/
def endSave (s : State) : State := updateMode { s with job := .none, image := [] }

/-- The settings sector's erase has ended (R173). -/
def eraseDone (ok : Bool) (s : State) : State :=
  if ok then requestFlash .store (.writeImage s.image) s else endSave (reportFault .flashError false s)

/-- The write of the image has ended (R173). -/
def imageWritten (ok : Bool) (s : State) : State :=
  if ok then endSave { s with unsaved := s.changedSinceCopy && s.unsaved }
  else endSave (reportFault .flashError false s)

/-- The page write of the sound bank has ended (R174). -/
def pageWritten (ok : Bool) (s : State) : State :=
  requestDirectory { (if ok then s else reportFault .flashError false s) with job := .bankRead }

/-- An operation of the Store has ended in the Flash Port: what it did to the flash stays, and its result
reaches the Store unless a reset discarded it (R175). -/
def storeDone (op : FlashOp) (discarded ok : Bool) (react : State → State) (s : State) : State :=
  let s := portFreed (flashEffect op ok s)
  if discarded then s else react s

/-- SAVE_ERASE_COMPLETE (R173). -/
def execSaveEraseComplete (ok : Bool) (s : State) : Host.Outcome State Fault Refusal :=
  .next (match s.port.busy with
    | some ({ who := .store, op := .eraseSettings, .. }, discarded) =>
      storeDone .eraseSettings discarded ok (eraseDone ok) s
    | _ => s)

/-- SAVE_WRITE_COMPLETE (R173). -/
def execSaveWriteComplete (ok : Bool) (s : State) : Host.Outcome State Fault Refusal :=
  .next (match s.port.busy with
    | some ({ who := .store, op := .writeImage image, .. }, discarded) =>
      storeDone (.writeImage image) discarded ok (imageWritten ok) s
    | _ => s)

/-- BANK_WRITE_COMPLETE (R174). -/
def execBankWriteComplete (ok : Bool) (s : State) : Host.Outcome State Fault Refusal :=
  .next (match s.port.busy with
    | some ({ who := .store, op := .writePage page bytes, .. }, discarded) =>
      storeDone (.writePage page bytes) discarded ok (pageWritten ok) s
    | _ => s)

end Sys2Proof.Machine
end

