-- ==== Sys2Proof/Machine/Reset.lean ====
section
/-! DEFINITION. The resets and the start-up load (R90, R178). -/

namespace Sys2Proof.Machine

/-- Power-on reset (R178): every block at its reset values. The serial flash keeps what it holds, and the
operation in progress runs to its end (R175). -/
def powerOn (s : State) : State :=
  { State.reset with
    port := resetFlashPort 0 s.port, flash := s.flash, freeCount := s.freeCount, pending := s.pending }

/-- Soft reset (R178): as power-on reset, but part time, the odometer and the Fault List are kept. -/
def softReset (s : State) : State :=
  { State.reset with
    partTime := s.partTime
    motor := { resetMotor with odometer := s.motor.odometer }
    pub := { resetPublished with odometer := s.motor.odometer }
    rateDue := later s.partTime 500
    faults := s.faults
    port := resetFlashPort s.partTime s.port
    flash := s.flash
    freeCount := s.freeCount
    pending := s.pending }

/-- A soft reset is due (R90): a RESET has been taken, and its reply has been sent or was discarded (log 43). -/
def softResetDue (s : State) : Bool := s.resetWait && !s.replies.any (·.isReset)

/-- The settings that the start-up load installs, and the reports it makes (R178). -/
def loadSettings (ok : Bool) (s : State) : State :=
  let image := flashBytes s 0 778
  let valid := ok && imageValid image
  let s := if ok then s else reportFault .flashError false s
  let s := if valid then s else reportFault .settingsDefaulted false s
  { s with
    settings := if valid then checkedImage (fun _ => true) (image.take 776) else factorySettings
    unsaved := !valid
    changedSinceCopy := false }

/-- The reset ends with the installation (R178): the applied direction by the loaded consist record (R25),
the overtemp limit by the loaded setpoint (R134), the loaded smoke settings in use (log 56), a fresh rate interval
(log 30). -/
def endReset (s : State) : State :=
  { s with
    phase := .running
    demand := { s.demand with applied := wantedDir s }
    smoke := { s.smoke with limit := smokeSetpoint s + 60, inUse := smokeSettings s }
    rateDue := later s.partTime 500 }

/-- The start-up read has completed (R178): the settings are installed, the supply starts (R144), and the
clip directory is read (R113). -/
def startUpDone (ok : Bool) (vt vs : Nat) (s : State) : State :=
  requestDirectory (supplyStart vt vs (portFreed (endReset (loadSettings ok s))))

/-- POWER_ON_RESET (R178). -/
def execPowerOnReset (s : State) : Host.Outcome State Fault Refusal := .next (powerOn s)

/-- SOFT_RESET (R90, R178; log 31). -/
def execSoftReset (s : State) : Host.Outcome State Fault Refusal := .next (if softResetDue s then softReset s else s)

/-- SETTINGS_LOAD_COMPLETE (R178): a read that a later reset discarded is followed by another (R175). -/
def execSettingsLoadComplete (ok : Bool) (vt vs : Nat) (s : State) : Host.Outcome State Fault Refusal :=
  .next (match s.port.busy with
    | some ({ who := .startUp, .. }, discarded) => if discarded then portFreed s else startUpDone ok vt vs s
    | _ => s)

end Sys2Proof.Machine
end

