-- ==== Sys2Proof/Machine/Requests.lean ====
section
/-! DEFINITION. A taken frame (R82 to R95): the checks, the Throttle Table, the refusals before dispatch, the
owners, and the reply; one meaning for each request row. -/

namespace Sys2Proof.Machine

/-! ### Checks on a taken frame (R83, R84) -/

/-- The layout id of a radio frame is accepted (R83). -/
def layoutAccepted (s : State) (f : Frame) : Bool := set8 s 2 == 255 || f.layoutId == set8 s 2

/-- The address match (R84): absent when the frame matches nothing. -/
def matchMark (s : State) (which : Port) (f : Frame) : Option Mark :=
  if f.dest = 0 then
    match which with
    | .localLine => some .own
    | .radio => if f.kind = 5 then some .allCall else none
  else if f.dest = locoAddress s then some .own
  else if consistSet s && f.dest == 0x8000 + consistAddress s then some .consist
  else none

/-- What the checks of R83 and R84 make of a taken frame. -/
inductive Screened where
  | crcError
  | layoutMismatch
  | unmatched
  | matched (m : Mark)
  deriving DecidableEq, Repr

/-- The checks of R83 and R84 in order. -/
def screen (s : State) (which : Port) (f : Frame) : Screened :=
  if !f.crcOk then .crcError
  else if which = .radio ∧ layoutAccepted s f = false then .layoutMismatch
  else if 0x80 ≤ f.kind ∧ f.kind ≤ 0x82 then .unmatched
  else
    match matchMark s which f with
    | some m => .matched m
    | none => .unmatched

/-- The request kinds of Table 5-3. -/
def requestKinds : List Nat :=
  [1, 2, 3, 4, 5, 6, 7, 0x10, 0x11, 0x12, 0x13, 0x20, 0x21, 0x22, 0x23, 0x30, 0x31, 0x32, 0x40]

/-! ### Codes of reply payloads (Table 5-5, Table 5-6) -/

/-- The code of a result (Table 5-5). -/
def Result.code : Result → Nat
  | .ok => 0
  | .clamped => 1
  | .stale => 2
  | .notHolder => 3
  | .claimHeld => 4
  | .tableFull => 5
  | .notStopped => 6
  | .cfgBusy => 7
  | .cfgNone => 8
  | .cfgOverrun => 9
  | .cfgShort => 10
  | .range => 11
  | .notLocal => 12
  | .wrongAddress => 13
  | .armed => 14

/-- A byte of a payload. -/
def b8 (n : Nat) : Byte := BitVec.ofNat 8 n

/-- One bit of a payload byte. -/
def bit (b : Bool) (i : Nat) : Nat := if b then 2 ^ i else 0

/-- A source reference as a payload carries it. -/
def Source.code : Source → Nat
  | .throttle i => i
  | .localMaster => 0x10

/-- A last writer or last setter as a payload carries it. -/
def writerCode : Option Writer → Nat
  | none => 0xFF
  | some (.source src) => src.code
  | some .beacon => 0x11

/-- FWD 0, REV 1. -/
def Dir.code : Dir → Nat
  | .fwd => 0
  | .rev => 1

/-- The code of a DRIVE mode (Table 5-5). -/
def DriveMode.code : DriveMode → Nat
  | .free => 0
  | .exclusive => 1
  | .shared => 2

/-- The code of a hold source (Table 5-5). -/
def HoldSource.code : HoldSource → Nat
  | .emergency => 1
  | .localMaster => 2
  | .supply => 3
  | .motorFault => 4
  | .radioLoss => 5
  | .beacon => 6

/-- The code of a supply state (Table 5-5). -/
def SupplyState.code : SupplyState → Nat
  | .track => 0
  | .ride => 1
  | .dark => 2
  | .parked => 3

/-- The code of a motor state (Table 5-5). -/
def MotorState.code : MotorState → Nat
  | .stopped => 0
  | .running => 1
  | .reversing => 2
  | .check => 3
  | .fault => 4

/-- The code of a motion phase (Table 5-6). -/
def MotionPhase.code : MotionPhase → Nat
  | .stopped => 0
  | .accelerating => 1
  | .decelerating => 2
  | .cruising => 3

/-- The code of a fault status (Table 5-6). -/
def FaultStatus.code : FaultStatus → Nat
  | .clear => 0
  | .active => 1
  | .latched => 2

/-- The code of a check result (Table 5-6). -/
def CheckResult.code : CheckResult → Nat
  | .notRun => 0
  | .normal => 1
  | .openCircuit => 2
  | .short => 3
  | .moving => 4
  | .abandoned => 5

/-- The code of a learn state (Table 5-6). -/
def LearnState.code : LearnState → Nat
  | .none => 0
  | .armed => 1
  | .learned => 2
  | .cancelled => 3

/-! ### The STATUS payload (R95, Table 5-5) -/

/-- The byte of one function group's holder. -/
def groupCode : Option HolderItem → Nat
  | none => 0xFF
  | some h => h.source.code + bit h.until_.isSome 7

/-- The code of the k-th hold source, 0 beyond the end of the list. -/
def holdCode (s : State) (k : Nat) : Nat :=
  match s.holds[k]? with
  | some h => h.source.code
  | none => 0

/-- The STATUS payload after a request has been acted on (R95); `src` is absent for a sender without an entry. The
reference is the published one, the motor state the one that stands (log 65). -/
def statusPayload (s : State) (r : Result) (detail : Nat) (src : Option Source) : List Byte :=
  let holds := match src with
    | some x => holdsDrive s x
    | none => false
  [b8 r.code] ++ le2 s.drive.generation ++ [b8 s.demand.step,
      b8 (s.demand.commanded.code + 2 * s.demand.applied.code + bit s.demand.pending 2),
      b8 (writerCode s.demand.lastWriter), b8 (s.pub.R * 250 / 4000), b8 (s.drive.mode.code + bit holds 2)]
    ++ (List.range 4).map (fun g => b8 (groupCode (s.groups.getD g none)))
    ++ (List.range 3).map (fun k => b8 (holdCode s (2 * k) + 16 * holdCode s (2 * k + 1)))
    ++ le2 (activeFaults s)
    ++ [b8 (s.supply.state.code + 4 * s.motor.state.code + bit s.unsaved 7), b8 detail]

/-! ### REPORT payloads (R55, R88, Table 5-6) -/

/-- QUERY STATUS, selector 0. -/
def reportPublished (s : State) : List Byte :=
  le2 s.pub.R ++ le2 s.pub.Mf ++ le2 s.pub.Da ++ le2 s.pub.C ++ le2s s.pub.L ++ le2 s.motor.cap
    ++ [b8 (s.pub.phase.code + 4 * s.pub.motorState.code)] ++ le4 s.motor.odometer

/-- One entry of the hold list (QUERY STATUS, selector 1). -/
def reportHold (now : Time) (h : Hold) : List Byte :=
  [b8 (16 * h.source.code + bit (h.kind == .cap) 0 + bit (h.phase == some .dwell) 1 + bit (h.expiry != .absent) 2)]
    ++ le2 (ageTenths now h.created)

/-- QUERY STATUS, selector 1. -/
def reportHolds (s : State) : List Byte := [b8 s.holds.length] ++ s.holds.flatMap (reportHold s.partTime)

/-- How an item names an index: 0 not named, 1 ACTIVE, 2 RESERVED. -/
def itemCode (i : Nat) (h : HolderItem) : Nat := if h.source = .throttle i then (if h.until_.isSome then 2 else 1) else 0

/-- The claims that name an index, two bits each for DRIVE and the groups (R55). -/
def claimsCode (s : State) (i : Nat) : Nat :=
  (s.drive.holders.map (itemCode i)).sum
    + ((List.range 4).map (fun g =>
        match s.groups.getD g none with
        | some h => 4 ^ (g + 1) * itemCode i h
        | none => 0)).sum

/-- The first occupied index at or after a start (R55). -/
def occupiedFrom (s : State) (start : Nat) : Option Nat :=
  (List.range 16).find? (fun i => decide (start ≤ i) && (entry s i).isSome)

/-- One entry block of QUERY THROTTLES (R55). -/
def reportEntry (s : State) (i : Nat) (e : ThrottleEntry) : List Byte :=
  [b8 i] ++ le4 e.id ++ [b8 (bit e.lostSince.isSome 0 + 2 * (e.path.toNat % 8)), e.quality]
    ++ le2 (ageTenths s.partTime e.lastHeard)
    ++ le2 (match e.lostSince with | some t => ageTenths s.partTime t | none => 0)
    ++ [b8 e.intervalCount] ++ le2 e.dropCount ++ le2 (claimsCode s i)

/-- QUERY THROTTLES from a start index (R55). -/
def reportThrottles (s : State) (start : Nat) : List Byte :=
  let found := occupiedFrom s start
  let next := match found with
    | some i => (occupiedFrom s (i + 1)).getD 0xFF
    | none => 0xFF
  [b8 (s.throttles.filter (·.isSome)).length, b8 next, b8 (set8 s 13)] ++ le2 s.refusedLearns
    ++ (match found with
        | some i => (match entry s i with | some e => reportEntry s i e | none => [])
        | none => [])

/-- QUERY COUNTERS of a port (R96). -/
def reportCounters (c : Counters) : List Byte :=
  le2 c.received ++ le2 c.framing ++ le2 c.overflows ++ le2 c.crcErrors ++ le2 c.layout ++ le2 c.sent ++ le2 c.dropped

/-- QUERY FAULTS of a kind (R176). -/
def reportFaults (s : State) (k : Nat) : List Byte :=
  let r := s.faults.getD k clearFaultRecord
  [b8 r.status.code, b8 r.count] ++ le4 r.firstSeen ++ le4 r.lastSeen ++ le2 (activeFaults s)

/-- QUERY CHECK_RESULT; the estimate field of a record without one is free (log 20). -/
def reportCheck (s : State) : List Byte :=
  let r := s.motor.checkRecord
  [b8 r.result.code, b8 (bit r.estimate.isSome 0)]
    ++ (match r.estimate with
        | some e => le2 e
        | none => le2 (Config.absentEstimate s.freeCount).toNat)
    ++ le4 r.time

/-- QUERY LEARN_RESULT. -/
def reportLearn (s : State) : List Byte :=
  let l := s.beacon.learn
  [b8 l.state.code, b8 l.slot, b8 l.entries] ++ le4 l.time

/-- QUERY SOUND (R120). -/
def reportSound (s : State) : List Byte :=
  le2 s.sound.overlapDrops ++ le2 s.sound.priorityDrops ++ (List.range 6).flatMap (fun v => le2 (voice s v).underruns)

/-- The switches of a group. -/
def groupSwitches (s : State) (g : Nat) : List Switch := (s.switches.drop (8 * g)).take 8

/-- One bit a switch. -/
def switchBits (sws : List Switch) (test : Switch → Bool) : Nat := (sws.mapIdx (fun i sw => bit (test sw) i)).sum

/-- QUERY FUNCTIONS of a group (R97). -/
def reportFunctions (s : State) (g : Nat) : List Byte :=
  let sws := groupSwitches s g
  [b8 (switchBits sws (·.on)), b8 (switchBits sws (·.expiry.isSome))] ++ sws.map (fun sw => b8 (writerCode sw.lastSetter))

/-! ### Taking a frame -/

/-- What a request is decided with: its frame, its mark, its sender. -/
structure Asked where
  frame : Frame
  mark : Mark
  src : Source
  deriving DecidableEq, Repr

/-- How a request is answered: a result with its detail byte, or a DATA or REPORT payload. -/
inductive Answer where
  | status (r : Result) (detail : Nat)
  | payload (kind : Nat) (bytes : List Byte)
  deriving DecidableEq, Repr

/-- A plain result. -/
def plain (r : Result × State) : Answer × State := (.status r.1 0, r.2)

/-- The kind and payload of a reply, read after the owner has acted (R95). -/
def answerPayload (s : State) (src : Option Source) : Answer → Nat × List Byte
  | .status r d => (0x80, statusPayload s r d src)
  | .payload k bs => (k, bs)

/-- A reply is built and queued for the port of the request (R92, R93), with the loco address that stands once the
request has been acted on (log 64). It answers a RESET when a reset waits (R90). -/
def reply (which : Port) (f : Frame) (path : Byte) (src : Option Source) (a : Answer) (s : State) : State :=
  let kp := answerPayload s src a
  queueReply
    { port := which
      body := replyBody (f.body.getD 0 0) path f.sourceId (locoAddress s) f.seqByte (b8 kp.1) kp.2
      isReset := s.resetWait } s

/-- A matched frame draws a reply (R91): own-addressed, or consist-addressed at the LEAD. -/
def drawsReply (s : State) (m : Mark) : Bool := m == .own || (m == .consist && consistPosition s == .lead)

/-- A reply where one is drawn. -/
def replyIf (draws : Bool) (which : Port) (f : Frame) (path : Byte) (src : Option Source) (r : Answer × State) : State :=
  if draws then reply which f path src r.1 r.2 else r.2

/-- The path of an entry, as a reply copies it (R92). -/
def entryPath (s : State) (i : Nat) : Byte :=
  match entry s i with
  | some e => e.path
  | none => 0

/-- The front frame of the intake queues, if it passes the checks and is of a wanted sort (R82 to R84). -/
def frontRequest (wanted : Frame → Bool) (s : State) : Option (Port × Frame × Mark) :=
  match nextTaken s with
  | some (which, f) =>
    match screen s which f with
    | .matched m => if wanted f then some (which, f, m) else none
    | _ => none
  | none => none

/-- A request that has reached dispatch is decided and answered (R86, R87). `draws` was fixed at matching
(R76). -/
def decideRequest (act : Asked → State → Answer × State) (which : Port) (f : Frame) (m : Mark) (draws : Bool) (src : Source)
    (s : State) : State :=
  let r := act { frame := f, mark := m, src := src } s
  let path := match src with
    | .throttle i => entryPath r.2 i
    | .localMaster => 0
  replyIf draws which f path (some src) r

/-- A request is taken from its queue (R82): from the local port it goes on to dispatch with LOCAL as its
source; from the radio port the Throttle Table handles it first (R42, R85). -/
def handle (act : Asked → State → Answer × State) (which : Port) (f : Frame) (m : Mark) (s : State) : State :=
  let draws := drawsReply s m
  let s := popIntake which s
  match which with
  | .localLine => decideRequest act .localLine f m draws .localMaster s
  | .radio =>
    let p := present f s
    match p.1 with
    | .taken i => decideRequest act .radio f m draws (.throttle i) p.2
    | .refused => replyIf draws .radio f f.pathByte none (.status .tableFull 0, p.2)
    | .dropped => p.2

/-- A request row with a source reference: the front frame, if it is of this row, is taken. -/
def takeRequest (wanted : Frame → Bool) (act : Asked → State → Answer × State) (s : State) : State :=
  match frontRequest wanted s with
  | some (which, f, m) => handle act which f m s
  | none => s

/-- The refusal of a payload shorter than the fixed part (R86). -/
def withPayload (len : Nat) (act : List Byte → Asked → State → Answer × State) (a : Asked) (s : State) : Answer × State :=
  if a.frame.payload.length < len then (.status .range 0, s) else act a.frame.payload a s

/-- The refusal of a local-only request from a throttle (R86). -/
def localOnly (act : State → Answer × State) (a : Asked) (s : State) : Answer × State :=
  if a.src = .localMaster then act s else (.status .notLocal 0, s)

/-- A frame of a kind (Table 5-3). -/
def ofKind (k : Nat) (f : Frame) : Bool := f.kind == k

/-! ### The owners' decisions (R87) -/

/-- CLAIM (R60). -/
def actClaim (p : List Byte) (a : Asked) (s : State) : Answer × State :=
  plain (claimTaken (byteAt p 0) (byteAt p 1) (byteAt p 2 % 2 == 1) (byteAt p 2 / 2 % 2 == 1) a.src s)

/-- RELEASE (R65). -/
def actRelease (p : List Byte) (a : Asked) (s : State) : Answer × State := plain (releaseTaken (byteAt p 0) a.src s)

/-- DRIVE (R67). -/
def actDrive (p : List Byte) (a : Asked) (s : State) : Answer × State :=
  plain (driveTaken a.mark (halfAt p 0) (byteAt p 2) (byteAt p 3) a.src s)

/-- FUNC (R68). -/
def actFunc (p : List Byte) (a : Asked) (s : State) : Answer × State :=
  plain (funcRequest a.mark (byteAt p 0) (byteAt p 1) (byteAt p 2) a.src s)

/-- STOP (R31). -/
def actStop (a : Asked) (s : State) : Answer × State := (.status .ok 0, stopTaken (some a.src) s)

/-- RESUME (R32). -/
def actResume (a : Asked) (s : State) : Answer × State :=
  match resumeRemoves (holdsDrive s a.src) a.src with
  | some srcs => (.status .ok 0, srcs.foldl (fun s x => removeHold x s) s)
  | none => (.status .notHolder 0, s)

/-- CONSIST (R75). -/
def actConsist (p : List Byte) (a : Asked) (s : State) : Answer × State :=
  plain (consistRequest (byteAt p 0) (byteAt p 1) (byteAt p 2) (p.drop 3) a.src s)

/-- CFG_OPEN (R86, R170). -/
def actCfgOpen (p : List Byte) (a : Asked) (s : State) : Answer × State :=
  if byteAt p 0 = 1 ∧ a.src ≠ .localMaster then (.status .notLocal 0, s)
  else plain (cfgOpenTaken (byteAt p 0) (byteAt p 1) (halfAt p 2) (halfAt p 4) a.src s)

/-- CFG_DATA (R86, R171). -/
def actCfgData (p : List Byte) (a : Asked) (s : State) : Answer × State :=
  if 18 < p.length then (.status .range 0, s)
  else
    let r := cfgDataTaken (halfAt p 0) (p.drop 2) a.src s
    match r.1 with
    | .result x => (.status x 0, r.2)
    | .data bs => (.payload 0x81 bs, r.2)

/-- CFG_CLOSE (R171). -/
def actCfgClose (a : Asked) (s : State) : Answer × State :=
  let r := cfgCloseTaken a.src s
  (.status r.1 r.2.1, r.2.2)

/-- SAVE (R173). -/
def actSave (a : Asked) (s : State) : Answer × State := plain (saveTaken a.src s)

/-- CHECK (R19). -/
def actCheck (a : Asked) (s : State) : Answer × State :=
  if mayControl s a.src then (.status .ok 0, checkTaken s) else (.status .notHolder 0, s)

/-- Every record is CLEAR with a count of 0 and keeps its times; the Motor Loop and the Smoke Controller are
told (R177). -/
def clearFaults (s : State) : State :=
  smokeCleared (motorCleared { s with faults := s.faults.map (fun r => { r with status := .clear, count := 0 }) })

/-- CLEAR_FAULTS (R177). -/
def actClearFaults (a : Asked) (s : State) : Answer × State :=
  if mayControl s a.src then (.status .ok 0, clearFaults s) else (.status .notHolder 0, s)

/-- PRESENCE (R87). -/
def actPresence (_ : Asked) (s : State) : Answer × State := (.status .ok 0, s)

/-- LEARN (R164). -/
def actLearn (p : List Byte) (a : Asked) (s : State) : Answer × State :=
  localOnly (fun s => if 7 < byteAt p 0 then (.status .range 0, s) else (.status .armed 0, armLearn (byteAt p 0) s)) a s

/-- An output takes a control mode and a level (R104). -/
def outputLocal (n mode level : Nat) (s : State) : State :=
  { s with outputs := updateAt s.outputs n (fun o => o.control (if mode = 1 then .localLevel else .function) level) }

/-- OUTPUT_LOCAL (R104). -/
def actOutputLocal (p : List Byte) (a : Asked) (s : State) : Answer × State :=
  localOnly (fun s =>
    if 7 < byteAt p 0 ∨ 1 < byteAt p 1 then (.status .range 0, s)
    else (.status .ok 0, outputLocal (byteAt p 0) (byteAt p 1) (byteAt p 2) s)) a s

/-- RESET (R90): no further frame is taken. -/
def actReset (a : Asked) (s : State) : Answer × State :=
  localOnly (fun s => (.status .ok 0, { s with resetWait := true })) a s

/-- A QUERY of a what code: a selector above the last one is refused with RANGE, else a REPORT (R88). -/
def actQuery (last : Nat) (report : State → Nat → List Byte) (p : List Byte) (_ : Asked) (s : State) : Answer × State :=
  let sel := byteAt p 1
  if last < sel then (.status .range 0, s) else (.payload 0x82 ([b8 (byteAt p 0), b8 sel] ++ report s sel), s)

/-- QUERY STATUS, and a what code outside Table 5-6, which is refused (R88; log 29). -/
def actQueryStatus (p : List Byte) (a : Asked) (s : State) : Answer × State :=
  if 7 < byteAt p 0 then (.status .range 0, s)
  else actQuery 1 (fun s sel => if sel = 0 then reportPublished s else reportHolds s) p a s

/-- QUERY CHECK_RESULT; a free estimate is used once (log 20). -/
def actQueryCheck (p : List Byte) (a : Asked) (s : State) : Answer × State :=
  let r := actQuery 0 (fun s _ => reportCheck s) p a s
  if byteAt p 1 = 0 ∧ s.motor.checkRecord.estimate.isNone = true then (r.1, spendFree r.2) else r

/-- A QUERY frame of a what code. -/
def ofQuery (what : Nat) (f : Frame) : Bool := f.kind == 0x20 && !f.payload.isEmpty && byteAt f.payload 0 == what

/-- A QUERY frame that the QUERY_STATUS row takes: what code 0, none, or one outside Table 5-6 (log 29). -/
def ofQueryStatus (f : Frame) : Bool :=
  f.kind == 0x20 && (f.payload.isEmpty || byteAt f.payload 0 == 0 || decide (7 < byteAt f.payload 0))

/-! ### The commands -/

/-- CLAIM (R60 to R64). -/
def execClaim (s : State) : Host.Outcome State Fault Refusal := .next (takeRequest (ofKind 0x01) (withPayload 3 actClaim) s)

/-- RELEASE (R65). -/
def execRelease (s : State) : Host.Outcome State Fault Refusal :=
  .next (takeRequest (ofKind 0x02) (withPayload 1 actRelease) s)

/-- DRIVE (R67, R26). -/
def execDrive (s : State) : Host.Outcome State Fault Refusal := .next (takeRequest (ofKind 0x03) (withPayload 4 actDrive) s)

/-- FUNC (R68, R98). -/
def execFunc (s : State) : Host.Outcome State Fault Refusal := .next (takeRequest (ofKind 0x04) (withPayload 3 actFunc) s)

/-- A radio all-call STOP, which installs EMERGENCY without a reply (R85). -/
def allCallStop (which : Port) (s : State) : State := stopTaken none (popIntake which s)

/-- STOP (R31). -/
def execStop (s : State) : Host.Outcome State Fault Refusal :=
  .next (match frontRequest (ofKind 0x05) s with
    | some (which, _, .allCall) => allCallStop which s
    | _ => takeRequest (ofKind 0x05) actStop s)

/-- RESUME (R32). -/
def execResume (s : State) : Host.Outcome State Fault Refusal := .next (takeRequest (ofKind 0x06) actResume s)

/-- CONSIST (R75). -/
def execConsist (s : State) : Host.Outcome State Fault Refusal :=
  .next (takeRequest (ofKind 0x07) (withPayload 7 actConsist) s)

/-- CFG_OPEN (R170); a payload too short is refused before the sender is looked at (log 58). -/
def execCfgOpen (s : State) : Host.Outcome State Fault Refusal :=
  .next (takeRequest (ofKind 0x10) (withPayload 6 actCfgOpen) s)

/-- CFG_DATA (R171). -/
def execCfgData (s : State) : Host.Outcome State Fault Refusal :=
  .next (takeRequest (ofKind 0x11) (withPayload 2 actCfgData) s)

/-- CFG_CLOSE (R168, R171). -/
def execCfgClose (s : State) : Host.Outcome State Fault Refusal := .next (takeRequest (ofKind 0x12) actCfgClose s)

/-- SAVE (R173). -/
def execSave (s : State) : Host.Outcome State Fault Refusal := .next (takeRequest (ofKind 0x13) actSave s)

/-- QUERY_STATUS (R88). -/
def execQueryStatus (s : State) : Host.Outcome State Fault Refusal :=
  .next (takeRequest ofQueryStatus (withPayload 1 actQueryStatus) s)

/-- QUERY_THROTTLES (R55). -/
def execQueryThrottles (s : State) : Host.Outcome State Fault Refusal :=
  .next (takeRequest (ofQuery 1) (withPayload 1 (actQuery 15 reportThrottles)) s)

/-- QUERY_COUNTERS (R96). -/
def execQueryCounters (s : State) : Host.Outcome State Fault Refusal :=
  .next (takeRequest (ofQuery 2) (withPayload 1 (actQuery 1 (fun s sel =>
    reportCounters (if sel = 0 then s.radio.counters else s.localLine.counters)))) s)

/-- QUERY_FAULTS (R176). -/
def execQueryFaults (s : State) : Host.Outcome State Fault Refusal :=
  .next (takeRequest (ofQuery 3) (withPayload 1 (actQuery 8 reportFaults)) s)

/-- QUERY_CHECK_RESULT (R88). -/
def execQueryCheckResult (s : State) : Host.Outcome State Fault Refusal :=
  .next (takeRequest (ofQuery 4) (withPayload 1 actQueryCheck) s)

/-- QUERY_LEARN_RESULT (R88). -/
def execQueryLearnResult (s : State) : Host.Outcome State Fault Refusal :=
  .next (takeRequest (ofQuery 5) (withPayload 1 (actQuery 0 (fun s _ => reportLearn s))) s)

/-- QUERY_SOUND (R88). -/
def execQuerySound (s : State) : Host.Outcome State Fault Refusal :=
  .next (takeRequest (ofQuery 6) (withPayload 1 (actQuery 0 (fun s _ => reportSound s))) s)

/-- QUERY_FUNCTIONS (R88). -/
def execQueryFunctions (s : State) : Host.Outcome State Fault Refusal :=
  .next (takeRequest (ofQuery 7) (withPayload 1 (actQuery 3 reportFunctions)) s)

/-- CHECK (R19). -/
def execCheck (s : State) : Host.Outcome State Fault Refusal := .next (takeRequest (ofKind 0x21) actCheck s)

/-- CLEAR_FAULTS (R177). -/
def execClearFaults (s : State) : Host.Outcome State Fault Refusal := .next (takeRequest (ofKind 0x22) actClearFaults s)

/-- PRESENCE (R87). -/
def execPresence (s : State) : Host.Outcome State Fault Refusal := .next (takeRequest (ofKind 0x23) actPresence s)

/-- LEARN (R164); a payload too short is refused before the sender is looked at (log 58). -/
def execLearn (s : State) : Host.Outcome State Fault Refusal := .next (takeRequest (ofKind 0x30) (withPayload 1 actLearn) s)

/-- OUTPUT_LOCAL (R104); a payload too short is refused before the sender is looked at (log 58). -/
def execOutputLocal (s : State) : Host.Outcome State Fault Refusal :=
  .next (takeRequest (ofKind 0x31) (withPayload 3 actOutputLocal) s)

/-- RESET (R90). -/
def execReset (s : State) : Host.Outcome State Fault Refusal := .next (takeRequest (ofKind 0x32) actReset s)

/-- The BEACON hold request of a CONSIST_HOLD payload (R89). -/
def consistHoldTaken (p : List Byte) (s : State) : State :=
  let value := halfAt p 1
  let flags := byteAt p 4
  if byteAt p 0 = 0 then
    installStop (if value = 0 then .instant else .rate (clampNat 10 4000 value))
      (if flags / 2 % 2 = 1 then none else some (byteAt p 3)) (flags % 2 == 1) .consist s
  else if byteAt p 0 = 1 then installCap (min 4000 value) (halfAt p 5 * 100) .consist s
  else s

/-- CONSIST_HOLD (R89): no source reference and no reply; a short payload is not dispatched (R86). -/
def execConsistHold (s : State) : Host.Outcome State Fault Refusal :=
  .next (match frontRequest (ofKind 0x40) s with
    | some (which, f, _) =>
      if f.payload.length < 7 then popIntake which s else consistHoldTaken f.payload (popIntake which s)
    | none => s)

/-- Count a CRC error of a port (R83, R96). -/
def PortState.crcFailed (p : PortState) : PortState :=
  { p with counters := { p.counters with crcErrors := bump16 p.counters.crcErrors } }

/-- Count a layout mismatch of a port (R83, R96). -/
def PortState.layoutFailed (p : PortState) : PortState :=
  { p with counters := { p.counters with layout := bump16 p.counters.layout } }

/-- A taken frame fails a check of R83 or R84 and is discarded. -/
def discardFrame (s : State) : State :=
  match nextTaken s with
  | some (which, f) =>
    let t := popIntake which s
    match screen s which f with
    | .crcError => setPort which (portState t which).crcFailed t
    | .layoutMismatch => setPort which (portState t which).layoutFailed t
    | .unmatched => t
    | .matched _ => s
  | none => s

/-- DISCARDED_FRAME (R83, R84). -/
def execDiscardedFrame (s : State) : Host.Outcome State Fault Refusal := .next (discardFrame s)

/-- UNKNOWN_KIND (R86). -/
def execUnknownKind (s : State) : Host.Outcome State Fault Refusal :=
  .next (takeRequest (fun f => !requestKinds.contains f.kind) (fun _ s => (.status .range 0, s)) s)

end Sys2Proof.Machine
end

