-- ==== Sys2Proof/Machine/Dispatch.lean ====
section
/-! DEFINITION. One arm for each command: the call of its meaning. -/

namespace Sys2Proof.Machine

/-- The effect of a command on everything but the queue. -/
def exec (i : Instr) (s : State) : Host.Outcome State Fault Refusal :=
  match i with
  | .powerOnReset => Sys2Proof.Machine.execPowerOnReset s
  | .softReset => Sys2Proof.Machine.execSoftReset s
  | .settingsLoadComplete ok vt vs => Sys2Proof.Machine.execSettingsLoadComplete ok vt vs s
  | .frameReceived p body q => Sys2Proof.Machine.execFrameReceived p body q s
  | .byteGapTimeout p => Sys2Proof.Machine.execByteGapTimeout p s
  | .claim => Sys2Proof.Machine.execClaim s
  | .release => Sys2Proof.Machine.execRelease s
  | .drive => Sys2Proof.Machine.execDrive s
  | .func => Sys2Proof.Machine.execFunc s
  | .stop => Sys2Proof.Machine.execStop s
  | .resume => Sys2Proof.Machine.execResume s
  | .consist => Sys2Proof.Machine.execConsist s
  | .cfgOpen => Sys2Proof.Machine.execCfgOpen s
  | .cfgData => Sys2Proof.Machine.execCfgData s
  | .cfgClose => Sys2Proof.Machine.execCfgClose s
  | .cfgTimeout => Sys2Proof.Machine.execCfgTimeout s
  | .save => Sys2Proof.Machine.execSave s
  | .saveEraseComplete ok => Sys2Proof.Machine.execSaveEraseComplete ok s
  | .saveWriteComplete ok => Sys2Proof.Machine.execSaveWriteComplete ok s
  | .bankWriteComplete ok => Sys2Proof.Machine.execBankWriteComplete ok s
  | .queryStatus => Sys2Proof.Machine.execQueryStatus s
  | .queryThrottles => Sys2Proof.Machine.execQueryThrottles s
  | .queryCounters => Sys2Proof.Machine.execQueryCounters s
  | .queryFaults => Sys2Proof.Machine.execQueryFaults s
  | .queryCheckResult => Sys2Proof.Machine.execQueryCheckResult s
  | .queryLearnResult => Sys2Proof.Machine.execQueryLearnResult s
  | .querySound => Sys2Proof.Machine.execQuerySound s
  | .queryFunctions => Sys2Proof.Machine.execQueryFunctions s
  | .check => Sys2Proof.Machine.execCheck s
  | .clearFaults => Sys2Proof.Machine.execClearFaults s
  | .presence => Sys2Proof.Machine.execPresence s
  | .learn => Sys2Proof.Machine.execLearn s
  | .outputLocal => Sys2Proof.Machine.execOutputLocal s
  | .reset => Sys2Proof.Machine.execReset s
  | .consistHold => Sys2Proof.Machine.execConsistHold s
  | .replySendStart p => Sys2Proof.Machine.execReplySendStart p s
  | .replySent p => Sys2Proof.Machine.execReplySent p s
  | .rateInterval => Sys2Proof.Machine.execRateInterval s
  | .silenceLimit n => Sys2Proof.Machine.execSilenceLimit n s
  | .forgetTime n => Sys2Proof.Machine.execForgetTime n s
  | .reservationExpiry n => Sys2Proof.Machine.execReservationExpiry n s
  | .controlPeriod c m => Sys2Proof.Machine.execControlPeriod c m s
  | .checkComplete c m => Sys2Proof.Machine.execCheckComplete c m s
  | .motorShort c => Sys2Proof.Machine.execMotorShort c s
  | .motorStall c m => Sys2Proof.Machine.execMotorStall c m s
  | .motorOpen c m => Sys2Proof.Machine.execMotorOpen c m s
  | .faultRetry => Sys2Proof.Machine.execFaultRetry s
  | .camInputChange l => Sys2Proof.Machine.execCamInputChange l s
  | .camChuff => Sys2Proof.Machine.execCamChuff s
  | .dwellExpiry => Sys2Proof.Machine.execDwellExpiry s
  | .capDistanceExpiry c m => Sys2Proof.Machine.execCapDistanceExpiry c m s
  | .budgetPeriod vt vs => Sys2Proof.Machine.execBudgetPeriod vt vs s
  | .rideLimit vt vs => Sys2Proof.Machine.execRideLimit vt vs s
  | .restore vt vs => Sys2Proof.Machine.execRestore vt vs s
  | .park vt vs => Sys2Proof.Machine.execPark vt vs s
  | .outputPeriod ma0 ma1 => Sys2Proof.Machine.execOutputPeriod ma0 ma1 s
  | .groupRetry g => Sys2Proof.Machine.execGroupRetry g s
  | .momentaryExpiry n => Sys2Proof.Machine.execMomentaryExpiry n s
  | .sampleEvent => Sys2Proof.Machine.execSampleEvent s
  | .volumeStep => Sys2Proof.Machine.execVolumeStep s
  | .envelopeStep v => Sys2Proof.Machine.execEnvelopeStep v s
  | .voiceReadComplete ok => Sys2Proof.Machine.execVoiceReadComplete ok s
  | .directoryReadComplete ok => Sys2Proof.Machine.execDirectoryReadComplete ok s
  | .flashRequestStart => Sys2Proof.Machine.execFlashRequestStart s
  | .smokePeriod t => Sys2Proof.Machine.execSmokePeriod t s
  | .puffEnd => Sys2Proof.Machine.execPuffEnd s
  | .fanStop => Sys2Proof.Machine.execFanStop s
  | .burstBegin line => Sys2Proof.Machine.execBurstBegin line s
  | .burstEnd line => Sys2Proof.Machine.execBurstEnd line s
  | .captureQuiet line => Sys2Proof.Machine.execCaptureQuiet line s
  | .learnExpiry => Sys2Proof.Machine.execLearnExpiry s
  | .byteArrival p b => Sys2Proof.Machine.execByteArrival p b s
  | .discardedFrame => Sys2Proof.Machine.execDiscardedFrame s
  | .unknownKind => Sys2Proof.Machine.execUnknownKind s
  | .runFinished line => Sys2Proof.Machine.execRunFinished line s

end Sys2Proof.Machine
end

