-- ==== Sys2Proof/Safety.lean ====
section
/-! DEFINITION. What the claims about the model speak of: when a request has reached its owner, what each
block's commands leave alone, and the invariants that every step keeps. -/

namespace Sys2Proof.Machine

/-! ### A request that has reached dispatch (R82 to R86) -/

/-- The front frame of the intake queues is a request `f` with mark `m`; it comes from `src`, and its owner
decides it in state `t`: after it has left its queue and, on the radio port, passed the Throttle Table. -/
def Dispatched (s : State) (f : Frame) (m : Mark) (src : Source) (t : State) : Prop :=
  ∃ which, nextTaken s = some (which, f) ∧ screen s which f = .matched m ∧
    match which with
    | .localLine => src = .localMaster ∧ t = popIntake .localLine s
    | .radio => m ≠ .allCall ∧ ∃ i, src = .throttle i ∧ present f (popIntake .radio s) = (.taken i, t)

/-- The port a source sends on. -/
def sourcePort : Source → Port
  | .throttle _ => .radio
  | .localMaster => .localLine

/-- The reply a decided request draws, if it draws one: `s` is the state in which it was matched, `r` what
its owner answered (R91, R92; log 64). -/
def replied (s : State) (f : Frame) (m : Mark) (src : Source) (r : Answer × State) : State :=
  replyIf (drawsReply s m) (sourcePort src) f
    (match src with
      | .throttle i => entryPath r.2 i
      | .localMaster => 0) (some src) r

/-- The command whose row takes a request (Table 5-3, Table 5-6); a QUERY of no what code or of one outside Table 5-6 goes
to QUERY_STATUS, and a kind outside Table 5-3 to UNKNOWN_KIND (log 29). -/
def requestRow (f : Frame) : Instr :=
  match f.kind with
  | 0x01 => .claim
  | 0x02 => .release
  | 0x03 => .drive
  | 0x04 => .func
  | 0x05 => .stop
  | 0x06 => .resume
  | 0x07 => .consist
  | 0x10 => .cfgOpen
  | 0x11 => .cfgData
  | 0x12 => .cfgClose
  | 0x13 => .save
  | 0x20 =>
    match f.payload.map (·.toNat) with
    | 1 :: _ => .queryThrottles
    | 2 :: _ => .queryCounters
    | 3 :: _ => .queryFaults
    | 4 :: _ => .queryCheckResult
    | 5 :: _ => .queryLearnResult
    | 6 :: _ => .querySound
    | 7 :: _ => .queryFunctions
    | _ => .queryStatus
  | 0x21 => .check
  | 0x22 => .clearFaults
  | 0x23 => .presence
  | 0x30 => .learn
  | 0x31 => .outputLocal
  | 0x32 => .reset
  | 0x40 => .consistHold
  | _ => .unknownKind

/-- The Flash Port has a request: it waits, or its operation is in progress. -/
def AsksFlash (r : FlashRequest) (s : State) : Prop := r ∈ s.port.waiting ∨ s.port.busy = some (r, false)

/-! ### The blocks -/

/-- Everything but the two ports' state and the reply queue is the same. -/
def sameButReplies (s t : State) : Prop :=
  t = { s with radio := t.radio, localLine := t.localLine, replies := t.replies }

/-- Everything but the Sound Engine, the Flash Port, the voice buffer RAM, the Fault List and the free-value
counter is the same. -/
def sameButSound (s t : State) : Prop :=
  t = { s with sound := t.sound, port := t.port, voiceRam := t.voiceRam, faults := t.faults, freeCount := t.freeCount }

/-- Everything but the Beacon Receiver is the same. -/
def sameButBeacon (s t : State) : Prop := t = { s with beacon := t.beacon }

/-- Everything but the Smoke Controller, the Fault List and the free-value counter is the same. -/
def sameButSmoke (s t : State) : Prop := t = { s with smoke := t.smoke, faults := t.faults, freeCount := t.freeCount }

/-- Everything but the locomotive's own blocks (Motor Loop, Motion Controller, Function Table, Sound Engine,
Smoke Controller, Supply Supervisor, Fault List), the Flash Port and the free-value counter is the same. -/
def sameButLoco (s t : State) : Prop :=
  t = { s with
    sound := t.sound, port := t.port, smoke := t.smoke, supply := t.supply, demand := t.demand, holds := t.holds,
    motor := t.motor, pub := t.pub, switches := t.switches, faults := t.faults, freeCount := t.freeCount }

/-! ### A control period that drives -/

/-- A control period computes stages 3 to 6 and runs its detectors (R11, section 1.7). -/
def Drives (s : State) : Prop :=
  s.phase = .running ∧ s.supply.state ≠ .dark ∧ s.motor.state ≠ .check ∧ s.motor.checkAccepted = false ∧
    s.motor.state ≠ .fault

/-- The acceleration rate of stage 3, absent while MOMENTUM_OFF is active (R6). -/
def accelInUse (s : State) : Option Nat := if asked s featMomentumOff then none else some (set16 s 56)

/-- The Motor Loop's values after stages 0 and 3 to 6 of a period that drives (R3, R6 to R10), before the
detectors look at them. -/
def drivenMotor (c m : Nat) (s : State) : Motor :=
  speedLoop (loopSettings s) (sEff s) (moveReference (sEff s) (accelInUse s) (decelInEffect s) (measure c m s).motor)

/-- What every control period measures and publishes (R3, R9, R22, R24): current, filtered speed, cap, odometer and
chuff accumulator, and the period's values as one set, with the motor state `st` that stands at stage 7: R13
classifies the motor only afterwards. -/
def MeasuredAndPublished (st : MotorState) (c b : Nat) (s t : State) : Prop :=
  let m := t.motor
  let acc := s.motor.chuffAcc + m.Mf
  m.C = c ∧
    (m.Mf : Int) = (s.motor.Mf : Int) + Int.tdiv ((b : Int) - (s.motor.Mf : Int)) 4 ∧
    m.cap = (if set16 s 66 < c then max 64 (s.motor.cap - 32) else min 1023 (s.motor.cap + 8)) ∧
    m.odometer = s.motor.odometer + BitVec.ofNat 32 m.Mf ∧
    m.chuffAcc = (if set8 s 71 = 1 then 0 else if set16 s 69 ≤ acc then min (acc - set16 s 69) (set16 s 69 - 1) else acc) ∧
    t.pub = { R := m.R, Mf := m.Mf, Da := m.Da, C := m.C, L := m.labour, phase := m.phase, motorState := st,
              odometer := m.odometer }

/-- The Sound Engine's part in a change of the active features from `old` to `s` (R37, R102, R116, R117; log 17): the
triggers of the cues no longer asked end, those of the cues newly asked begin, and a brake newly asked is its motion
event. -/
def cuesHeard (old s : State) : State :=
  let gone := (List.range 32).filter (fun c => asked old (9 + c) && !asked s (9 + c))
  let come := (List.range 32).filter (fun c => !asked old (9 + c) && asked s (9 + c))
  let a := come.foldl (fun u c => startRequest c true u) (gone.foldl (fun u c => triggerEnd c u) s)
  if asked old 42 = false ∧ asked s 42 = true then
    momentaryStart (namedCue (set8 s 456)) { a with demand := { a.demand with step := 0 } }
  else a

/-- What the Sound Engine takes once a control period from `s` has published the values of `t`: after the turning
and the ending of holds, the distance chuff (R22, R118), then the departure or the stop (R117); log 12. -/
def SoundFollowsPublishing (s t : State) : Prop :=
  let p : State := { s with motor := { t.motor with state := t.pub.motorState }, pub := t.pub }
  let u := expireCap (beginDwell (completeReversal p))
  let v := if set8 s 71 ≠ 1 ∧ set16 s 69 ≤ s.motor.chuffAcc + t.pub.Mf then momentaryStart (exhaustCue s) u else u
  let w :=
    if s.pub.phase = .stopped ∧ t.pub.phase = .accelerating then momentaryStart (namedCue (set8 s 453)) v
    else if s.pub.phase ≠ .stopped ∧ t.pub.phase = .stopped then momentaryStart (namedCue (set8 s 454)) v
    else v
  t.sound = w.sound ∧ t.port = w.port

/-- A BEACON STOP that enters DWELL when a control period publishes R = 0 (R39). -/
def EntersDwell (h : Hold) (t : State) : Prop := h.kind = .stop ∧ h.phase = some .approach ∧ t.pub.R = 0

/-- A BEACON STOP whose dwell of 0 s is over as it begins, and which then reverses (R39). -/
def ReversesAtOnce (s t : State) : Prop :=
  ∃ h, findHold s .beacon = some h ∧ EntersDwell h t ∧ h.dwell = some 0 ∧ h.reverseAtEnd = true

/-- What follows when a control period from `s` has published the values of `t`: a pending reversal completes at a
published standstill and nothing else turns the locomotive (R27, R28), the BEACON entry enters DWELL, ends or expires
(R34, R39, R40) while the other holds stand, a distance chuff in READY is a puff (R22, R142), and the Sound Engine takes
the chuff and the motion events. -/
def FollowsPublishing (s t : State) : Prop :=
  let stands : Prop := t.pub.R = 0 ∧ t.pub.Mf < 20
  let chuffs : Prop := set8 s 71 ≠ 1 ∧ set16 s 69 ≤ s.motor.chuffAcc + t.pub.Mf
  (¬ ReversesAtOnce s t →
    (s.demand.pending = true → stands → t.demand = { s.demand with
      applied := wantedDir s
      pending := false
      step := if asked s featBrake = false ∧ asked t featBrake = true then 0 else s.demand.step }) ∧
    (s.demand.pending = false ∨ ¬ stands → t.demand = s.demand ∧ (¬ chuffs → t.smoke = s.smoke))) ∧
  (ReversesAtOnce s t → t.demand.commanded = s.demand.commanded.flip ∧ t.demand.lastWriter = some .beacon ∧
    (t.demand.pending = true ↔ wantedDir t ≠ t.demand.applied) ∧ (stands → t.demand.pending = false)) ∧
  (t.demand.applied ≠ s.demand.applied → stands) ∧
  t.holds.filter (fun h => h.source != .beacon) = s.holds.filter (fun h => h.source != .beacon) ∧
  (findHold s .beacon = none → findHold t .beacon = none) ∧
  (∀ h, findHold s .beacon = some h →
    (EntersDwell h t → h.dwell = some 0 → findHold t .beacon = none) ∧
    (EntersDwell h t → h.dwell ≠ some 0 → findHold t .beacon = some { h with
      phase := some .dwell
      expiry := match h.dwell with
        | none => .absent
        | some d => .atTime (s.partTime + BitVec.ofNat 32 (d * 1000)) }) ∧
    (¬ EntersDwell h t → ∀ o, h.expiry = .atOdometer o → (t.pub.odometer - o).toNat < 2147483648 →
      findHold t .beacon = none) ∧
    (¬ EntersDwell h t → (∀ o, h.expiry = .atOdometer o → ¬ (t.pub.odometer - o).toNat < 2147483648) →
      findHold t .beacon = some h)) ∧
  (chuffs → t.smoke.state = .ready → t.smoke.fan = .puff ∧ t.smoke.fanLevel = set8 s 229 ∧
    t.smoke.puffEnd = some (s.partTime + BitVec.ofNat 32 (set8 s 231 * (100 + (clamp 0 100 t.pub.L).toNat) / 100))) ∧
  SoundFollowsPublishing s t

/-! ### A cue on a voice -/

/-- The directory copy holds the clip that cue c names for a phase (R114). -/
def HasClip (s : State) (c : Nat) (ph : CuePhase) (cl : Clip) : Prop :=
  cueByte s c ph.offset ≠ 255 ∧ s.sound.directory.find? (fun d => d.id == cueByte s c ph.offset) = some cl

/-- The first phase of cue c, from a phase on, whose clip is present (R115). -/
def FirstPresent (s : State) (c : Nat) (from_ ph : CuePhase) (cl : Clip) : Prop :=
  HasClip s c ph cl ∧ (ph = from_ ∨ ph ∈ from_.after) ∧
    ∀ q, q = from_ ∨ q ∈ from_.after → ph ∈ q.after → ∀ d, ¬ HasClip s c q d

/-- The clip a start request for the exhaust cue chooses, and the rotation indices after it (R118): the variant by
labour and motion phase, else NORMAL, else the attack clip. -/
def ExhaustChoice (s : State) (c : Nat) (cl : Clip) (rot : List Byte) : Prop :=
  let wanted := if signed16 (set16 s 449) ≤ s.pub.L then 3
    else if s.pub.L ≤ signed16 (set16 s 451) ∨ s.pub.phase = .decelerating then 1 else 2
  let group := fun (k : Nat) => s.sound.directory.filter (fun d => d.variant == k)
  let turn := fun (k : Nat) =>
    ((group k)[(s.sound.rotation.getD (k - 1) 0).toNat % (group k).length]? = some cl ∧
      rot = s.sound.rotation.set (k - 1) (s.sound.rotation.getD (k - 1) 0 + 1) : Prop)
  (group wanted ≠ [] ∧ turn wanted) ∨ (group wanted = [] ∧ group 2 ≠ [] ∧ turn 2) ∨
    (group wanted = [] ∧ group 2 = [] ∧ HasClip s c .attack cl ∧ rot = s.sound.rotation)

/-- The samples of a clip a voice plays, and the loop point among them (R115, R121). -/
def SoundsIn (p : Partition) (cl : Clip) (len lp : Nat) : Prop :=
  len = (if p.dbl then cl.len else min cl.len (p.size * 64)) ∧
    lp = (match cl.loop with | some (_, b) => min b len | none => len)

/-- Voice `v`, whose record but for its buffer is `vo`, goes to PRIME for a phase of a clip at a position, from `s` to
`t` (R121): a single buffer that holds the clip plays at once, one that does not asks for the clip's first samples, and a
double one asks for the run that begins at the position. -/
def GoesToPrime (v : Nat) (vo : Voice) (ph : CuePhase) (cl : Clip) (pos : Nat) (s t : State) : Prop :=
  let x : Voice := { vo with
    clip := some cl, pos := pos, wait := .none, playing := false, half0 := .empty, half1 := .empty, nextRun := none }
  ∀ p len lp, vo.part = some p → SoundsIn p cl len lp →
    (p.dbl = false → vo.resident = some (cl.id, p) → voiceOutstanding v t = false ∧
      t.sound.voices[v]? = some { x with state := ph.voiceState, nextPhase := none }) ∧
    (p.dbl = false → vo.resident ≠ some (cl.id, p) →
      t.sound.voices[v]? = some { x with state := .prime, nextPhase := some ph } ∧
      AsksFlash { who := .voice v, op := .read cl.addr (2 * len), entered := s.partTime } t) ∧
    (p.dbl = true →
      (let run := min (p.size / 2 * 64) ((if ph = .loop ∧ pos < lp then lp else len) - pos)
       ∃ next, t.sound.voices[v]? = some { x with
         state := .prime, nextPhase := some ph, resident := none, half0 := .filling { start := pos, len := run }
         nextRun := next } ∧
       AsksFlash { who := .voice v, op := .read (cl.addr + 2 * pos) (2 * run), entered := s.partTime } t))

/-- Everything but one voice's record and the Flash Port is the same. -/
def sameButVoice (v : Nat) (s t : State) : Prop :=
  t = { s with sound := { s.sound with voices := t.sound.voices }, port := t.port } ∧
    ∀ w, w ≠ v → t.sound.voices[w]? = s.sound.voices[w]?

/-- A voice becomes IDLE: its partition is free, its resident clip and its underrun count stay (R120, R126, R131). -/
def BecomesIdle (v : Nat) (vo : Voice) (s t : State) : Prop :=
  sameButVoice v s t ∧ voiceOutstanding v t = false ∧
    t.sound.voices[v]? = some { resetVoice with resident := vo.resident, underruns := vo.underruns }

/-! ### Invariants -/

/-- The two byte memories have their canonical form. -/
def MemoriesCanonical (s : State) : Prop := Mem.wf flashBlank s.flash = true ∧ Mem.wf ramBlank s.voiceRam = true

/-- The DRIVE claim has a shape of R57, its generation lies in 1..65535 (R66), and every holder item that
names a throttle names an entry present in the Throttle Table of sixteen entries (R43, R57). -/
structure ClaimsSound (s : State) : Prop where
  shape : (s.drive.mode = .free ∧ s.drive.holders = []) ∨ (s.drive.mode = .exclusive ∧ s.drive.holders.length = 1)
    ∨ (s.drive.mode = .shared ∧ 1 ≤ s.drive.holders.length ∧ s.drive.holders.length ≤ 3)
  distinct : (s.drive.holders.map (·.source)).Nodup
  generation : 1 ≤ s.drive.generation ∧ s.drive.generation ≤ 65535
  present : ∀ i, namedByClaim s i = true → (entry s i).isSome = true
  table : s.throttles.length = 16
  groups : s.groups.length = 4

/-- The live settings are 776 bytes (R167), and what may be laid over them fits: an open SETTINGS write lies
inside them with as many staged places as its count (R169, R170), and a learn names a slot 0 to 7 (R164). -/
structure SettingsSound (s : State) : Prop where
  length : s.settings.length = 776
  staged : s.txn.state = .openWrite → s.txn.staged.length = s.txn.count
  inside : s.txn.state = .openWrite → s.txn.target = .settings → s.txn.start + s.txn.count ≤ 776
  slot : s.beacon.learn.slot ≤ 7

/-- The receiver of a port holds a partial frame of a legal length (R79). -/
def ReceiverSound (r : Receiver) : Prop :=
  (r.state = .body → 12 ≤ r.len ∧ r.len ≤ 36 ∧ r.body.length < r.len) ∧
    (r.state = .quality → 12 ≤ r.len ∧ r.len ≤ 36 ∧ r.body.length = r.len)

/-- The queues keep their capacities (R81, R93), and every frame that waits has a body of 12 to 36 bytes
(R79); the local port's receiver awaits no quality byte. -/
structure QueuesSound (s : State) : Prop where
  radio : s.radio.intake.length ≤ 8
  localLine : s.localLine.intake.length ≤ 4
  replies : s.replies.length ≤ 4
  radioFrames : ∀ f ∈ s.radio.intake, 12 ≤ f.body.length ∧ f.body.length ≤ 36
  localFrames : ∀ f ∈ s.localLine.intake, 12 ≤ f.body.length ∧ f.body.length ≤ 36
  radioRx : ReceiverSound s.radio.rx
  localRx : ReceiverSound s.localLine.rx
  localQuality : s.localLine.rx.state ≠ .quality

/-- The hold list holds at most one entry of a source (R29, R30). -/
def HoldsDistinct (s : State) : Prop := (s.holds.map (·.source)).Nodup

/-- The position is MID or TRAIL. -/
abbrev IsMember (s : State) : Prop := consistPosition s = .mid ∨ consistPosition s = .trail

/-- The Motion Controller: at most one hold of a source (R29); a BEACON hold of origin OWN never stands at a MID or
TRAIL, nor one of origin CONSIST elsewhere (R41); a reversal is pending just while the wanted and the applied
direction differ (R25, R27, R28); and before the start-up has ended neither is there. -/
structure MotionSound (s : State) : Prop where
  distinct : HoldsDistinct s
  own : ∀ h ∈ s.holds, h.source = .beacon → h.origin = some .own → ¬ IsMember s
  consist : ∀ h ∈ s.holds, h.source = .beacon → h.origin = some .consist → IsMember s
  direction : s.demand.pending = true ↔ wantedDir s ≠ s.demand.applied
  loading : s.phase = .loading → s.demand.pending = false ∧ ∀ h ∈ s.holds, h.source ≠ .beacon

/-- The requests of the Flash Port whose result still counts: those that wait, and the one in progress unless a reset or
a withdrawal has discarded it (R175). -/
def liveRequests (s : State) : List FlashRequest :=
  s.port.waiting ++ (match s.port.busy with
    | some (r, false) => [r]
    | _ => [])

/-- The Flash Port's set (R167, R174, R175, R178): the start-up read is never one that waits, and is in progress only
during the start-up load, when neither the Store nor the directory asks and the directory is still to be read. The
Store has at most one request, a page write in a BANK job and its other two in a SAVE; no BANK job stands beside an
open BANK transaction. -/
structure PortSound (s : State) : Prop where
  waiting : ∀ r ∈ s.port.waiting, r.who ≠ .startUp
  startUp : ∀ r ∈ liveRequests s, r.who = .startUp → s.phase = .loading
  loading : s.phase = .loading → s.sound.dirPending = true ∧ ∀ r ∈ liveRequests s, r.who ≠ .directory ∧ r.who ≠ .store
  single : ((liveRequests s).filter (fun r => r.who == .store)).length ≤ 1
  store : ∀ r ∈ liveRequests s, r.who = .store → s.job = match r.op with
    | .writePage _ _ => .bank
    | _ => .save
  bank : s.txn.state ≠ .closed → s.txn.target = .bank → s.job = .none ∨ s.job = .save

/-- The six voices: one that is IDLE has freed its partition, and the partitions in use of the others do not
overlap (R120). The engine is QUIET just while a cause of R130 holds. -/
structure VoicesSound (s : State) : Prop where
  six : s.sound.voices.length = 6
  idle : ∀ vo ∈ s.sound.voices, vo.state = .idle → vo.part = none
  disjoint : ∀ (v w : Nat) (a b : Voice) (p q : Partition), v ≠ w → s.sound.voices[v]? = some a →
    s.sound.voices[w]? = some b → a.state ≠ .idle → b.state ≠ .idle → a.part = some p → b.part = some q →
    p.start + p.size ≤ q.start ∨ q.start + q.size ≤ p.start
  mode : s.sound.mode = .quiet ↔ s.supply.state = .parked ∨ s.supply.state = .dark ∨
    (s.txn.state ≠ .closed ∧ s.txn.target = .bank) ∨ s.job ≠ .none ∨ s.sound.dirPending = true

/-- The Smoke Controller: the heater duty is 0 outside TRACK and in OFF, SHED and FAULT, and never exceeds the heater
duty cap (R138); a puff end is there just in PUFF, and PUFF only in READY (Table 8-1, R142, R143). -/
structure SmokeSound (s : State) : Prop where
  track : s.supply.state ≠ .track → s.smoke.duty = 0 ∧ s.smoke.state ≠ .heating ∧ s.smoke.state ≠ .ready
  cold : s.smoke.state ≠ .heating → s.smoke.state ≠ .ready → s.smoke.demand = 0 ∧ s.smoke.duty = 0
  cap : s.smoke.duty ≤ s.supply.grants.heaterCap
  puff : s.smoke.puffEnd.isSome = true ↔ s.smoke.fan = .puff
  ready : s.smoke.fan = .puff → s.smoke.state = .ready

/-- The Motor Loop: the current cap lies in 64..1023 and the applied duty never exceeds it (R9, R11); a fault
record is present just in FAULT, where the bridge is off, and a check progress just in CHECK (Table 1-1, R20); a check is
accepted only in STOPPED, where one that a short has ended leaves the bridge off too (R19, R20);
in DARK the reference, the duty and the integral are 0 (R11). -/
structure MotorSound (s : State) : Prop where
  cap : 64 ≤ s.motor.cap ∧ s.motor.cap ≤ 1023
  duty : s.motor.Da ≤ s.motor.cap
  fault : s.motor.state = .fault ↔ s.motor.fault.isSome = true
  check : s.motor.state = .check ↔ s.motor.checkProgress.isSome = true
  accepted : s.motor.checkAccepted = true → s.motor.state = .stopped
  shorted : s.motor.checkShorted = true → s.motor.state = .stopped ∧ s.motor.checkAccepted = false ∧ s.motor.Da = 0
  off : s.motor.state = .fault → s.motor.Da = 0
  dark : s.supply.state = .dark → s.motor.R = 0 ∧ s.motor.Da = 0 ∧ s.motor.I = 0

/-- The reference lies in 0..4000 (R7). -/
def ReferenceInRange (s : State) : Prop := s.motor.R ≤ 4000

end Sys2Proof.Machine
end

