-- ==== Sys2Proof/Certificates/Slice0/Obligations.lean ====
section
/-! DEFINITION. The statements for the provers: the machine and its invariants, then chapter by chapter what
each command does, what it leaves alone, and when it is refused. -/

open Sys2Proof Sys2Proof.Machine

/-! ### The machine -/

/-- A step takes the command at the front of the queue and runs it with the queue's rest. On an empty queue one
millisecond passes and nothing else: part time moves on, a receiver inside a frame measures it, and after the start-up
the cam's stable time. That the millisecond is what an empty queue gives is the model's choice (log 1). -/
def Obligations.StepRunsTheFrontCommand : Prop :=
  (∀ (c : Instr) (rest : List Instr) (s : State),
    step { s with pending := c :: rest } = exec c { s with pending := rest }) ∧
  (∀ s : State, s.pending = [] →
    (let gap := fun (p : PortState) =>
       { p with rx := { p.rx with gap := if p.rx.state = .hunt then p.rx.gap else p.rx.gap + 1 } }
     step s = .next { s with
       partTime := s.partTime + 1, radio := gap s.radio, localLine := gap s.localLine
       motor := { s.motor with
         camStable := if s.phase = .running then s.motor.camStable + 1 else s.motor.camStable } }))

/-- Every command answers a next state, and no command touches the queue of those that wait. That an ill-formed or
undue command answers the state itself is the model's choice (logs 2, 38, 41). -/
def Obligations.EveryCommandAnswersNext : Prop :=
  ∀ (c : Instr) (s : State), ∃ t, exec c s = .next t ∧ t.pending = s.pending

/-- The state after reset meets every invariant stated below. The values the manual does not give are the model's
choice (logs 8, 9, 49, 55, 56). -/
def Obligations.ResetMeetsTheInvariants : Prop :=
  ClaimsSound State.reset ∧ MemoriesCanonical State.reset ∧ SettingsSound State.reset ∧ QueuesSound State.reset ∧
    MotionSound State.reset ∧ MotorSound State.reset ∧ VoicesSound State.reset ∧ SmokeSound State.reset ∧
    ReferenceInRange State.reset ∧ PortSound State.reset

/-- R43, R57, R58, R66: the claim records keep a legal shape, and every item that names a throttle names an
entry present in the Throttle Table. -/
def Obligations.StepKeepsClaimsSound : Prop := ∀ s t : State, ClaimsSound s → step s = .next t → ClaimsSound t

/-- Serial flash and voice buffer RAM keep their canonical form. R167, R169, R170: the live settings stay 776 bytes, and
a staged buffer stays as long as its count. -/
def Obligations.StepKeepsMemoriesAndSettings : Prop :=
  (∀ s t : State, MemoriesCanonical s → step s = .next t → MemoriesCanonical t) ∧
    (∀ s t : State, SettingsSound s → step s = .next t → SettingsSound t)

/-- R79, R81, R93: the queues keep their capacities, and every frame that waits has a legal length. -/
def Obligations.StepKeepsQueuesSound : Prop := ∀ s t : State, QueuesSound s → step s = .next t → QueuesSound t

/-- R29, R30, R41, R25, R27, R28: the hold list never holds two entries of one source; no BEACON hold of origin OWN
stands at a MID or TRAIL, and none of origin CONSIST elsewhere; a reversal is pending just while the wanted and the
applied direction differ. It is stated of states whose Flash Port is sound, as every step keeps it: a start-up read is
there only during the start-up load (R178). -/
def Obligations.StepKeepsMotionSound : Prop :=
  ∀ s t : State, MotionSound s → SettingsSound s → PortSound s → step s = .next t → MotionSound t

/-- Table 1-1, R9, R11, R14 to R21: the cap stays within 64..1023 and the duty never exceeds it; a motor fault
record is present just in FAULT, where the bridge is off, and a check progress just in CHECK; a check is accepted only in
STOPPED, and one ended by a short leaves the bridge off until the period ends; in DARK the
reference, the duty and the integral are 0. -/
def Obligations.StepKeepsMotorSound : Prop := ∀ s t : State, MotorSound s → step s = .next t → MotorSound t

/-- R120: the partitions in use of voices that are not IDLE never overlap, and an IDLE voice has freed its own. R130: the
engine is QUIET just while one of its causes holds. R167, R173 to R175, R178: a start-up read is in the Flash Port only
during the start-up load, when neither the Store nor the directory asks; the Store has at most one request, a page write
in a BANK job and its other two in a SAVE, and no BANK job stands beside an open BANK transaction. -/
def Obligations.StepKeepsVoicesSound : Prop :=
  (∀ s t : State, PortSound s → step s = .next t → PortSound t) ∧
    (∀ s t : State, VoicesSound s → PortSound s → step s = .next t → VoicesSound t)

/-- R138, the law of the heater, over every step: its duty is 0 outside TRACK and in OFF, SHED and FAULT, and never
exceeds the heater duty cap. R142, R143: a puff runs only in READY, and just while it has an end. -/
def Obligations.StepKeepsSmokeSound : Prop := ∀ s t : State, SmokeSound s → step s = .next t → SmokeSound t

/-- R7, the law of the reference, over every step: R does not rise while the hold list holds a STOP entry,
nor while it is at or above a CAP value in the list, and it never exceeds 4000. -/
def Obligations.ReferenceObeysTheHolds : Prop :=
  ∀ s t : State, step s = .next t →
    (stopHeld s = true → t.motor.R ≤ s.motor.R) ∧
    (∀ v ∈ capValues s, v ≤ s.motor.R → t.motor.R ≤ s.motor.R) ∧
    (ReferenceInRange s → ReferenceInRange t)

/-! ### Chapter 1: the Motor Loop -/

/-- R4 to R7: the speed of a step is that of its segment, product first, truncating, and lies between the segment's two
points; step 250 takes the last point, and a trimmed speed never exceeds 4000 su. One stage 3 from any accumulators: a
ramp moves R by the hundredths accumulated, keeps the remainder unless R arrives, and clears the accumulator not in
use; an instant move arrives at once. -/
def Obligations.SpeedTableAndRamps : Prop :=
  (
    ∀ (s : State) (t : Nat), t ≤ 250 →
      (t = 250 → stepSpeed s t = speedPoint s 10) ∧
      (∀ k, k < 10 → 25 * k ≤ t → t < 25 * (k + 1) →
        (stepSpeed s t : Int) = (speedPoint s k : Int)
          + Int.tdiv (((speedPoint s (k + 1) : Int) - (speedPoint s k : Int)) * ((t : Int) - 25 * (k : Int))) 25 ∧
        min (speedPoint s k) (speedPoint s (k + 1)) ≤ stepSpeed s t ∧
          stepSpeed s t ≤ max (speedPoint s k) (speedPoint s (k + 1))) ∧
      trimmedSpeed s t = min 4000 (stepSpeed s t * (if s.demand.applied = .fwd then set8 s 54 else set8 s 55) / 128)) ∧
  (
    ∀ (m : Motor) (target : Nat),
      (m.R < target → ∀ a d, moveReference target (some a) d m =
        { m with
          R := min (m.R + (m.rising + a) / 100) target
          rising := if m.R + (m.rising + a) / 100 < target then (m.rising + a) % 100 else 0
          falling := 0 }) ∧
      (target < m.R → ∀ a r, moveReference target a (.rate r) m =
        { m with
          R := max (m.R - (m.falling + r) / 100) target
          rising := 0
          falling := if target + (m.falling + r) / 100 < m.R then (m.falling + r) % 100 else 0 }) ∧
      (m.R < target → ∀ d, moveReference target none d m = { m with R := target, rising := 0, falling := 0 }) ∧
      (target < m.R → ∀ a, moveReference target a .instant m = { m with R := target, rising := 0, falling := 0 }) ∧
      (m.R = target → ∀ a d, moveReference target a d m = { m with rising := 0, falling := 0 }))

/-- R35, R36, R101, R102: a feature is asked while some switch that is on names it in one of its two bytes with a
qualifier the applied direction satisfies, or carries a momentary expiry. The effective target is 0 under a STOP hold,
a pending reversal or the brake, and else the trimmed speed of the step, halved in the yard, under every cap. The
deceleration in effect is the largest rate asked, D where none is, and INSTANT with the momentum off. -/
def Obligations.TargetAndDecelerationFollowTheDemand : Prop :=
  ∀ s : State,
    (∀ code, asked s code = true ↔ ∃ i, i < 32 ∧ ∃ sw, s.switches[i]? = some sw ∧ sw.on = true ∧
      ∃ b ∈ [set8 s (96 + 2 * i), set8 s (97 + 2 * i)], b % 64 = code ∧
        (sw.expiry ≠ none ∨ ((b / 64 = 1 → s.demand.applied = .fwd) ∧ (b / 64 = 2 → s.demand.applied = .rev)))) ∧
    (let stops : Prop := ∃ h ∈ s.holds, h.kind = .stop
     let brake : Prop := asked s 42 = true
     let speed := if s.demand.step = 0 then 0 else trimmedSpeed s s.demand.step
     let yard := if asked s 43 = true then speed / 2 else speed
     let b := set16 s 60
     let d := set16 s 58
     let momentum : Prop := asked s 44 = false
     (stops ∨ s.demand.pending = true ∨ brake → sEff s = 0) ∧
     (¬ stops → s.demand.pending = false → ¬ brake → sEff s ≤ yard ∧
       (∀ h ∈ s.holds, h.kind = .cap → sEff s ≤ h.capValue) ∧
       (sEff s = yard ∨ ∃ h ∈ s.holds, h.kind = .cap ∧ sEff s = h.capValue)) ∧
     (¬ momentum → decelInEffect s = .instant) ∧
     (momentum → (∃ h ∈ s.holds, h.kind = .stop ∧ h.decel = .instant) → decelInEffect s = .instant) ∧
     (momentum → ¬ stops → ¬ brake → decelInEffect s = .rate d) ∧
     (momentum → stops ∨ brake → (∀ h ∈ s.holds, h.kind = .stop → h.decel ≠ .instant) →
       ∃ r, decelInEffect s = .rate r ∧ (brake → b ≤ r) ∧
         (∀ h ∈ s.holds, h.kind = .stop → (h.decel = .normal → d ≤ r) ∧ (∀ x, h.decel = .rate x → x ≤ r)) ∧
         ((brake ∧ r = b) ∨ ∃ h ∈ s.holds, h.kind = .stop ∧ (h.decel = .rate r ∨ (h.decel = .normal ∧ r = d)))))

/-- R3, R6 to R10, R13, R15, R16, R22, R24: a control period that drives and detects no fault. Every value is computed
from this period's current and back-EMF as the rules give it and published as one set, with the motor state as it stands
before R13, and what follows from it follows (R27, R28, R34, R39, R142), the distance chuff and the motion events to the
Sound Engine among it (R117, R118). R13 classifies the motor, but where a check has ended in this very period by a short
(R20). The order of what follows, and that its chuff sees this set, are the model's choice (logs 12, 17, 42,
47). -/
def Obligations.ControlPeriodDrives : Prop :=
  ∀ (s : State) (c b : Nat), Drives s → c ≤ 8190 → b ≤ 4095 → s.motor.openCount + 1 < 100 →
    s.motor.stallCount + 1 < set8 s 68 * 10 →
    ∃ t, exec (.controlPeriod c b) s = .next t ∧ MeasuredAndPublished s.motor.state c b s t ∧ FollowsPublishing s t ∧
      (let m := t.motor
       let r := moveReference (sEff s) (accelInUse s) (decelInEffect s) s.motor
       let e : Int := (m.R : Int) - (m.Mf : Int)
       let ff := m.R * set16 s 62 / 4096
       let i' := clamp (-261888) 261888 (s.motor.I + e * set8 s 65)
       let draw := (ff : Int) + Int.tdiv (e * set8 s 64) 256 + Int.tdiv i' 256
       let dc := (clamp 0 1023 draw).toNat
       let rests : Prop := m.R = 0 ∧ sEff s = 0
       m.R = r.R ∧ m.rising = r.rising ∧ m.falling = r.falling ∧
       (rests → m.Da = 0 ∧ m.I = 0) ∧
       (¬ rests → m.Da = min dc m.cap ∧
         ((1023 < draw ∧ 0 < e) ∨ (draw < 0 ∧ e < 0) ∨ (m.cap < dc ∧ 0 < e) → m.I = s.motor.I) ∧
         (¬ ((1023 < draw ∧ 0 < e) ∨ (draw < 0 ∧ e < 0) ∨ (m.cap < dc ∧ 0 < e)) → m.I = i')) ∧
       m.stallCount = (if 1000 ≤ m.Da ∧ m.Mf < m.R / 8 then min 1000 (s.motor.stallCount + 1) else 0) ∧
       m.openCount = (if 200 ≤ m.Da ∧ m.C < 20 ∧ m.Mf < 10 then min 100 (s.motor.openCount + 1) else 0) ∧
       m.labour = (m.Da : Int) - (ff : Int) ∧
       m.phase = (if m.R = 0 ∧ m.Mf < 20 then .stopped else if s.motor.R < m.R then .accelerating
         else if m.R < s.motor.R then .decelerating else .cruising) ∧
       m.state = (if s.motor.checkShorted then s.motor.state else if t.demand.pending then .reversing
         else if m.R = 0 ∧ m.Mf < 20 then .stopped else .running) ∧ m.checkShorted = false) ∧
      t.motor.fault = s.motor.fault ∧
      t = { s with motor := t.motor, pub := t.pub, demand := t.demand, holds := t.holds, sound := t.sound, port := t.port, smoke := t.smoke, freeCount := t.freeCount }

/-- R11, R17, R24: a control period in FAULT or in DARK. The bridge is off, the integral and the labour are 0, the
detectors' counts stand, nothing is reported, and the period still measures, counts the distance and publishes; in FAULT
the reference goes on moving, in DARK it and both accumulators are 0. The chuff and the motion events go to the Sound
Engine (R117, R118). That counts which do not run stand, and the order
of what follows, with a chuff that sees this set, are the model's choice (logs 12, 16, 17,
42, 47). -/
def Obligations.ControlPeriodInFaultAndInDark : Prop :=
  ∀ (s : State) (c b : Nat), s.phase = .running → s.motor.state ≠ .check →
    s.motor.checkAccepted = false →
    s.motor.state = .fault ∨ s.supply.state = .dark → c ≤ 8190 → b ≤ 4095 →
    ∃ t, exec (.controlPeriod c b) s = .next t ∧ MeasuredAndPublished s.motor.state c b s t ∧ FollowsPublishing s t ∧
      (let m := t.motor
       let dark : Prop := s.supply.state = .dark
       let r := moveReference (sEff s) (accelInUse s) (decelInEffect s) s.motor
       let old := if dark then s.pub.R else s.motor.R
       m.Da = 0 ∧ m.I = 0 ∧ m.labour = 0 ∧ m.fault = s.motor.fault ∧ m.stallCount = s.motor.stallCount ∧
       m.openCount = s.motor.openCount ∧
       (dark → m.R = 0 ∧ m.rising = 0 ∧ m.falling = 0) ∧
       (¬ dark → m.R = r.R ∧ m.rising = r.rising ∧ m.falling = r.falling) ∧
       m.phase = (if m.R = 0 ∧ m.Mf < 20 then .stopped else if old < m.R then .accelerating
         else if m.R < old then .decelerating else .cruising) ∧
       m.state = (if s.motor.state = .fault then .fault else if s.motor.checkShorted then s.motor.state else if t.demand.pending then .reversing
         else if m.R = 0 ∧ m.Mf < 20 then .stopped else .running)) ∧
      t = { s with motor := t.motor, pub := t.pub, demand := t.demand, holds := t.holds, sound := t.sound, port := t.port, smoke := t.smoke, freeCount := t.freeCount }

/-- R14 to R16, R20: a current of 7500 mA in a drive phase is a short: in a running check its result SHORT, with no
fault and no hold; elsewhere MOTOR_SHORT, latched as the third within 10 s, else retried after 1 s, with the bridge off
and the MOTOR_FAULT hold installed. The control period in which the stall count reaches its limit takes MOTOR_STALL,
latched when the last stall lies less than 60 s back, and the one in which the open count reaches 100 takes MOTOR_OPEN,
which comes before a stall. That a drive phase is one with a duty above 0, that it is the first pulse's
where a check is accepted, that a short ends a check even after S_eff has risen since the last control period, and that
the two rows are control periods, are the model's choice (logs 3, 14, 15, 45, 68). -/
def Obligations.MotorFaultsAreTaken : Prop :=
  (
    ∀ (s : State) (c : Nat), 7500 ≤ c → c ≤ 8190 → 0 < s.motor.Da → s.supply.state ≠ .dark → s.motor.state ≠ .check →
      s.motor.checkAccepted = false → s.motor.state ≠ .fault →
      (let history := s.motor.shorts.filter (fun t => decide (ageMs s.partTime t ≤ 10000)) ++ [s.partTime]
       let latched := decide (3 ≤ history.length)
       exec (.motorShort c) s = .next { s with
         motor := { s.motor with
           shorts := history
           fault := some { kind := .motorShort, retry := if latched then none else some (s.partTime + 1000) }
           state := .fault, Da := 0, I := 0, stallCount := 0, openCount := 0 }
         holds := insertHold { plainStop .motorFault .instant with created := s.partTime } s.holds
         faults := updateAt s.faults 0 (fun r => r.report latched s.partTime) })) ∧
  (
    ∀ (s : State) (c : Nat), 7500 ≤ c → c ≤ 8190 → 0 < s.motor.Da → s.supply.state ≠ .dark →
      s.motor.state = .check ∨ s.motor.checkAccepted = true →
      exec (.motorShort c) s = .next { s with motor := { s.motor with
        checkRecord := { result := .short, estimate := some 0, time := s.partTime }
        checkProgress := none, checkC := [], checkAccepted := false, checkShorted := true, Da := 0, state := .stopped } }) ∧
  (
    ∀ (s : State) (c b : Nat), Drives s → c ≤ 8190 → b ≤ 4095 → s.motor.openCount ≤ 99 → s.motor.stallCount ≤ 999 →
      set8 s 68 ≤ 100 →
      (let m := drivenMotor c b s
       let stall := 1000 ≤ m.Da ∧ m.Mf < m.R / 8 ∧ set8 s 68 * 10 ≤ s.motor.stallCount + 1
       let opens := 200 ≤ m.Da ∧ m.C < 20 ∧ m.Mf < 10 ∧ s.motor.openCount = 99
       let again : Prop := ∃ l, s.motor.lastStall = some l ∧ ageMs s.partTime l < 60000
       (opens → ∃ t, exec (.motorOpen c b) s = .next t ∧ t.motor.state = .fault ∧ t.motor.Da = 0 ∧ t.motor.I = 0 ∧
         t.motor.fault = some { kind := .motorOpen, retry := none } ∧ t.motor.lastStall = s.motor.lastStall ∧
         t.motor.stallCount = 0 ∧ t.motor.openCount = 0 ∧
         t.holds.find? (fun h => h.source == .motorFault) =
           some { plainStop .motorFault .instant with created := s.partTime } ∧
         t.faults = updateAt s.faults 2 (fun r => r.report true s.partTime) ∧
         t.supply = s.supply ∧ t.switches = s.switches ∧ t.drive = s.drive) ∧
       (¬ opens → stall → ∃ t, exec (.motorStall c b) s = .next t ∧ t.motor.state = .fault ∧ t.motor.Da = 0 ∧ t.motor.I = 0 ∧
         (again → t.motor.fault = some { kind := .motorStall, retry := none } ∧
           t.faults = updateAt s.faults 1 (fun r => r.report true s.partTime)) ∧
         (¬ again → t.motor.fault = some { kind := .motorStall, retry := some (s.partTime + 5000) } ∧
           t.faults = updateAt s.faults 1 (fun r => r.report false s.partTime)) ∧
         t.motor.lastStall = some s.partTime ∧ t.motor.stallCount = 0 ∧ t.motor.openCount = 0 ∧
         t.holds.find? (fun h => h.source == .motorFault) =
           some { plainStop .motorFault .instant with created := s.partTime } ∧
         t.supply = s.supply ∧ t.switches = s.switches ∧ t.drive = s.drive)))

/-- R23: an input that changes level restarts the stable time, and a LOW level that has held for 5 ms arms the next
rising edge; with chuff source CAM a HIGH level held for 5 ms after a LOW one is one chuff, to the Sound
Engine as a momentary start request for the exhaust cue (R118) and, in READY, to the Smoke Controller as a puff (R142), and the same edge gives no second one. That the armed edge is a flag,
set at reset, and that an undue command changes nothing, are the model's choice (logs 2, 32). -/
def Obligations.CamEdgeGivesOneChuff : Prop :=
  ∀ s : State, s.phase = .running →
    (∀ l, l ≠ s.motor.camLevel → exec (.camInputChange l) s = .next { s with motor := { s.motor with
      camLevel := l, camStable := 0
      camArmed := s.motor.camArmed || (s.motor.camLevel == .low && decide (5 ≤ s.motor.camStable)) } }) ∧
    (exec (.camInputChange s.motor.camLevel) s = .next s) ∧
    (set8 s 71 = 1 → s.motor.camLevel = .high → 5 ≤ s.motor.camStable → s.motor.camArmed = true →
      ∃ t, exec .camChuff s = .next t ∧ exec .camChuff t = .next t ∧
        (s.smoke.state = .ready → t.smoke = { s.smoke with
          fan := .puff, fanLevel := set8 s 229
          puffEnd := some (s.partTime + BitVec.ofNat 32 (set8 s 231 * (100 + (clamp 0 100 s.pub.L).toNat) / 100)) }) ∧
        (s.smoke.state ≠ .ready → t.smoke = s.smoke) ∧
        (let heardBy := momentaryStart (exhaustCue s) { s with motor := { s.motor with camArmed := false } }
         t.sound = heardBy.sound ∧ t.port = heardBy.port) ∧
        t = { s with motor := { s.motor with camArmed := false }, sound := t.sound, port := t.port, smoke := t.smoke }) ∧
    (set8 s 71 ≠ 1 ∨ s.motor.camLevel = .low ∨ s.motor.camStable < 5 ∨ s.motor.camArmed = false →
      exec .camChuff s = .next s)

/-! ### Chapter 2: demand and holds -/

/-- R30: an installed hold takes the place of its source's entry, or the end of the list, with the present
part time as its created time; a removal takes out its source's entry and keeps the order of the rest, and with no entry
changes nothing; neither touches anything but the list. R34, R39, R40: a dwell that has run out removes the BEACON entry;
without reverse-at-end nothing else changes, and with it the commanded direction is inverted with BEACON as last writer
and the direction reconciled (R27). A dwell that still runs stays. The control period whose published odometer reaches a
BEACON cap's expiry removes the cap. That the row CAP_DISTANCE_EXPIRY is this period, and that an undue command changes
nothing, are the model's choice (logs 2, 3). -/
def Obligations.HoldsAreInstalledRemovedAndExpire : Prop :=
  (
    ∀ (s : State) (h : Hold), HoldsDistinct s →
      (let new := { h with created := s.partTime }
       ∀ before after old, s.holds = before ++ old :: after → old.source = h.source →
         installHold h s = { s with holds := before ++ new :: after } ∧
         removeHold h.source s = { s with holds := before ++ after }) ∧
      ((∀ x ∈ s.holds, x.source ≠ h.source) →
         installHold h s = { s with holds := s.holds ++ [{ h with created := s.partTime }] } ∧ removeHold h.source s = s)) ∧
  (
    (
      ∀ (s : State) (h : Hold) (due : Time), findHold s .beacon = some h → h.expiry = .atTime due →
        (reached s.partTime due = false → exec .dwellExpiry s = .next s) ∧
        (reached s.partTime due = true → h.reverseAtEnd = false →
          exec .dwellExpiry s = .next { s with holds := s.holds.filter (fun x => x.source != .beacon) }) ∧
        (reached s.partTime due = true → h.reverseAtEnd = true → ∃ t, exec .dwellExpiry s = .next t ∧
          t.holds = s.holds.filter (fun x => x.source != .beacon) ∧
          t.demand.commanded = s.demand.commanded.flip ∧ t.demand.lastWriter = some .beacon ∧
          (t.demand.pending = true ↔ wantedDir t ≠ t.demand.applied) ∧
          t.demand.applied = (if s.pub.R = 0 ∧ s.pub.Mf < 20 then wantedDir t else s.demand.applied) ∧
          t.drive = s.drive ∧ t.supply = s.supply ∧ t.switches = s.switches ∧ t.settings = s.settings)) ∧
    (
      ∀ (s : State) (c b : Nat) (h : Hold) (o : Odometer), Drives s → c ≤ 8190 → b ≤ 4095 → HoldsDistinct s →
        findHold s .beacon = some h → h.kind = .cap → h.expiry = .atOdometer o →
        (let mf := filterSpeed s.motor.Mf b
         (s.motor.odometer + BitVec.ofNat 32 mf - o).toNat < 2147483648 →
         ∃ t, exec (.capDistanceExpiry c b) s = .next t ∧ exec (.controlPeriod c b) s = .next t ∧
           t.pub.odometer = s.motor.odometer + BitVec.ofNat 32 mf ∧ (∀ x ∈ t.holds, x.source ≠ .beacon) ∧
           t.drive = s.drive ∧ t.supply = s.supply ∧ t.switches = s.switches)))

/-- R31, R32: a STOP needs no claim; it installs LOCAL for the local master and EMERGENCY for a throttle, is answered
OK, and changes nothing but the hold list. An all-call installs EMERGENCY and draws no reply. RESUME from a throttle
that holds DRIVE removes EMERGENCY and BEACON, from LOCAL holding DRIVE those and LOCAL, from LOCAL without DRIVE
EMERGENCY and LOCAL; any other sender is refused with NOT_HOLDER. -/
def Obligations.StopsAndResumesAreTaken : Prop :=
  (
    ∀ (s : State) (f : Frame), f.kind = 5 →
      (∀ m src t, Dispatched s f m src t →
        (let h := plainStop (if src = .localMaster then .localMaster else .emergency) .instant
         exec .stop s = .next (replied s f m src
           (.status .ok 0, { t with holds := insertHold { h with created := t.partTime } t.holds })))) ∧
      (nextTaken s = some (.radio, f) → screen s .radio f = .matched .allCall →
        exec .stop s = .next { popIntake .radio s with
          holds := insertHold { plainStop .emergency .instant with created := s.partTime } s.holds })) ∧
  (
    ∀ s f m src t, Dispatched s f m src t → f.kind = 6 →
      (∀ i, src = .throttle i → holdsDrive t src = true →
        exec .resume s = .next (replied s f m src
          (.status .ok 0, { t with holds := t.holds.filter (fun h => h.source != .emergency && h.source != .beacon) }))) ∧
      (∀ i, src = .throttle i → holdsDrive t src = false →
        exec .resume s = .next (replied s f m src (.status .notHolder 0, t))) ∧
      (src = .localMaster → holdsDrive t src = true →
        exec .resume s = .next (replied s f m src (.status .ok 0, { t with
          holds := t.holds.filter (fun h => h.source != .emergency && h.source != .beacon && h.source != .localMaster) }))) ∧
      (src = .localMaster → holdsDrive t src = false →
        exec .resume s = .next (replied s f m src (.status .ok 0,
          { t with holds := t.holds.filter (fun h => h.source != .emergency && h.source != .localMaster) }))))

/-! ### Chapter 3: the Throttle Table -/

/-- R43, R46, R47, R49, R51, R70, R72: what the Throttle Table makes of a frame whose id an entry holds. The entry has
been heard: it is ACTIVE from now, and if it was LOST every item that names it is ACTIVE again and RADIO_LOSS goes when
a DRIVE item was RESERVED. A repeat of its last sequence goes no further, nor does a frame beyond the rate limit, which
is counted as dropped; a STOP is not counted; a frame that goes on leaves its sequence and path in the entry. A frame
that goes no further leaves its queue and draws no reply, whichever request row takes it; that QUERY_STATUS takes a QUERY
of no row of its own is the model's choice (log 29). -/
def Obligations.KnownSenderIsHeard : Prop :=
  (
    ∀ (s : State) (f : Frame), s.throttles.length = 16 → ∀ i, i < 16 → ∀ e, entry s i = some e →
      e.id = f.sourceId → (∀ j, j < i → ∀ e', entry s j = some e' → e'.id ≠ f.sourceId) →
      (let back := e.lostSince.isSome
       let active := fun (h : HolderItem) => if h.source = .throttle i ∧ back = true then { h with until_ := none } else h
       let waited := s.drive.holders.any (fun h => h.source == .throttle i && h.until_.isSome)
       let e' := { e with lastHeard := s.partTime, quality := f.quality, lostSince := none }
       let after := fun (e : ThrottleEntry) => { s with
         throttles := s.throttles.set i (some e)
         drive := { s.drive with holders := s.drive.holders.map active }
         groups := s.groups.map (Option.map active)
         holds := if back && waited then s.holds.filter (fun h => h.source != .radioLoss) else s.holds }
       (f.seqByte = e.lastSeq → present f s = (.dropped, after e')) ∧
       (f.seqByte ≠ e.lastSeq → f.kind = 5 →
         present f s = (.taken i, after { e' with lastSeq := f.seqByte, path := f.pathByte })) ∧
       (f.seqByte ≠ e.lastSeq → f.kind ≠ 5 → e.intervalCount < set8 s 13 → present f s = (.taken i,
         after { e' with intervalCount := e.intervalCount + 1, lastSeq := f.seqByte, path := f.pathByte })) ∧
       (f.seqByte ≠ e.lastSeq → f.kind ≠ 5 → set8 s 13 ≤ e.intervalCount →
         present f s = (.dropped, after { e' with dropCount := min 65535 (e.dropCount + 1) })))) ∧
  (
    ∀ (s t : State) (f : Frame) (m : Mark), nextTaken s = some (.radio, f) → screen s .radio f = .matched m →
      m ≠ .allCall → present f (popIntake .radio s) = (.dropped, t) →
      f.kind ≠ 0x40 → exec (requestRow f) s = .next t)

/-- R44, R45, R52: what the Throttle Table makes of a frame whose id no entry holds. It is learned into the lowest free
entry; with none free, into the entry of the LOST throttle that no claim names and that was heard longest ago, the
lowest index among equals, whose removal aborts its transaction; with no such entry the refused-learn count goes up, a
PRESENCE is dropped, and any other kind draws TABLE_FULL by the path it came, where it draws a reply. What is oldest
across a wrap of part time, and that QUERY_STATUS takes a QUERY of no row of its own, are the model's choice (logs 29,
39). -/
def Obligations.UnknownSenderIsLearned : Prop :=
  (
    ∀ (s : State) (f : Frame), s.throttles.length = 16 → (∀ j, j < 16 → ∀ e, entry s j = some e → e.id ≠ f.sourceId) → 0 < set8 s 13 →
      (let learned : ThrottleEntry :=
         { id := f.sourceId, lostSince := none, lastSeq := f.seqByte, lastHeard := s.partTime, path := f.pathByte,
           quality := f.quality, intervalCount := if f.kind = 5 then 0 else 1, dropCount := 0 }
       let full : Prop := ∀ j, j < 16 → entry s j ≠ none
       let candidate := fun (j : Nat) (e : ThrottleEntry) =>
         entry s j = some e ∧ e.lostSince ≠ none ∧ namedByClaim s j = false
       let since := fun (e : ThrottleEntry) => (s.partTime - e.lastHeard).toNat
       (∀ i, i < 16 → entry s i = none → (∀ j, j < i → entry s j ≠ none) →
         present f s = (.taken i, { s with throttles := s.throttles.set i (some learned) })) ∧
       (∀ i, i < 16 → ∀ e, full → candidate i e → (∀ j, j < 16 → ∀ e', candidate j e' → since e' ≤ since e ∧ (j < i → since e' < since e)) →
         ∃ t, present f s = (.taken i, t) ∧ t.throttles = s.throttles.set i (some learned) ∧
           (s.txn.state = .closed ∨ s.txn.opener ≠ .throttle i → t = { s with throttles := t.throttles }) ∧
           (s.txn.state ≠ .closed → s.txn.opener = .throttle i → t.txn.state = .closed ∧ t.txn.staged = [] ∧
             t = { s with throttles := t.throttles, txn := t.txn, sound := t.sound, port := t.port })) ∧
       (full → (∀ j, j < 16 → ∀ e, ¬ candidate j e) → present f s =
         (if f.kind = 0x23 then .dropped else .refused, { s with refusedLearns := min 65535 (s.refusedLearns + 1) })))) ∧
  (
    ∀ (s t : State) (f : Frame) (m : Mark), nextTaken s = some (.radio, f) → screen s .radio f = .matched m →
      m ≠ .allCall → present f (popIntake .radio s) = (.refused, t) →
      (let body := sealBody ([f.body.getD 0 0, f.pathByte] ++ le4 f.sourceId ++ le2 (locoAddress t) ++ [f.seqByte, 0x80#8]
         ++ statusPayload t .tableFull 0 none)
       let u := if m = .own ∨ (m = .consist ∧ consistPosition s = .lead)
         then queueReply { port := .radio, body := body, isReset := t.resetWait } t else t
       f.kind ≠ 0x40 → exec (requestRow f) s = .next u))

/-- R48: at the end of a rate interval every occupied entry's interval count becomes 0 and the next interval begins
500 ms after the one that ended. R50, R69, R72: an ACTIVE entry at its silence limit becomes LOST from now; with a
reclaim window W every item that names it is RESERVED for W s, in place, and with W = 0 it is removed; RADIO_LOSS is
installed when DRIVE had an ACTIVE holder and has none left. R52: a LOST entry past its forget time that no claim
names is removed, and its open transaction aborted. R71, R66: the RESERVED items of an index whose time has come are
removed from DRIVE, with one increase of the generation, and from the groups. That an undue command changes nothing is
the model's choice (log 2). -/
def Obligations.ThrottleTimersAct : Prop :=
  (
    ∀ s : State, s.phase = .running →
      (reached s.partTime s.rateDue = true →
        exec .rateInterval s = .next { s with
          rateDue := s.rateDue + 500
          throttles := s.throttles.map (Option.map (fun e => { e with intervalCount := 0 })) }) ∧
      (reached s.partTime s.rateDue = false → exec .rateInterval s = .next s)) ∧
  (
    ∀ (s : State) (i : Nat) (e : ThrottleEntry), i < 16 → s.throttles.length = 16 → entry s i = some e →
      e.lostSince = none →
      (reached s.partTime (e.lastHeard + BitVec.ofNat 32 (set8 s 10 * 100)) = false →
        exec (.silenceLimit i) s = .next s) ∧
      (reached s.partTime (e.lastHeard + BitVec.ofNat 32 (set8 s 10 * 100)) = true → 0 < set8 s 11 →
        reached s.partTime (e.lastHeard + BitVec.ofNat 32 (set8 s 12 * 10000)) = false →
        (let until' := s.partTime + BitVec.ofNat 32 (set8 s 11 * 1000)
         let mark := fun (h : HolderItem) => if h.source = .throttle i then { h with until_ := some until' } else h
         let holders := s.drive.holders.map mark
         let lost := s.drive.holders.any (fun h => h.until_.isNone) && !holders.any (fun h => h.until_.isNone)
         exec (.silenceLimit i) s = .next { s with
           throttles := s.throttles.set i (some { e with lostSince := some s.partTime })
           drive := { s.drive with holders := holders }
           groups := s.groups.map (Option.map mark)
           holds := if lost then insertHold { plainStop .radioLoss .normal with created := s.partTime } s.holds
             else s.holds })) ∧
      (reached s.partTime (e.lastHeard + BitVec.ofNat 32 (set8 s 10 * 100)) = true → set8 s 11 = 0 →
        (let past := reached s.partTime (e.lastHeard + BitVec.ofNat 32 (set8 s 12 * 10000))
         let left := s.drive.holders.filter (fun h => h.source != .throttle i)
         let same : Prop := left.length = s.drive.holders.length
         let lost := s.drive.holders.any (fun h => h.until_.isNone) && !left.any (fun h => h.until_.isNone)
         ∃ t, exec (.silenceLimit i) s = .next t ∧
           t.throttles = s.throttles.set i (if past = true then none else some { e with lostSince := some s.partTime }) ∧
           (same → t.drive = s.drive) ∧
           (¬ same → t.drive = { mode := if left = [] then .free else s.drive.mode, holders := left,
                                 generation := nextGeneration s.drive.generation }) ∧
           t.groups = s.groups.map (fun g => match g with
             | some h => if h.source = .throttle i then none else some h
             | none => none) ∧
           t.holds = (if lost then insertHold { plainStop .radioLoss .normal with created := s.partTime } s.holds
             else s.holds) ∧
           t = { s with throttles := t.throttles, drive := t.drive, groups := t.groups, holds := t.holds, txn := t.txn,
                        sound := t.sound, port := t.port }))) ∧
  (
    ∀ (s : State) (i : Nat) (e : ThrottleEntry), i < 16 → s.throttles.length = 16 → entry s i = some e →
      (let past := e.lostSince.isSome && reached s.partTime (e.lastHeard + BitVec.ofNat 32 (set8 s 12 * 10000))
       (past = true → namedByClaim s i = false → ∃ t, exec (.forgetTime i) s = .next t ∧
         t.throttles = s.throttles.set i none ∧
         ((s.txn.state = .closed ∨ s.txn.opener ≠ .throttle i) → t = { s with throttles := t.throttles }) ∧
         (s.txn.state ≠ .closed → s.txn.opener = .throttle i →
           t.txn.state = .closed ∧ t.settings = s.settings ∧
             t = { s with throttles := t.throttles, txn := t.txn, sound := t.sound, port := t.port })) ∧
       (past = false ∨ namedByClaim s i = true → exec (.forgetTime i) s = .next s))) ∧
  (
    ∀ (s : State) (i : Nat),
      (let due := fun (h : HolderItem) =>
         h.source == .throttle i && (match h.until_ with | some t => reached s.partTime t | none => false)
       let left := s.drive.holders.filter (fun h => !due h)
       ∃ t, exec (.reservationExpiry i) s = .next t ∧ t.drive.holders = left ∧
         t.drive.mode = (if left.length ≠ s.drive.holders.length ∧ left = [] then .free else s.drive.mode) ∧
         t.drive.generation = (if left.length = s.drive.holders.length then s.drive.generation
           else nextGeneration s.drive.generation) ∧
         t.groups = s.groups.map (fun g => match g with | some h => if due h then none else some h | none => none) ∧
         (let removed : Prop := left.length ≠ s.drive.holders.length ∨ ∃ g ∈ s.groups, ∃ h, g = some h ∧ due h = true
          let forgets := fun (e : ThrottleEntry) => (removed ∧ e.lostSince ≠ none ∧ namedByClaim t i = false ∧
            reached s.partTime (e.lastHeard + BitVec.ofNat 32 (set8 s 12 * 10000)) = true : Prop)
          (∀ e, entry s i = some e → forgets e → t.throttles = s.throttles.set i none) ∧
          ((∀ e, entry s i = some e → ¬ forgets e) → t.throttles = s.throttles) ∧
          (s.txn.state = .closed ∨ s.txn.opener ≠ .throttle i →
            t.txn = s.txn ∧ t.sound = s.sound ∧ t.port = s.port) ∧
          (s.txn.state ≠ .closed → s.txn.opener = .throttle i →
            (left.length ≠ s.drive.holders.length ∧ ∀ h ∈ left, h.source ≠ .throttle i) ∨
              (∃ e, entry s i = some e ∧ forgets e) →
            t.txn.state = .closed ∧ t.txn.staged = [])) ∧
         t = { s with drive := t.drive, groups := t.groups, throttles := t.throttles, txn := t.txn, sound := t.sound, port := t.port }))

/-! ### Chapter 4: the Claim Table -/

/-- R60 to R62, R64: CLAIM without a LOCAL override. A resource or a mode outside its set is refused with RANGE, the
mode of a group's CLAIM too by the model's choice (log 48). For DRIVE a sender that holds an item is granted again; a
FREE claim is granted; a steal takes a claim all of whose items are RESERVED; SHARED joins a SHARED claim of fewer than
three; anything else is CLAIM_HELD. A grant that adds the sender moves the generation on by one (R66), removes
RADIO_LOSS (R72), and every OK is activity. For a group an OPEN one and a steal of a RESERVED one are given, the
sender's own stays, and any other is CLAIM_HELD; the DRIVE claim does not change. -/
def Obligations.ClaimIsJudged : Prop :=
  (
    ∀ s f m src t, Dispatched s f m src t → f.kind = 1 → 3 ≤ f.payload.length →
      4 < byteAt f.payload 0 ∨ 1 < byteAt f.payload 1 →
      exec .claim s = .next (replied s f m src (.status .range 0, t))) ∧
  (
    ∀ s f m src t, Dispatched s f m src t → f.kind = 1 → 3 ≤ f.payload.length → byteAt f.payload 0 = 0 →
      byteAt f.payload 1 ≤ 1 → ¬ (byteAt f.payload 2 / 2 % 2 = 1 ∧ src = .localMaster) →
      (let mode : DriveMode := if byteAt f.payload 1 = 1 then .shared else .exclusive
       let has : Prop := ∃ h ∈ t.drive.holders, h.source = src
       let stolen : Prop := byteAt f.payload 2 % 2 = 1 ∧ ∀ h ∈ t.drive.holders, h.until_.isSome = true
       let join : Prop := mode = .shared ∧ t.drive.mode = .shared ∧ t.drive.holders.length < 3
       let granted := fun (mo : DriveMode) (hs : List HolderItem) =>
         ({ mode := mo, holders := hs, generation := nextGeneration t.drive.generation } : DriveClaim)
       let calm := t.holds.filter (fun h => h.source != .radioLoss)
       (has → exec .claim s = .next (replied s f m src (.status .ok 0, activity t))) ∧
       (¬ has → t.drive.mode = .free → t.drive.holders = [] →
         exec .claim s = .next (replied s f m src
           (.status .ok 0, activity { t with drive := granted mode [activeItem src], holds := calm }))) ∧
       (¬ has → t.drive.mode ≠ .free → stolen → ∃ u,
         exec .claim s = .next (replied s f m src (.status .ok 0, u)) ∧ u.drive = granted mode [activeItem src] ∧
           u.holds = calm ∧ u.groups = t.groups ∧ u.settings = t.settings ∧ u.demand = t.demand ∧ u.motor = t.motor) ∧
       (¬ has → t.drive.mode ≠ .free → ¬ stolen → join →
         exec .claim s = .next (replied s f m src
           (.status .ok 0, activity { t with drive := granted .shared (t.drive.holders ++ [activeItem src]), holds := calm }))) ∧
       (¬ has → t.drive.mode ≠ .free → ¬ stolen → ¬ join →
         exec .claim s = .next (replied s f m src (.status .claimHeld 0, t))))) ∧
  (
    ∀ s f m src t, Dispatched s f m src t → f.kind = 1 → 3 ≤ f.payload.length → 1 ≤ byteAt f.payload 0 →
      byteAt f.payload 0 ≤ 4 → byteAt f.payload 1 ≤ 1 → ¬ (byteAt f.payload 2 / 2 % 2 = 1 ∧ src = .localMaster) →
      (let g := byteAt f.payload 0 - 1
       (t.groups.getD g none = none → exec .claim s = .next (replied s f m src
         (.status .ok 0, activity { t with groups := t.groups.set g (some (activeItem src)) }))) ∧
       (∀ h, t.groups.getD g none = some h →
         (h.source = src → exec .claim s = .next (replied s f m src (.status .ok 0, activity t))) ∧
         (h.source ≠ src → byteAt f.payload 2 % 2 = 1 → h.until_.isSome = true → ∃ u,
           exec .claim s = .next (replied s f m src (.status .ok 0, u)) ∧
             u.groups = t.groups.set g (some (activeItem src)) ∧ u.drive = t.drive ∧ u.holds = t.holds ∧
             u.demand = t.demand ∧ u.motor = t.motor ∧ u.settings = t.settings) ∧
         (h.source ≠ src → (byteAt f.payload 2 % 2 = 0 ∨ h.until_ = none) →
           exec .claim s = .next (replied s f m src (.status .claimHeld 0, t))))))

/-- R63: a CLAIM from LOCAL with the override flag is always granted. For DRIVE, LOCAL alone is left, in the mode asked,
its own item kept when it had one, the generation moves on only when an item was added or removed, and RADIO_LOSS goes
when one was added (R72); for a group, LOCAL becomes its holder. R65: with a RELEASE, DRIVE loses the sender's item alone, becomes FREE when none is left and
keeps its mode otherwise, the generation moves on, and RADIO_LOSS is installed when no ACTIVE item is left among those
that stay (R72); a group of the sender becomes OPEN; a sender without an item is refused with NOT_HOLDER and a resource
above 4 with RANGE, and then nothing changes. -/
def Obligations.OverridesAndReleasesAreTaken : Prop :=
  (
    ∀ s f m t, Dispatched s f m .localMaster t → f.kind = 1 → 3 ≤ f.payload.length → byteAt f.payload 1 ≤ 1 →
      byteAt f.payload 2 / 2 % 2 = 1 → (t.drive.holders.map (·.source)).Nodup →
      (byteAt f.payload 0 = 0 → ∃ u, exec .claim s = .next (replied s f m .localMaster (.status .ok 0, u)) ∧
        u.drive.mode = (if byteAt f.payload 1 = 1 then .shared else .exclusive) ∧
        u.drive.holders.map (·.source) = [.localMaster] ∧
        u.drive.holders = (if ∃ h ∈ t.drive.holders, h.source = .localMaster
          then t.drive.holders.filter (fun h => h.source == .localMaster) else [activeItem .localMaster]) ∧
        u.drive.generation = (if t.drive.holders.map (·.source) = [.localMaster] then t.drive.generation
          else nextGeneration t.drive.generation) ∧
        u.holds = (if ∃ h ∈ t.drive.holders, h.source = .localMaster then t.holds
          else t.holds.filter (fun h => h.source != .radioLoss)) ∧
        u.groups = t.groups ∧ u.settings = t.settings ∧ u.demand = t.demand ∧ u.motor = t.motor) ∧
      (1 ≤ byteAt f.payload 0 → byteAt f.payload 0 ≤ 4 → ∃ u,
        exec .claim s = .next (replied s f m .localMaster (.status .ok 0, u)) ∧
        u.groups = t.groups.set (byteAt f.payload 0 - 1) (some (activeItem .localMaster)) ∧
        u.drive = t.drive ∧ u.holds = t.holds ∧ u.settings = t.settings ∧ u.demand = t.demand ∧ u.motor = t.motor)) ∧
  (
    ∀ s f m src t, Dispatched s f m src t → f.kind = 2 → 1 ≤ f.payload.length →
      (let r := byteAt f.payload 0
       let has : Prop := ∃ h ∈ t.drive.holders, h.source = src
       let left := t.drive.holders.filter (fun h => h.source != src)
       (4 < r → exec .release s = .next (replied s f m src (.status .range 0, t))) ∧
       (r = 0 → ¬ has → exec .release s = .next (replied s f m src (.status .notHolder 0, t))) ∧
       (r = 0 → has → ∃ u, exec .release s = .next (replied s f m src (.status .ok 0, u)) ∧
         u.drive = { mode := if left = [] then .free else t.drive.mode, holders := left,
                     generation := nextGeneration t.drive.generation } ∧
         u.holds = (if left ≠ [] ∧ (∃ h ∈ t.drive.holders, h.until_ = none) ∧ (∀ h ∈ left, h.until_ ≠ none)
           then insertHold { plainStop .radioLoss .normal with created := t.partTime } t.holds else t.holds) ∧
         u.groups = t.groups ∧ u.demand = t.demand ∧ u.motor = t.motor ∧ u.settings = t.settings) ∧
       (1 ≤ r → r ≤ 4 →
         (∀ h, t.groups.getD (r - 1) none = some h → h.source = src →
           ∃ u, exec .release s = .next (replied s f m src (.status .ok 0, u)) ∧ u.groups = t.groups.set (r - 1) none ∧
             u.drive = t.drive ∧ u.holds = t.holds ∧ u.demand = t.demand ∧ u.motor = t.motor ∧ u.settings = t.settings) ∧
         ((∀ h, t.groups.getD (r - 1) none = some h → h.source ≠ src) →
           exec .release s = .next (replied s f m src (.status .notHolder 0, t))))))

/-- R67, R26, R27, R12, R21, R37, R117: a DRIVE is judged in the order WRONG_ADDRESS, NOT_HOLDER, RANGE, STALE. An accepted one moves
the generation on, stores the step (251..255 as 250, answered CLAMPED), the direction and the sender, removes
EMERGENCY at step 0, and reconciles the direction: at a published standstill the wanted direction is applied at once,
which clears the integral and both accumulators and ends a check, and else it is pending while it differs; the stored
step is 0 where the flip activates the brake. Where no feature changes and the part does not wake, the Sound Engine
takes just the reversal that begins (R117). -/
def Obligations.DriveIsJudgedAndStored : Prop :=
  ∀ s f m src t, Dispatched s f m src t → f.kind = 3 → 4 ≤ f.payload.length →
    (let gen := halfAt f.payload 0
     let step := byteAt f.payload 2
     let dir := byteAt f.payload 3
     let wrong : Prop := consistSet t = true ∧ m = .own
     let current : Prop := (t.drive.mode = .exclusive ∧ gen = 0) ∨ gen = t.drive.generation
     let refused := fun r => exec .drive s = .next (replied s f m src (.status r 0, t))
     (wrong → refused .wrongAddress) ∧
     (¬ wrong → holdsDrive t src = false → refused .notHolder) ∧
     (¬ wrong → holdsDrive t src = true → 1 < dir → refused .range) ∧
     (¬ wrong → holdsDrive t src = true → dir ≤ 1 → ¬ current → refused .stale) ∧
     (¬ wrong → holdsDrive t src = true → dir ≤ 1 → current → ∃ u,
       exec .drive s = .next (replied s f m src (.status (if 250 < step then .clamped else .ok) 0, u)) ∧
       u.drive = { t.drive with generation := nextGeneration t.drive.generation } ∧
       u.demand.step = (if asked t 42 = false ∧ asked u 42 = true then 0 else min 250 step) ∧
       u.demand.commanded = (if dir = 1 then .rev else .fwd) ∧ u.demand.lastWriter = some (.source src) ∧
       (u.demand.pending = true ↔ wantedDir u ≠ u.demand.applied) ∧
       u.demand.applied = (if t.pub.R = 0 ∧ t.pub.Mf < 20 then wantedDir u else t.demand.applied) ∧
       (u.demand.applied = t.demand.applied → u.motor = t.motor) ∧
       (u.demand.applied ≠ t.demand.applied → u.motor.I = 0 ∧ u.motor.rising = 0 ∧ u.motor.falling = 0 ∧
         u.motor.state ≠ .check) ∧
       u.holds = (if step = 0 then t.holds.filter (fun h => h.source != .emergency) else t.holds) ∧
       u.groups = t.groups ∧ u.throttles = t.throttles ∧ u.switches = t.switches ∧ u.settings = t.settings ∧
       (t.supply.state ≠ .parked → (∀ code, asked u code = asked t code) →
         (let x := if wantedDir t = t.demand.applied ∧ wantedDir u ≠ t.demand.applied
            then momentaryStart (namedCue (set8 t 455)) t else t
          u.sound = x.sound ∧ u.port = x.port)) ∧
       u.flash = t.flash ∧ u.voiceRam = t.voiceRam))

/-- R68, R77, R98: a FUNC is judged in the order WRONG_ADDRESS, RANGE, NOT_HOLDER. A permitted one changes just
the switches its mask names in its group, narrowed by the consist function mask on a consist-addressed frame:
each takes its value and its sender, and loses a momentary expiry. The request is activity, which wakes a
parked part (R152); a switch that asks for the brake sets the step to 0 (R37); the Smoke Controller decides only where
SMOKE has changed or the part wakes (R137). To the Sound Engine go the triggers of the cues that end and begin (R102,
R116), the brake's motion event (R117), then the waking. That order, and that the activity comes after the switches, are
the model's choice (logs 13, 17). -/
def Obligations.FuncSetsTheNamedSwitches : Prop :=
  ∀ s f m src t, Dispatched s f m src t → f.kind = 4 → 3 ≤ f.payload.length →
    (let g := byteAt f.payload 0
     let mask := if m = .consist then byteAt f.payload 1 &&& set8 t (6 + g) else byteAt f.payload 1
     let values := byteAt f.payload 2
     let wrong : Prop := consistSet t = true ∧ m = .own
     let free : Prop := ∀ h, t.groups.getD g none = some h → h.source = src
     let refused := fun r => exec .func s = .next (replied s f m src (.status r 0, t))
     (wrong → refused .wrongAddress) ∧
     (¬ wrong → 3 < g → refused .range) ∧
     (¬ wrong → g ≤ 3 → ¬ free → refused .notHolder) ∧
     (¬ wrong → g ≤ 3 → free → ∃ u, exec .func s = .next (replied s f m src (.status .ok 0, u)) ∧
       u.switches.length = t.switches.length ∧
       (∀ i sw, t.switches[i]? = some sw → u.switches[i]? = some
         (if i / 8 = g ∧ mask.testBit (i % 8) = true then
           { on := values.testBit (i % 8), lastSetter := some (.source src), expiry := none } else sw)) ∧
       (asked u 41 = asked t 41 → t.supply.state ≠ .parked → u.smoke = t.smoke) ∧
       u.supply = { t.supply with
         lastActivity := t.partTime
         state := if t.supply.state = .parked then .track else t.supply.state } ∧
       u.demand.step = (if asked t 42 = false ∧ asked u 42 = true then 0 else t.demand.step) ∧
       (let x := activity (cuesHeard t { t with switches := u.switches })
        u.sound = x.sound ∧ u.port = x.port) ∧
       u.drive = t.drive ∧ u.groups = t.groups ∧ u.throttles = t.throttles ∧ u.holds = t.holds ∧
       u.demand.commanded = t.demand.commanded ∧ u.motor = t.motor ∧ u.settings = t.settings ∧ u.outputs = t.outputs ∧
       u.flash = t.flash ∧ u.voiceRam = t.voiceRam))

/-- R75: a CONSIST needs DRIVE or LOCAL, a published R of 0 and legal fields; an accepted one installs the
record in bytes 3 to 9, all 0 for address 0, and marks the settings unsaved. R41, R27: a BEACON hold of origin OWN goes
where the position becomes MID or TRAIL, one of origin CONSIST where it becomes another or the address changes; a
changed reversed flag reconciles the direction. -/
def Obligations.ConsistInstallsTheRecord : Prop :=
  ∀ s f m src t, Dispatched s f m src t → f.kind = 7 → 7 ≤ f.payload.length → t.settings.length = 776 →
    (let addr := byteAt f.payload 0
     let pos := byteAt f.payload 1
     let bad : Prop := 127 < addr ∨ 3 < pos ∨ (1 ≤ addr ∧ pos = 0)
     let may : Prop := holdsDrive t src = true ∨ src = .localMaster
     let refused := fun r => exec .consist s = .next (replied s f m src (.status r 0, t))
     (¬ may → refused .notHolder) ∧
     (may → t.pub.R ≠ 0 → refused .notStopped) ∧
     (may → t.pub.R = 0 → bad → refused .range) ∧
     (may → t.pub.R = 0 → ¬ bad → ∃ u, exec .consist s = .next (replied s f m src (.status .ok 0, u)) ∧
       consistSet u = decide (addr ≠ 0) ∧ consistAddress u = addr ∧
       (addr ≠ 0 → set8 u 4 = pos ∧ set8 u 5 = byteAt f.payload 2 % 2 ∧ ∀ k, k < 4 → set8 u (6 + k) = byteAt f.payload (3 + k)) ∧
       (addr = 0 → ∀ k, k < 7 → set8 u (3 + k) = 0) ∧
       (∀ k, k < 3 ∨ 10 ≤ k → set8 u k = set8 t k) ∧
       (consistReversed u = consistReversed t → u.demand = t.demand ∧ u.motor = t.motor) ∧
       (consistReversed u ≠ consistReversed t →
         (u.demand.pending = true ↔ wantedDir u ≠ u.demand.applied) ∧ u.demand.commanded = t.demand.commanded ∧
         u.demand.lastWriter = t.demand.lastWriter ∧
         u.demand.applied = (if t.pub.Mf < 20 then wantedDir u else t.demand.applied)) ∧
       u.holds.filter (fun h => h.source != .beacon) = t.holds.filter (fun h => h.source != .beacon) ∧
       (findHold t .beacon = none → findHold u .beacon = none) ∧
       (∀ h, findHold t .beacon = some h →
         (h.origin = some .own → findHold u .beacon = if IsMember u then none else some h) ∧
         (h.origin = some .consist →
           findHold u .beacon = if IsMember u ∧ consistAddress u = consistAddress t then some h else none)) ∧
       u.unsaved = true ∧ u.drive = t.drive ∧ u.groups = t.groups ∧ u.throttles = t.throttles ∧ u.switches = t.switches ∧
       u.flash = t.flash ∧ u.voiceRam = t.voiceRam))

/-! ### Chapter 5: the Frame Engine -/

/-- R80: the CRC catches a frame in which one byte from the layout id up to the last payload byte is altered, and a frame
the part builds passes its own check. -/
def Obligations.CrcCatchesOneAlteredByte : Prop :=
  (∀ (bs : List Byte) (q : Byte), Frame.crcOk { body := sealBody bs, quality := q } = true) ∧
    (∀ (before after : List Byte) (b c q : Byte), b ≠ c →
      Frame.crcOk { body := before ++ c :: after ++ crcBytes (before ++ b :: after), quality := q } = false)

/-- R79, R81: what a byte receiver does with a byte, state by state: the start byte, the length byte, a body byte, the one
that ends the body, and the quality byte; a complete frame enters the port's queue or is counted as an overflow. A byte
that comes more than 5 ms after the last one of its frame finds the partial frame discarded as a framing error, and is
taken in HUNT. More than 5 ms without a byte inside a frame does the same without one. That an undue timeout changes
nothing is the model's choice (log 2). -/
def Obligations.ReceiverTakesEachByte : Prop :=
  (
    ∀ (s : State) (which : Port) (b : Byte),
      (let p := portState s which
       let after := fun (q : PortState) => exec (.byteArrival which b) s = .next (setPort which q s)
       let lost := { p with rx := hunting, counters := { p.counters with framing := min 65535 (p.counters.framing + 1) } }
       let begun : Receiver := { state := .length, len := 0, body := [], gap := 0 }
       let complete := fun (cap : Nat) (f : Frame) =>
         (p.intake.length < cap → after { p with
           rx := hunting, intake := p.intake ++ [f]
           counters := { p.counters with received := min 65535 (p.counters.received + 1) } }) ∧
         (cap ≤ p.intake.length → after { p with
           rx := hunting, counters := { p.counters with overflows := min 65535 (p.counters.overflows + 1) } })
       (p.rx.state = .hunt →
         (b = 0x7E#8 → after { p with rx := begun }) ∧
         (b ≠ 0x7E#8 → exec (.byteArrival which b) s = .next s)) ∧
       (p.rx.state ≠ .hunt → 5 < p.rx.gap →
         (b = 0x7E#8 → after { lost with rx := begun }) ∧ (b ≠ 0x7E#8 → after lost)) ∧
       (p.rx.state = .length → p.rx.gap ≤ 5 →
         (12 ≤ b.toNat ∧ b.toNat ≤ 36 → after { p with rx := { state := .body, len := b.toNat, body := [], gap := 0 } }) ∧
         (b.toNat < 12 ∨ 36 < b.toNat → after lost)) ∧
       (p.rx.state = .body → p.rx.gap ≤ 5 →
         (p.rx.body.length + 1 < p.rx.len → after { p with rx := { p.rx with body := p.rx.body ++ [b], gap := 0 } }) ∧
         (p.rx.body.length + 1 = p.rx.len → which = .radio →
           after { p with rx := { p.rx with state := .quality, body := p.rx.body ++ [b], gap := 0 } }) ∧
         (p.rx.body.length + 1 = p.rx.len → which = .localLine → complete 4 { body := p.rx.body ++ [b], quality := 0 })) ∧
       (p.rx.state = .quality → p.rx.gap ≤ 5 → which = .radio → complete 8 { body := p.rx.body, quality := b }))) ∧
  (
    ∀ (s : State) (which : Port),
      (let p := portState s which
       (p.rx.state ≠ .hunt → 5 < p.rx.gap → exec (.byteGapTimeout which) s = .next (setPort which
         { p with rx := hunting, counters := { p.counters with framing := min 65535 (p.counters.framing + 1) } } s)) ∧
       (p.rx.state = .hunt ∨ p.rx.gap ≤ 5 → exec (.byteGapTimeout which) s = .next s)))

/-- R79, R81: the bytes of a whole frame, taken by a receiver in HUNT, put the frame at the end of its port's queue and
count it as received; a full queue discards it and counts an overflow. R82: the next frame taken is the oldest local one,
else the oldest radio one, and none while the start-up or a RESET waits (R90, R178). R83, R84, R96: a taken frame that
fails a check leaves its queue without a reply; a CRC error and a layout mismatch are counted at its port, and a frame
for another address, a reply kind, and a radio frame to all that is no STOP are not. That the row delivers the bytes back to back, and that a row takes the next frame, are the
model's choice (logs 4, 5). -/
def Obligations.FramesAreQueuedTakenAndDiscarded : Prop :=
  (
    ∀ (s : State) (which : Port) (body : List Byte) (q : Byte), (portState s which).rx.state = .hunt →
      12 ≤ body.length → body.length ≤ 36 →
      (let p := portState s which
       let f : Frame := { body := body, quality := if which = .radio then q else 0 }
       let cap := if which = .radio then 8 else 4
       (p.intake.length < cap → exec (.frameReceived which body q) s = .next (setPort which
         { p with rx := hunting, intake := p.intake ++ [f],
                  counters := { p.counters with received := min 65535 (p.counters.received + 1) } } s)) ∧
       (cap ≤ p.intake.length → exec (.frameReceived which body q) s = .next (setPort which
         { p with rx := hunting, counters := { p.counters with overflows := min 65535 (p.counters.overflows + 1) } } s)))) ∧
  (
    ∀ s : State,
      (s.phase = .loading ∨ s.resetWait = true → nextTaken s = none) ∧
      (s.phase = .running → s.resetWait = false →
        (∀ f fs, s.localLine.intake = f :: fs → nextTaken s = some (.localLine, f) ∧
          popIntake .localLine s = { s with localLine := { s.localLine with intake := fs } }) ∧
        (∀ f fs, s.localLine.intake = [] → s.radio.intake = f :: fs → nextTaken s = some (.radio, f) ∧
          popIntake .radio s = { s with radio := { s.radio with intake := fs } }) ∧
        (s.localLine.intake = [] → s.radio.intake = [] → nextTaken s = none))) ∧
  (
    ∀ (s : State) (which : Port) (f : Frame), nextTaken s = some (which, f) →
      (let p := { portState s which with intake := (portState s which).intake.tail }
       (f.crcOk = false → exec .discardedFrame s = .next (setPort which
         { p with counters := { p.counters with crcErrors := min 65535 (p.counters.crcErrors + 1) } } s)) ∧
       (f.crcOk = true → which = .radio → set8 s 2 ≠ 255 → f.layoutId ≠ set8 s 2 →
         exec .discardedFrame s = .next (setPort which
           { p with counters := { p.counters with layout := min 65535 (p.counters.layout + 1) } } s)) ∧
       (f.crcOk = true → (which = .localLine ∨ set8 s 2 = 255 ∨ f.layoutId = set8 s 2) → f.dest ≠ 0 →
         f.dest ≠ locoAddress s → (consistSet s = false ∨ f.dest ≠ 0x8000 + consistAddress s) →
         exec .discardedFrame s = .next (setPort which p s)) ∧
       (f.crcOk = true → (which = .localLine ∨ set8 s 2 = 255 ∨ f.layoutId = set8 s 2) →
         (0x80 ≤ f.kind ∧ f.kind ≤ 0x82) ∨ (which = .radio ∧ f.dest = 0 ∧ f.kind ≠ 5) →
         exec .discardedFrame s = .next (setPort which p s))))

/-- R86, R87: a kind outside Table 5-3 and a payload shorter than the fixed part of its kind are refused with
RANGE, and reach no owner. PRESENCE is answered OK and changes nothing beyond what the Throttle Table did on
hearing it. That the row QUERY_STATUS takes a QUERY with no payload, and that a payload
too short is refused before a throttle is told that a request is not for it, are the model's choice (logs 29, 58). -/
def Obligations.PresenceAndRefusalsChangeNothing : Prop :=
  (
    ∀ s f m src t, Dispatched s f m src t →
      (let refused := fun c => exec c s = .next (replied s f m src (.status .range 0, t))
       (f.kind ∉ requestKinds → refused .unknownKind) ∧
       (f.kind = 0x01 → f.payload.length < 3 → refused .claim) ∧ (f.kind = 0x02 → f.payload.length < 1 → refused .release) ∧
       (f.kind = 0x03 → f.payload.length < 4 → refused .drive) ∧ (f.kind = 0x04 → f.payload.length < 3 → refused .func) ∧
       (f.kind = 0x07 → f.payload.length < 7 → refused .consist) ∧ (f.kind = 0x10 → f.payload.length < 6 → refused .cfgOpen) ∧
       (f.kind = 0x11 → f.payload.length < 2 ∨ 18 < f.payload.length → refused .cfgData) ∧
       (f.kind = 0x20 → f.payload.length < 1 → refused .queryStatus) ∧ (f.kind = 0x30 → f.payload.length < 1 → refused .learn) ∧
       (f.kind = 0x31 → f.payload.length < 3 → refused .outputLocal))) ∧
  (
    ∀ s f m src t, Dispatched s f m src t → f.kind = 0x23 →
      exec .presence s = .next (replied s f m src (.status .ok 0, t)))

/-- R91 to R93, R95: where a reply is drawn it takes the last of the four places, for the sender's port, with the
request's layout id, the path of the sender's entry, its source id and sequence; with no place left it is counted as
dropped. Where none is drawn nothing is queued. An idle transmitter starts on the oldest frame for its port, sending the
start byte, the length byte and the body, and the frame stays queued; when its last byte has gone it leaves the queue
and is counted as sent. That a frame's bytes stand as one until then, and that an undue start or end of sending
changes nothing, are the model's choice (logs 2, 57). -/
def Obligations.RepliesAreQueuedAndSent : Prop :=
  (
    ∀ (s u : State) (f : Frame) (m : Mark) (src : Source) (r : Result) (d : Nat),
      (let draws : Prop := m = .own ∨ (m = .consist ∧ consistPosition s = .lead)
       let path := match src with
         | .throttle i => (match entry u i with | some e => e.path | none => 0)
         | .localMaster => 0
       let body := sealBody ([f.body.getD 0 0, path] ++ le4 f.sourceId ++ le2 (locoAddress u) ++ [f.seqByte, 0x80#8]
         ++ statusPayload u r d (some src))
       (draws → u.replies.length < 4 → replied s f m src (.status r d, u) =
         { u with replies := u.replies ++ [{ port := sourcePort src, body := body, isReset := u.resetWait }] }) ∧
       (draws → 4 ≤ u.replies.length → replied s f m src (.status r d, u) = setPort (sourcePort src)
         { portState u (sourcePort src) with counters := { (portState u (sourcePort src)).counters with
             dropped := min 65535 ((portState u (sourcePort src)).counters.dropped + 1) } } u) ∧
       (¬ draws → replied s f m src (.status r d, u) = u))) ∧
  (
    ∀ (s : State) (which : Port) (before after : List OutFrame) (f : OutFrame), s.replies = before ++ f :: after →
      f.port = which → (∀ x ∈ before, x.port ≠ which) →
      (let p := portState s which
       (p.sending = none → exec (.replySendStart which) s = .next (setPort which
         { p with sending := some ([0x7E#8, BitVec.ofNat 8 f.body.length] ++ f.body) } s)) ∧
       (p.sending ≠ none → exec (.replySendStart which) s = .next s ∧
         exec (.replySent which) s = .next (setPort which
           { p with sending := none, counters := { p.counters with sent := min 65535 (p.counters.sent + 1) } }
           { s with replies := before ++ after })))) ∧
  (
    ∀ (s : State) (which : Port),
      ((portState s which).sending = none → exec (.replySent which) s = .next s) ∧
      ((∀ x ∈ s.replies, x.port ≠ which) → exec (.replySendStart which) s = .next s))

/-- R88, R55, R96, R176, R120, Table 5-6: each QUERY answers a REPORT that echoes its what code and selector and
changes none of the state it reports; a selector beyond the last one and an unknown what code are refused with
RANGE. A check record without an estimate reports free bytes in its place, the row QUERY_STATUS takes every
other what code, and the path field is the path byte's low three bits, by the model's choice (logs 18, 20, 29).
R95, R88, R55, R97, R120, Tables 5-5 and 5-6: what the bytes of a STATUS payload and of the reports show, read back
field by field: multi-byte values low byte first, the sender's hold on DRIVE, the group holders, the hold list in order,
the active faults; the published values, each hold with its age, the throttle entry at or after the start with the
claims that name it, the sound counts, and the switches of a group with their setters. That a STATUS payload shows the
published reference beside the motor state that stands is the model's choice (log 65). -/
def Obligations.QueriesReportTheState : Prop :=
  (
    ∀ s f m src t, Dispatched s f m src t → f.kind = 0x20 → 1 ≤ f.payload.length →
      (let what := byteAt f.payload 0
       let sel := byteAt f.payload 1
       let refused := fun c => exec c s = .next (replied s f m src (.status .range 0, t))
       let reports := fun c bytes u => exec c s = .next (replied s f m src (.payload 0x82 ([b8 what, b8 sel] ++ bytes), u))
       (what = 0 → (sel = 0 → reports .queryStatus (reportPublished t) t) ∧
         (sel = 1 → reports .queryStatus (reportHolds t) t) ∧ (1 < sel → refused .queryStatus)) ∧
       (what = 1 → (sel ≤ 15 → reports .queryThrottles (reportThrottles t sel) t) ∧ (15 < sel → refused .queryThrottles)) ∧
       (what = 2 → (sel ≤ 1 →
           (let c := (portState t (if sel = 0 then .radio else .localLine)).counters
            reports .queryCounters (le2 c.received ++ le2 c.framing ++ le2 c.overflows ++ le2 c.crcErrors ++ le2 c.layout
              ++ le2 c.sent ++ le2 c.dropped) t)) ∧ (1 < sel → refused .queryCounters)) ∧
       (what = 3 → (∀ r, t.faults[sel]? = some r → sel ≤ 8 → reports .queryFaults
           ([b8 (match r.status with | .clear => 0 | .active => 1 | .latched => 2), b8 r.count] ++ le4 r.firstSeen
             ++ le4 r.lastSeen ++ le2 (activeFaults t)) t) ∧ (8 < sel → refused .queryFaults)) ∧
       (what = 4 → (sel = 0 →
           (∀ e, t.motor.checkRecord.estimate = some e → reports .queryCheckResult
             ([b8 t.motor.checkRecord.result.code, b8 1] ++ le2 e ++ le4 t.motor.checkRecord.time) t) ∧
           (t.motor.checkRecord.estimate = none → reports .queryCheckResult
             ([b8 t.motor.checkRecord.result.code, b8 0] ++ le2 (Config.absentEstimate t.freeCount).toNat
               ++ le4 t.motor.checkRecord.time) { t with freeCount := t.freeCount + 1 })) ∧
         (0 < sel → refused .queryCheckResult)) ∧
       (what = 5 → (sel = 0 → reports .queryLearnResult
           ([b8 t.beacon.learn.state.code, b8 t.beacon.learn.slot, b8 t.beacon.learn.entries] ++ le4 t.beacon.learn.time) t) ∧
         (0 < sel → refused .queryLearnResult)) ∧
       (what = 6 → (sel = 0 → reports .querySound (reportSound t) t) ∧ (0 < sel → refused .querySound)) ∧
       (what = 7 → (sel ≤ 3 → reports .queryFunctions (reportFunctions t sel) t) ∧ (3 < sel → refused .queryFunctions)) ∧
       (7 < what → refused .queryStatus))) ∧
  (
    (
      ∀ (s : State) (r : Result) (d : Nat) (src : Option Source),
        (let p := statusPayload s r d src
         let holds : Prop := ∃ x, src = some x ∧ ∃ h ∈ s.drive.holders, h.source = x ∧ h.until_ = none
         p.length = 19 ∧
         byteAt p 0 = (match r with
           | .ok => 0 | .clamped => 1 | .stale => 2 | .notHolder => 3 | .claimHeld => 4 | .tableFull => 5 | .notStopped => 6
           | .cfgBusy => 7 | .cfgNone => 8 | .cfgOverrun => 9 | .cfgShort => 10 | .range => 11 | .notLocal => 12
           | .wrongAddress => 13 | .armed => 14) ∧
         (s.drive.generation < 65536 → halfAt p 1 = s.drive.generation) ∧
         (s.demand.step < 256 → byteAt p 3 = s.demand.step) ∧
         byteAt p 4 = (if s.demand.commanded = .rev then 1 else 0) + (if s.demand.applied = .rev then 2 else 0)
           + (if s.demand.pending = true then 4 else 0) ∧
         (s.demand.lastWriter = none → byteAt p 5 = 255) ∧ (s.demand.lastWriter = some .beacon → byteAt p 5 = 17) ∧
         (s.demand.lastWriter = some (.source .localMaster) → byteAt p 5 = 16) ∧
         (∀ i, i < 16 → s.demand.lastWriter = some (.source (.throttle i)) → byteAt p 5 = i) ∧
         (s.pub.R ≤ 4000 → byteAt p 6 = s.pub.R * 250 / 4000) ∧
         byteAt p 7 % 4 = (match s.drive.mode with | .free => 0 | .exclusive => 1 | .shared => 2) ∧
         (holds → byteAt p 7 / 4 = 1) ∧ (¬ holds → byteAt p 7 / 4 = 0) ∧
         (∀ g, g < 4 → (s.groups.getD g none = none → byteAt p (8 + g) = 255) ∧
           (∀ h, s.groups.getD g none = some h → ∀ c, (h.source = .localMaster ∧ c = 16) ∨ (h.source = .throttle c ∧ c < 16) →
             byteAt p (8 + g) = c + (if h.until_.isSome = true then 128 else 0))) ∧
         (∀ k, k < 6 → byteAt p (12 + k / 2) / 16 ^ (k % 2) % 16 = (match s.holds[k]? with
           | none => 0
           | some h => match h.source with
             | .emergency => 1 | .localMaster => 2 | .supply => 3 | .motorFault => 4 | .radioLoss => 5 | .beacon => 6)) ∧
         (∀ k, k < 9 → (halfAt p 15 / 2 ^ k % 2 = 1 ↔ ∃ x, s.faults[k]? = some x ∧ x.status ≠ .clear)) ∧
         byteAt p 17 % 4 = (match s.supply.state with | .track => 0 | .ride => 1 | .dark => 2 | .parked => 3) ∧
         byteAt p 17 / 4 % 8 = (match s.motor.state with
           | .stopped => 0 | .running => 1 | .reversing => 2 | .check => 3 | .fault => 4) ∧
         byteAt p 17 / 32 = (if s.unsaved = true then 4 else 0) ∧
         (d < 256 → byteAt p 18 = d))) ∧
    (
      ∀ s : State,
        (let p := reportPublished s
         let v := s.pub
         p.length = 17 ∧ (v.R < 65536 → halfAt p 0 = v.R) ∧ (v.Mf < 65536 → halfAt p 2 = v.Mf) ∧
         (v.Da < 65536 → halfAt p 4 = v.Da) ∧ (v.C < 65536 → halfAt p 6 = v.C) ∧
         (-32768 ≤ v.L → v.L ≤ 32767 → signed16 (halfAt p 8) = v.L) ∧ (s.motor.cap < 65536 → halfAt p 10 = s.motor.cap) ∧
         byteAt p 12 % 4 = (match v.phase with | .stopped => 0 | .accelerating => 1 | .decelerating => 2 | .cruising => 3) ∧
         byteAt p 12 / 4 = (match v.motorState with
           | .stopped => 0 | .running => 1 | .reversing => 2 | .check => 3 | .fault => 4) ∧
         wordAt p 13 = s.motor.odometer.toNat) ∧
        (let p := reportHolds s
         p.length = 1 + 3 * s.holds.length ∧ (s.holds.length < 256 → byteAt p 0 = s.holds.length) ∧
         (∀ k h, s.holds[k]? = some h →
           byteAt p (1 + 3 * k) = 16 * (match h.source with
               | .emergency => 1 | .localMaster => 2 | .supply => 3 | .motorFault => 4 | .radioLoss => 5 | .beacon => 6)
             + (if h.kind = .cap then 1 else 0) + (if h.phase = some .dwell then 2 else 0)
             + (if h.expiry = .absent then 0 else 4) ∧
           halfAt p (2 + 3 * k) = min 65535 ((s.partTime - h.created).toNat / 100))) ∧
        (let p := reportSound s
         p.length = 16 ∧ (s.sound.overlapDrops < 65536 → halfAt p 0 = s.sound.overlapDrops) ∧
         (s.sound.priorityDrops < 65536 → halfAt p 2 = s.sound.priorityDrops) ∧
         (∀ v vo, v < 6 → s.sound.voices[v]? = some vo → vo.underruns < 65536 → halfAt p (4 + 2 * v) = vo.underruns))) ∧
    (
      ∀ (s : State) (start : Nat), ClaimsSound s →
        (let p := reportThrottles s start
         let present := fun j => j < 16 ∧ (entry s j).isSome = true
         byteAt p 0 = ((List.range 16).filter (fun j => (entry s j).isSome)).length ∧ byteAt p 2 = set8 s 13 ∧
         (s.refusedLearns < 65536 → halfAt p 3 = s.refusedLearns) ∧
         ((∀ j, j < 16 → start ≤ j → ¬ present j) → p.length = 5 ∧ byteAt p 1 = 255) ∧
         (∀ i, i < 16 → start ≤ i → ∀ e, entry s i = some e → (∀ j, j < i → start ≤ j → ¬ present j) →
           p.length = 21 ∧ byteAt p 5 = i ∧ wordAt p 6 = e.id.toNat ∧
           byteAt p 10 = (if e.lostSince.isSome = true then 1 else 0) + 2 * (e.path.toNat % 8) ∧
           byteAt p 11 = e.quality.toNat ∧ halfAt p 12 = min 65535 ((s.partTime - e.lastHeard).toNat / 100) ∧
           halfAt p 14 = (match e.lostSince with | some t => min 65535 ((s.partTime - t).toNat / 100) | none => 0) ∧
           (e.intervalCount < 256 → byteAt p 16 = e.intervalCount) ∧ (e.dropCount < 65536 → halfAt p 17 = e.dropCount) ∧
           ((∀ j, j < 16 → i < j → ¬ present j) → byteAt p 1 = 255) ∧
           (∀ j, j < 16 → i < j → present j → (∀ k, k < j → i < k → ¬ present k) → byteAt p 1 = j) ∧
           (let code := fun (h : HolderItem) => if h.until_.isSome = true then 2 else 1
            ((∀ h ∈ s.drive.holders, h.source ≠ .throttle i) → halfAt p 19 % 4 = 0) ∧
            (∀ h ∈ s.drive.holders, h.source = .throttle i → halfAt p 19 % 4 = code h) ∧
            (∀ g, g < 4 → halfAt p 19 / 4 ^ (g + 1) % 4 = (match s.groups.getD g none with
              | some h => if h.source = .throttle i then code h else 0
              | none => 0)))))) ∧
    (
      ∀ (s : State) (g i : Nat) (sw : Switch), g < 4 → i < 8 → s.switches.length = 32 → s.switches[8 * g + i]? = some sw →
        (let p := reportFunctions s g
         p.length = 10 ∧ byteAt p 0 / 2 ^ i % 2 = (if sw.on = true then 1 else 0) ∧
         byteAt p 1 / 2 ^ i % 2 = (if sw.expiry.isSome = true then 1 else 0) ∧
         (sw.lastSetter = none → byteAt p (2 + i) = 255) ∧ (sw.lastSetter = some .beacon → byteAt p (2 + i) = 17) ∧
         (sw.lastSetter = some (.source .localMaster) → byteAt p (2 + i) = 16) ∧
         (∀ k, k < 16 → sw.lastSetter = some (.source (.throttle k)) → byteAt p (2 + i) = k))))

/-- R19, R20: CHECK. A sender without DRIVE that is not LOCAL is refused; a running check goes on; on a standing
locomotive in TRACK the first pulse is set at min(256, cap) at once, and the check starts, in the state CHECK with
progress 0, at the next control period; otherwise the record becomes NOT_RUN. A
running check drives periods 10p and 10p + 1, records the current of the second, and ends as MOVING when the back-EMF of
the next is above 40 su; the end of period 29 is OPEN with 65535 when its three currents all lie below 20 mA, and else
NORMAL with Vd × 100 / Cavg, saturating at 65535, where Vd = Vt × 256 / 1023. R21: a target above 0 abandons it, and the
same period drives. That a check accepted between a short and the next CONTROL_PERIOD starts with
that one, that an ended check leaves a duty of 0, that CHECK_COMPLETE is the control period that ends it, that
only MOTOR_SHORT finds a short, and what follows the published set, are the model's choice (logs 3, 12, 15, 17,
42, 45, 47, 63). -/
def Obligations.CheckRunsAndEnds : Prop :=
  (
    ∀ s f m src t, Dispatched s f m src t → f.kind = 0x21 →
      (let may : Prop := holdsDrive t src = true ∨ src = .localMaster
       let ready : Prop := t.motor.R = 0 ∧ t.motor.state = .stopped ∧ t.motor.Mf < 20 ∧ t.supply.state = .track
       (¬ may → exec .check s = .next (replied s f m src (.status .notHolder 0, t))) ∧
       (may → t.motor.state = .check → exec .check s = .next (replied s f m src (.status .ok 0, t))) ∧
       (may → ready → exec .check s = .next (replied s f m src (.status .ok 0, { t with motor := { t.motor with
         checkAccepted := true, checkShorted := false, Da := min 256 t.motor.cap } }))) ∧
       (may → t.motor.state ≠ .check → ¬ ready → exec .check s = .next (replied s f m src (.status .ok 0,
         { t with motor := { t.motor with
             checkRecord := { result := .notRun, estimate := none, time := t.partTime } } }))))) ∧
  (
    ∀ (s : State) (c b : Nat), s.motor.checkAccepted = true →
      exec (.controlPeriod c b) { s with phase := .running } = exec (.controlPeriod c b) { s with
        phase := .running
        motor := { s.motor with state := .check, checkProgress := some 0, checkC := [], checkAccepted := false } }) ∧
  (
    ∀ (s : State) (c b p : Nat), s.phase = .running → s.supply.state = .track → s.motor.state = .check → s.motor.checkAccepted = false →
      s.motor.checkProgress = some p → p ≤ 29 → c ≤ 8190 → b ≤ 4095 →
      (let cs := if p % 10 = 1 then s.motor.checkC ++ [c] else s.motor.checkC
       let moving : Prop := p % 10 = 2 ∧ 40 < b
       let steady : Prop := s.demand.pending = false ∧ ∀ h, findHold s .beacon = some h → h.phase ≠ some .approach
       let both := fun (t : State) => exec (.controlPeriod c b) s = .next t ∧ exec (.checkComplete c b) s = .next t
       let done_ := fun (t : State) (r : CheckResult) (e : Option Nat) =>
         t.motor.checkRecord = { result := r, estimate := e, time := s.partTime } ∧ t.motor.checkProgress = none ∧
         t.motor.checkC = [] ∧ t.motor.Da = 0 ∧ t.motor.state = .stopped ∧ t.faults = s.faults ∧
         MeasuredAndPublished .stopped c b s t ∧ FollowsPublishing s t
       (sEff s = 0 → ¬ moving → p < 29 → steady → ∃ t, exec (.controlPeriod c b) s = .next t ∧
         exec (.checkComplete c b) s = .next s ∧ MeasuredAndPublished .check c b s t ∧ FollowsPublishing s t ∧
         t.motor.state = .check ∧ t.motor.checkProgress = some (p + 1) ∧ t.motor.checkC = cs ∧
         t.motor.Da = (if p % 10 = 0 ∨ p = 9 ∨ p = 19 then min 256 t.motor.cap else 0) ∧ t.motor.R = 0 ∧ t.motor.I = 0 ∧
         t.motor.labour = 0 ∧ t.motor.checkRecord = s.motor.checkRecord ∧ t.faults = s.faults) ∧
       (sEff s = 0 → moving → ∃ t, both t ∧ done_ t .moving none) ∧
       (sEff s = 0 → p = 29 → ∀ x y z, s.motor.checkC = [x, y, z] → ∃ t, both t ∧
         (x < 20 → y < 20 → z < 20 → done_ t .openCircuit (some 65535)) ∧
         (20 ≤ x ∨ 20 ≤ y ∨ 20 ≤ z →
           done_ t .normal (some (min 65535 (s.supply.vt * 256 / 1023 * 100 / ((x + y + z) / 3)))))) ∧
       (0 < sEff s → ∃ t, exec (.controlPeriod c b) s = .next t ∧ exec (.checkComplete c b) s = .next s ∧
         t.motor.checkRecord = { result := .abandoned, estimate := none, time := s.partTime } ∧
         t.motor.checkProgress = none ∧ t.motor.state ≠ .check ∧
         t.motor.R = (moveReference (sEff s) (accelInUse s) (decelInEffect s) s.motor).R)))

/-- R89, R41: at a MID or TRAIL, CONSIST_HOLD installs its STOP, which stands in APPROACH while the published R
is above 0 and enters DWELL at R = 0, or its CAP, with no reply; at a LEAD or a part in no consist, with an
unknown hold kind, and with a short payload, the frame leaves nothing behind. -/
def Obligations.ConsistHoldIsInstalled : Prop :=
  ∀ (s : State) (which : Port) (f : Frame) (m : Mark), nextTaken s = some (which, f) → screen s which f = .matched m →
    f.kind = 0x40 →
    (let b := popIntake which s
     let p := f.payload
     let member : Prop := consistPosition s = .mid ∨ consistPosition s = .trail
     let dwell := if byteAt p 4 / 2 % 2 = 1 then none else some (byteAt p 3)
     let stop : Hold :=
       { source := .beacon, kind := .stop, capValue := 0, expiry := .absent, phase := some .approach,
         decel := if halfAt p 1 = 0 then .instant else .rate (clampNat 10 4000 (halfAt p 1)), dwell := dwell,
         reverseAtEnd := byteAt p 4 % 2 == 1, origin := some .consist, created := s.partTime }
     let cap : Hold :=
       { source := .beacon, kind := .cap, capValue := min 4000 (halfAt p 1), decel := .normal, phase := none,
         dwell := none, reverseAtEnd := false, origin := some .consist, created := s.partTime,
         expiry := if halfAt p 5 = 0 then .absent else .atOdometer (s.pub.odometer + BitVec.ofNat 32 (halfAt p 5 * 100)) }
     (7 ≤ p.length → member → byteAt p 0 = 0 → s.pub.R ≠ 0 →
       exec .consistHold s = .next { b with holds := insertHold stop s.holds }) ∧
     (7 ≤ p.length → member → byteAt p 0 = 0 → s.pub.R = 0 → dwell ≠ some 0 → HoldsDistinct s →
       exec .consistHold s = .next { b with holds := insertHold { stop with
         phase := some .dwell
         expiry := match dwell with
           | none => .absent
           | some d => .atTime (s.partTime + BitVec.ofNat 32 (d * 1000)) } s.holds }) ∧
     (7 ≤ p.length → member → byteAt p 0 = 1 → exec .consistHold s = .next { b with holds := insertHold cap s.holds }) ∧
     (p.length < 7 ∨ ¬ member ∨ 1 < byteAt p 0 → exec .consistHold s = .next b))

/-- R86, R90, R104, R164: the requests reserved for the local master. From a throttle each is refused with
NOT_LOCAL; LEARN arms a learn for a slot 0 to 7, OUTPUT_LOCAL sets an output 0 to 7, and RESET is answered OK
and waits. -/
def Obligations.LocalMasterRequests : Prop :=
  ∀ s f m src t, Dispatched s f m src t →
    (let p := f.payload
     let answered := fun c r u => exec c s = .next (replied s f m src (.status r 0, u))
     (∀ i, src = .throttle i →
       (f.kind = 0x30 → 1 ≤ p.length → answered .learn .notLocal t) ∧
       (f.kind = 0x31 → 3 ≤ p.length → answered .outputLocal .notLocal t) ∧
       (f.kind = 0x32 → answered .reset .notLocal t) ∧
       (f.kind = 0x10 → 6 ≤ p.length → byteAt p 0 = 1 → answered .cfgOpen .notLocal t)) ∧
     (src = .localMaster →
       (f.kind = 0x30 → 1 ≤ p.length → 7 < byteAt p 0 → answered .learn .range t) ∧
       (f.kind = 0x30 → 1 ≤ p.length → byteAt p 0 ≤ 7 → answered .learn .armed { t with beacon := { t.beacon with
         state := .learnArmed, closed := false, capture := [],
         learn := { state := .armed, slot := byteAt p 0, entries := 0, time := t.partTime },
         learnExpiry := some (t.partTime + 30000) } }) ∧
       (f.kind = 0x31 → 3 ≤ p.length → (7 < byteAt p 0 ∨ 1 < byteAt p 1) → answered .outputLocal .range t) ∧
       (f.kind = 0x31 → 3 ≤ p.length → byteAt p 0 ≤ 7 → byteAt p 1 ≤ 1 → ∃ u, answered .outputLocal .ok u ∧
         u = { t with outputs := u.outputs } ∧
         (∀ n, n ≠ byteAt p 0 → u.outputs[n]? = t.outputs[n]?) ∧
         (∀ o, t.outputs[byteAt p 0]? = some o → u.outputs[byteAt p 0]? = some
           (if o.mode = .localLevel ∧ byteAt p 1 = 0 then
             { o with mode := .function, localLevel := byteAt p 2, fade := 0, counter := 0, lastDemand := false }
            else { o with mode := if byteAt p 1 = 1 then .localLevel else .function, localLevel := byteAt p 2 }))) ∧
       (f.kind = 0x32 → answered .reset .ok { t with resetWait := true })))

/-! ### Expiries -/

/-- R17, R100, R112, R139, R142, R165, R172: each timer acts just when part time has reached it. The retry of an
unlatched motor fault removes its record and its hold; a tripped output group becomes NORMAL; a momentary switch
goes off with its last setter kept; a puff ends in the idle fan at the idle level as it now stands (R135); the fan of a sensor fault stops; a learn is
cancelled; a silent transaction is aborted. An
expired switch gives the Sound Engine the triggers of the cues that end and begin (R102, R116), in the order of log 17.
That an undue command changes nothing is the model's choice (log 2).
-/
def Obligations.DueTimersAct : Prop :=
  ∀ s : State,
    (∀ k due, s.motor.fault = some { kind := k, retry := some due } →
      (reached s.partTime due = true → exec .faultRetry s = .next { s with
        motor := { s.motor with fault := none, state := .stopped }
        holds := s.holds.filter (fun h => h.source != .motorFault) }) ∧
      (reached s.partTime due = false → exec .faultRetry s = .next s)) ∧
    (∀ k, s.motor.fault = some { kind := k, retry := none } → exec .faultRetry s = .next s) ∧
    (∀ g due, s.trips[g]? = some (some due) →
      (reached s.partTime due = true → exec (.groupRetry g) s = .next { s with trips := s.trips.set g none }) ∧
      (reached s.partTime due = false → exec (.groupRetry g) s = .next s)) ∧
    (∀ i sw due, s.switches[i]? = some sw → sw.expiry = some due →
      (reached s.partTime due = true → ∃ t, exec (.momentaryExpiry i) s = .next t ∧
        t.switches = s.switches.set i { sw with on := false, expiry := none } ∧
        (asked t 41 = asked s 41 → t.smoke = s.smoke) ∧
        (let x := cuesHeard s { s with switches := t.switches }
         t.sound = x.sound ∧ t.port = x.port) ∧
        t.demand = (if asked s 42 = false ∧ asked t 42 = true then { s.demand with step := 0 } else s.demand) ∧
        t = { s with switches := t.switches, sound := t.sound, port := t.port, smoke := t.smoke, demand := t.demand,
                     freeCount := t.freeCount }) ∧
      (reached s.partTime due = false → exec (.momentaryExpiry i) s = .next s)) ∧
    (∀ due, s.smoke.puffEnd = some due →
      (reached s.partTime due = true → s.smoke.fan = .puff → exec .puffEnd s = .next { s with smoke := { s.smoke with
        fan := .idle, puffEnd := none, fanLevel := set8 s 230, inUse := { s.smoke.inUse with idle := set8 s 230 } } }) ∧
      (reached s.partTime due = false → exec .puffEnd s = .next s)) ∧
    (∀ due, s.smoke.fault = some (.sensor due) → s.smoke.fan ≠ .puff →
      (reached s.partTime due = true → exec .fanStop s = .next { s with smoke := { s.smoke with
        fan := .stopped, puffEnd := none, fanLevel := 0 } }) ∧
      (reached s.partTime due = false → exec .fanStop s = .next s)) ∧
    (∀ due, s.beacon.learnExpiry = some due →
      (reached s.partTime due = true → exec .learnExpiry s = .next { s with beacon := { s.beacon with
        learn := { s.beacon.learn with state := .cancelled, time := s.partTime }
        learnExpiry := none
        state := if s.beacon.state = .learnArmed then .idle
          else if s.beacon.state = .learnCapture then .capture else s.beacon.state } }) ∧
      (reached s.partTime due = false → exec .learnExpiry s = .next s)) ∧
    (s.txn.state ≠ .closed →
      (reached s.partTime (s.txn.lastFrame + 2000) = true → ∃ t, exec .cfgTimeout s = .next t ∧ t.txn.state = .closed ∧
        t.txn.staged = [] ∧ t = { s with txn := t.txn, sound := t.sound, port := t.port }) ∧
      (reached s.partTime (s.txn.lastFrame + 2000) = false → exec .cfgTimeout s = .next s))

/-! ### Chapter 6: outputs -/

/-- R105 to R108, R111: one output period. A NORMAL group above 500 mA trips for 2 s and reports OUTPUT_OVERLOAD;
outputs of a tripped group, and every output in DARK, are off; in TRACK an output in LOCAL mode shows its local
level and a steady one with no gate shows its brightness while its feature is asked, both under the dim factor;
nothing but the outputs, the trips, the light demand and the Fault List changes. -/
def Obligations.OutputPeriodLightsTheLamps : Prop :=
  ∀ (s : State) (ma0 ma1 : Nat), s.phase = .running → s.outputs.length = 8 → s.trips.length = 2 →
    (let trips := fun (g ma : Nat) => s.trips[g]? = some none ∧ 500 < ma
     let report := fun (l : List FaultRecord) => updateAt l 3 (fun r => r.report false s.partTime)
     ∃ t, exec (.outputPeriod ma0 ma1) s = .next t ∧
      (∀ g ma, (g = 0 ∧ ma = ma0) ∨ (g = 1 ∧ ma = ma1) →
        (trips g ma → t.trips[g]? = some (some (s.partTime + 2000))) ∧ (¬ trips g ma → t.trips[g]? = s.trips[g]?)) ∧
      (¬ trips 0 ma0 → ¬ trips 1 ma1 → t.faults = s.faults) ∧
      ((trips 0 ma0 ∧ ¬ trips 1 ma1) ∨ (¬ trips 0 ma0 ∧ trips 1 ma1) → t.faults = report s.faults) ∧
      (trips 0 ma0 → trips 1 ma1 → t.faults = report (report s.faults)) ∧
      (∀ n o, t.outputs[n]? = some o → (groupTripped t (n / 4) = true ∨ s.supply.state = .dark) → o.final = 0) ∧
      (∀ n o, s.outputs[n]? = some o → groupTripped t (n / 4) = false → s.supply.state = .track →
        (o.mode = .localLevel →
          t.outputs[n]? = some { o with final := o.localLevel * s.supply.grants.dim / 256 }) ∧
        (o.mode = .function → outByte s n 0 = 0 → outByte s n 2 = 0 → t.outputs[n]? = some { o with
          lastDemand := asked s (1 + n)
          final := (if asked s (1 + n) = true then outByte s n 1 else 0) * s.supply.grants.dim / 256 })) ∧
      (s.supply.state = .dark → t.lightDemand = 0) ∧
      t = { s with outputs := t.outputs, lightDemand := t.lightDemand, trips := t.trips, faults := t.faults })

/-- R105 to R109: what an output of a group that is not tripped shows in one output period, from its eight setting
bytes. In FUNCTION mode it is lit while its feature is asked, in HEAD mode in its direction, in MOVING mode in motion;
STEADY, FLICKER, STROBE, FADE and FIREBOX shape its brightness; a lead-only output is dark at a MID or TRAIL, and a
latched fault blinks one that asks for it; the dim factor scales it, DARK puts it out, PARKED follows its park
behaviour. The light demand is the sum of the current settings of the outputs that are lit. When a flicker value is drawn
is the model's choice (log 27). -/
def Obligations.OutputEffectsFollowTheirSettings : Prop :=
  ∀ (s t : State) (ma0 ma1 : Nat), s.phase = .running → s.outputs.length = 8 → s.trips.length = 2 →
    exec (.outputPeriod ma0 ma1) s = .next t →
    (let lit := fun (n : Nat) =>
       let mode := outByte s n 2
       asked s (1 + n) || (mode % 4 == 1 && s.demand.applied == (if mode / 4 % 2 = 1 then .rev else .fwd))
         || (mode % 4 == 2 && s.pub.phase != .stopped)
     let effect := fun (n : Nat) (o : Output) =>
       let code := outByte s n 0
       let b := outByte s n 1
       let f := outByte s n 3
       let p := outByte s n 5
       let depth := if code = 4 then (clamp 0 255 ((outByte s n 6 : Int) + s.pub.L)).toNat else outByte s n 6
       let target := if lit n = true then b else 0
       let fade := if f = 0 then target else if o.fade < target then min target (o.fade + max 1 (b / f))
         else max target (o.fade - max 1 (b / f))
       let next := if p ≤ o.counter + 1 then 0 else o.counter + 1
       let strobe := if o.lastDemand = true then next else 0
       let draws := p ≤ o.counter + 1 ∨ o.lastDemand = false
       let gen := if draws then (o.generator * 25173 + 13849) % 65536 else o.generator
       let drawn := if draws then gen / 256 else o.drawn
       if code = 3 then (fade, { o with fade := fade })
       else if lit n = false then (0, o)
       else if code = 1 ∨ code = 4 then
         (b - b * depth * drawn / 65025, { o with counter := next, generator := gen, drawn := drawn })
       else if code = 2 then (if strobe < max 1 (p / 4) then b else 0, { o with counter := strobe })
       else (b, o)
     let shown := fun (n : Nat) (o : Output) =>
       let mode := outByte s n 2
       if o.mode = .localLevel then o.localLevel
       else if 64 ≤ mode % 128 ∧ (∃ r ∈ s.faults, r.status = .latched) then (if s.partTime.toNat % 1000 < 500 then 255 else 0)
       else if mode / 8 % 2 = 1 ∧ IsMember s then 0 else (effect n o).1
     let park := fun (n : Nat) (o : Output) =>
       if s.supply.state = .parked ∧ o.mode = .function then outByte s n 2 / 16 % 4 else 2
     let dark : Prop := s.supply.state = .dark
     (∀ n o, s.outputs[n]? = some o → groupTripped t (n / 4) = false →
       (let level := shown n o * s.supply.grants.dim / 256
        let final := if dark then 0 else if park n o = 0 then 0 else if park n o = 1 then min level (outByte s n 7) else level
        (o.mode = .localLevel → t.outputs[n]? = some { o with final := final }) ∧
        (o.mode = .function →
          t.outputs[n]? = some { (effect n o).2 with lastDemand := lit n, final := final }))) ∧
     (∀ n o, s.outputs[n]? = some o → groupTripped t (n / 4) = true →
       (o.mode = .localLevel → t.outputs[n]? = some { o with final := 0 }) ∧
       (o.mode = .function → t.outputs[n]? = some { (effect n o).2 with lastDemand := lit n, final := 0 })) ∧
     t.lightDemand = (s.outputs.mapIdx (fun n o =>
       if 0 < shown n o ∧ groupTripped t (n / 4) = false ∧ ¬ dark ∧ park n o ≠ 0 then 10 * outByte s n 4 else 0)).sum)

/-! ### Chapter 7: the Sound Engine -/

/-- R127, R128, R126, R131: a sample event sends the saturated sum of the voices' contributions under the master
volume, a silent voice giving 0, and every voice that has data moves on; a volume step moves the master volume toward its target by up to 8 without
passing it; an envelope step raises a rising envelope by 16 up to 256, lowers a falling one by 16, and at 0
frees the voice. That a voice takes its gain from the directory entry it has kept, and the passes left, the envelope and
the start number of an IDLE voice, are the model's choice (logs 21, 49). -/
def Obligations.SoundMixesAndGlides : Prop :=
  ∀ s : State, s.phase = .running →
    (let sent := clamp (-32768) 32767 (Int.tdiv ((s.sound.voices.map (fun vo =>
        match vo.cue, vo.clip with
        | some c, some cl =>
          Int.tdiv (Int.tdiv (Int.tdiv (voiceSample s vo * (cueByte s c 1 : Int)) 256 * (cl.gain : Int)) 256 * (vo.env : Int)) 256
        | _, _ => 0)).sum * (s.sound.master : Int)) 256)
     ∃ t, exec .sampleEvent s = .next t ∧ t = { s with sound := t.sound, port := t.port } ∧
       t.sound.master = s.sound.master ∧ t.sound.sample = sent ∧
       t = ((List.range 6).filter (fun v => (voice s v).hasData)).foldl (fun u v => advanceVoice v u)
         { s with sound := { s.sound with sample := sent } }) ∧
    (∀ vo : Voice, vo.state = .idle ∨ vo.state = .prime ∨ vo.wait ≠ .none → voiceSample s vo = 0) ∧
    (let loudest := min (set8 s 448) s.supply.grants.volumeCap
     let target := if asked s featMute = true then 0 else if s.supply.state = .ride then min loudest 128 else loudest
     exec .volumeStep s = .next { s with sound := { s.sound with
       master := if s.sound.master < target then min target (s.sound.master + 8)
         else max target (s.sound.master - 8) } }) ∧
    (∀ v vo, s.sound.voices[v]? = some vo → v < 6 →
      (vo.state = .idle ∨ vo.envDir = .steady → exec (.envelopeStep v) s = .next s) ∧
      (vo.state ≠ .idle → vo.envDir = .rising → exec (.envelopeStep v) s = .next { s with sound := { s.sound with
        voices := s.sound.voices.set v { vo with
          env := min 256 (vo.env + 16), envDir := if 240 ≤ vo.env then .steady else .rising } } }) ∧
      (vo.state ≠ .idle → vo.envDir = .falling → 16 < vo.env → exec (.envelopeStep v) s = .next { s with
        sound := { s.sound with voices := s.sound.voices.set v { vo with env := vo.env - 16 } } }) ∧
      (vo.state ≠ .idle → vo.envDir = .falling → vo.env ≤ 16 → ∃ t, exec (.envelopeStep v) s = .next t ∧
        t = { s with port := t.port, sound := { s.sound with
          voices := s.sound.voices.set v { resetVoice with resident := vo.resident, underruns := vo.underruns } } }))

/-- R114 to R116, R118, R123 to R125: a start request for a cue. In QUIET, for a cue with no clip, and for an exhaust cue
that finds none it changes nothing. A voice that plays the cue restarts it on its own partition. Otherwise its entries
leave the stacks and it starts on the lowest-numbered free voice whose partition fits, else on the voice of the lowest
lower priority, then smallest start number, whose displaced cue is stacked when it is resumable; else a drop is counted,
for overlap when a voice was passed over for its partition. A fading voice is left alone, as one that does not
play its cue, and the rotation moves on for a dropped start too, by the model's choice (logs 23, 24). -/
def Obligations.StartRequestsAreTaken : Prop :=
  ∀ (s : State) (c : Nat) (held : Bool), VoicesSound s → (∀ d ∈ s.sound.directory, 0 < d.len) →
    (let u := startRequest c held s
     let exhaust : Prop := exhaustCue s = some c
     let may : Prop := s.sound.mode = .normal ∧
       ((∃ ph cl, HasClip s c ph cl) ∨ exhaust ∧ ∃ d ∈ s.sound.directory, d.variant ≠ 0)
     (¬ may → u = s) ∧
     (exhaust → (∀ cl rot, ¬ ExhaustChoice s c cl rot) → u = s) ∧
     (∀ ph cl rot, may →
       (¬ exhaust ∧ FirstPresent s c .attack ph cl ∧ rot = s.sound.rotation) ∨
         (exhaust ∧ ph = .attack ∧ ExhaustChoice s c cl rot) →
       (let begun := fun (vo : Voice) => ({ vo with
          cue := some c, passes := if held = true then 1 else cueByte s c 5, env := 256, envDir := .steady
          exhaust := exhaustCue s == some c } : Voice)
        let plays := fun (v : Nat) => (∃ vo, s.sound.voices[v]? = some vo ∧ vo.state ≠ .idle ∧ vo.envDir ≠ .falling ∧
          vo.cue = some c : Prop)
        let part := fun (v : Nat) =>
          ({ start := min 63 (set8 s (459 + 2 * v))
             size := min (min 32 (set8 s (460 + 2 * v) % 64)) (64 - min 63 (set8 s (459 + 2 * v)))
             dbl := decide (128 ≤ set8 s (460 + 2 * v)) } : Partition)
        let enabled := fun (v : Nat) => (0 < (part v).size ∧ ((part v).dbl = true → 1 < (part v).size) : Prop)
        let apart := fun (p q : Partition) => decide (p.start + p.size ≤ q.start) || decide (q.start + q.size ≤ p.start)
        let fits := fun (v : Nat) => (∀ w, w < 6 → w ≠ v → ∀ x, s.sound.voices[w]? = some x → x.state ≠ .idle → ∀ q, x.part = some q →
          apart (part v) q = true : Prop)
        let free := fun (v : Nat) => (enabled v ∧ ∃ x, s.sound.voices[v]? = some x ∧ x.state = .idle : Prop)
        let priority := fun (d : Nat) => cueByte s d 0 % 8
        let lower := fun (v : Nat) => (enabled v ∧ ∃ x, s.sound.voices[v]? = some x ∧ x.state ≠ .idle ∧
          x.envDir ≠ .falling ∧ ∃ d, x.cue = some d ∧ priority d < priority c : Prop)
        let rest := fun (x : Voice) => x.stack.filter (fun e => e.cue != c)
        let starts := fun (v : Nat) (vo : Voice) (stack : List StackEntry) =>
          (GoesToPrime v { begun vo with startNo := s.sound.startCounter + 1, part := some (part v), stack := stack }
             ph cl 0 s u ∧
           (∀ w, w < 6 → w ≠ v → ∀ x, s.sound.voices[w]? = some x → u.sound.voices[w]? = some { x with
             stack := rest x
             resident := x.resident.bind (fun r => if apart (part v) r.2 = true then some r else none) }) ∧
           u = { s with port := u.port, sound := { s.sound with
             voices := u.sound.voices, rotation := rot, startCounter := s.sound.startCounter + 1 } } : Prop)
        let dropped : State := { s with sound := { s.sound with
          rotation := rot, voices := s.sound.voices.map (fun x => { x with stack := rest x }) } }
        (∀ v, v < 6 → plays v → (∀ w, w < v → ¬ plays w) → ∀ vo, s.sound.voices[v]? = some vo → ∀ p, vo.part = some p → 0 < p.size →
          GoesToPrime v (begun vo) ph cl 0 s u ∧ (∀ w, w ≠ v → u.sound.voices[w]? = s.sound.voices[w]?) ∧
          u = { s with port := u.port, sound := { s.sound with voices := u.sound.voices, rotation := rot } }) ∧
        ((∀ v, v < 6 → ¬ plays v) →
          (∀ v, v < 6 → ∀ vo, s.sound.voices[v]? = some vo → free v → fits v → (∀ w, w < v → ¬ (free w ∧ fits w)) → starts v vo []) ∧
          (∀ v, v < 6 → (∀ w, w < 6 → ¬ (free w ∧ fits w)) → lower v → fits v →
            ∀ vo, s.sound.voices[v]? = some vo → ∀ d, vo.cue = some d → ∀ q, vo.state = q.voiceState ∨ vo.state = .prime ∧ vo.nextPhase = some q →
            (∀ w, w < 6 → w ≠ v → lower w → fits w → ∀ x, s.sound.voices[w]? = some x → ∀ e, x.cue = some e →
              priority d < priority e ∨ priority d = priority e ∧ vo.startNo.toNat < x.startNo.toNat) →
            starts v vo (if cueByte s d 0 / 8 % 2 = 1
              then ({ cue := d, phase := q, pos := vo.pos, passes := vo.passes } :: rest vo).take 2 else rest vo)) ∧
          ((∀ v, v < 6 → ¬ ((free v ∨ lower v) ∧ fits v)) →
            ((∃ v, v < 6 ∧ (free v ∨ lower v)) → u = { dropped with sound := { dropped.sound with
              overlapDrops := min 65535 (s.sound.overlapDrops + 1) } }) ∧
            ((∀ v, v < 6 → ¬ (free v ∨ lower v)) → u = { dropped with sound := { dropped.sound with
              priorityDrops := min 65535 (s.sound.priorityDrops + 1) } }))))))

/-- R115, R121, R126, R131: a phase that ends goes on to the next phase present; the last one, and an exhaust beat, end
the cue. With an empty stack the voice becomes IDLE, as a fading voice does at once. Otherwise the top entry is resumed
on the same partition under its start number, from silence with the envelope rising: its own phase at its position, a
phase gone at the next one present from its start, the exhaust cue with a clip chosen anew; an entry with nothing to play
is popped too. That an exhaust entry stacked in LOOP or RELEASE resumes
from the start, that a cue plays on as it began when the exhaust cue setting changes, and the passes left, the envelope and the
start number of an IDLE voice, are the model's choice (logs 49, 51, 59). A resumed position at or beyond its clip's
length (log 25) is not spoken of. -/
def Obligations.CueEndsAndResumes : Prop :=
  ∀ s v vo, s.sound.voices[v]? = some vo → ∀ p, vo.part = some p → 0 < p.size → VoicesSound s →
    (∀ d ∈ s.sound.directory, 0 < d.len) →
    (let next := fun (c : Nat) (ph : CuePhase) (q : CuePhase) (cl : Clip) =>
       (q ∈ ph.after ∧ HasClip s c q cl ∧ ∀ r, r ∈ ph.after → q ∈ r.after → ∀ d, ¬ HasClip s c r d : Prop)
     (∀ c ph, vo.cue = some c → vo.state = ph.voiceState →
       (vo.envDir = .falling → BecomesIdle v vo s (phaseEnd v s)) ∧
       (vo.envDir ≠ .falling → vo.exhaust = true ∨ (∀ q cl, ¬ next c ph q cl) → phaseEnd v s = cueEnd v s) ∧
       (vo.envDir ≠ .falling → vo.exhaust = false → ∀ q cl, next c ph q cl →
         GoesToPrime v vo q cl 0 s (phaseEnd v s) ∧ sameButVoice v s (phaseEnd v s))) ∧
     (vo.stack = [] → BecomesIdle v vo s (cueEnd v s)) ∧
     (∀ e below, vo.stack = e :: below →
       (let u := cueEnd v s
        let x : Voice := { vo with
          cue := some e.cue, passes := e.passes, stack := below, env := 0, envDir := .rising
          exhaust := exhaustCue s == some e.cue }
        (exhaustCue s ≠ some e.cue → ∀ cl len lp, HasClip s e.cue e.phase cl → SoundsIn p cl len lp → e.pos < len →
          GoesToPrime v x e.phase cl e.pos s u ∧ sameButVoice v s u) ∧
        (exhaustCue s ≠ some e.cue → (∀ d, ¬ HasClip s e.cue e.phase d) → ∀ q cl, next e.cue e.phase q cl →
          GoesToPrime v x q cl 0 s u ∧ sameButVoice v s u) ∧
        (exhaustCue s = some e.cue → ∀ cl rot len lp, ExhaustChoice s e.cue cl rot → SoundsIn p cl len lp →
          (e.phase = .attack → e.pos < len) → 0 < len →
          GoesToPrime v x .attack cl (if e.phase = .attack then e.pos else 0) s u ∧
          u = { s with port := u.port, sound := { s.sound with voices := u.sound.voices, rotation := rot } } ∧
          ∀ w, w ≠ v → u.sound.voices[w]? = s.sound.voices[w]?) ∧
        ((exhaustCue s ≠ some e.cue ∧ ∀ q d, q = e.phase ∨ q ∈ e.phase.after → ¬ HasClip s e.cue q d) ∨
          (exhaustCue s = some e.cue ∧ ∀ cl rot, ¬ ExhaustChoice s e.cue cl rot) →
          u = cueEnd v (setVoice v { vo with stack := below } s)))))

/-- R115, R121, R122, R127, R131: a voice that has played a sample. At the loop point it wraps while its trigger is held
or passes are left, and otherwise plays on to the clip's end, a double-buffered one from a fresh read at the loop point
that counts no underrun; at the clip's end the phase ends. A double-buffered voice whose playing half is used up turns to
the other half, asks for its next run into the half used up, and counts an underrun when the other half is not FULL,
unless it fades. That the run from the loop point goes into half 0 with both halves emptied is the model's choice (log
60). -/
def Obligations.VoicesStreamAndAdvance : Prop :=
  ∀ s v vo, s.sound.voices[v]? = some vo → ∀ p, vo.part = some p → ∀ cl, vo.clip = some cl → ∀ c, vo.cue = some c →
    ∀ len lp, SoundsIn p cl len lp →
    vo.state = .attack ∨ vo.state = .loop ∨ vo.state = .release →
    (let t := advanceVoice v s
     let pos := vo.pos + 1
     let held : Prop := asked s (9 + c) = true ∨ (s.sound.ambient = true ∧ set8 s 457 = c ∧ c ≤ 31)
     let atLoop : Prop := vo.state = .loop ∧ pos = lp
     let wraps : Prop := held ∨ 1 < vo.passes
     let wrap := match cl.loop with | some (a, _) => if a < lp then a else 0 | none => 0
     let asksFor := fun (a n : Nat) =>
       (AsksFlash { who := .voice v, op := .read (cl.addr + 2 * a) (2 * n), entered := s.partTime } t : Prop)
     let runFromThere := fun (a : Nat) => min (p.size / 2 * 64) ((if vo.state = .loop ∧ a < lp then lp else len) - a)
     let turnsAt := fun (a : Nat) =>
       (∃ x, t.sound.voices[v]? = some x ∧ x.pos = a ∧ x.playing = !vo.playing ∧ x.state = vo.state ∧ x.cue = vo.cue ∧
         (∀ r, vo.half (!vo.playing) = .full r → x.half x.playing = .full r ∧ x.wait = vo.wait ∧
           x.underruns = vo.underruns ∧
           (∀ b, vo.nextRun = some b → vo.envDir ≠ .falling → voiceOutstanding v s = false →
             x.half vo.playing = .filling { start := b, len := runFromThere b } ∧ asksFor b (runFromThere b))) ∧
         ((∀ r, vo.half (!vo.playing) ≠ .full r) →
           (vo.envDir = .falling → x.wait = .starved ∧ x.underruns = vo.underruns) ∧
           (vo.envDir ≠ .falling → x.wait = .underrun ∧ x.underruns = min 65535 (vo.underruns + 1))) : Prop)
     let movesTo := fun (a n : Nat) =>
       t = { s with sound := { s.sound with voices := s.sound.voices.set v { vo with pos := a, passes := n } } }
     let used : Prop := ∀ r, vo.half vo.playing = .full r → r.start + r.len ≤ pos
     (atLoop → held → p.dbl = false → movesTo wrap vo.passes) ∧
     (atLoop → ¬ held → 1 < vo.passes → p.dbl = false → movesTo wrap (vo.passes - 1)) ∧
     (atLoop → wraps → p.dbl = true → turnsAt wrap ∧ sameButVoice v s t) ∧
     (atLoop → ¬ wraps → len ≤ lp → t = phaseEnd v s) ∧
     (atLoop → ¬ wraps → lp < len → p.dbl = false → movesTo pos vo.passes) ∧
     (atLoop → ¬ wraps → lp < len → p.dbl = true → vo.envDir ≠ .falling → 0 < p.size / 2 →
       (let n := min (p.size / 2 * 64) (len - lp)
        ∃ x, t.sound.voices[v]? = some x ∧ x.pos = lp ∧ x.half0 = .filling { start := lp, len := n } ∧ x.half1 = .empty ∧
        x.playing = false ∧ x.wait = .loopRead ∧ x.underruns = vo.underruns ∧ asksFor lp n) ∧ sameButVoice v s t) ∧
     (¬ atLoop → len ≤ pos → t = phaseEnd v s) ∧
     (¬ atLoop → pos < len → p.dbl = false ∨ ¬ used → movesTo pos vo.passes) ∧
     (¬ atLoop → pos < len → p.dbl = true → used → turnsAt pos ∧ sameButVoice v s t))

/-- R130 to R133: when a cause of QUIET arises the mode becomes QUIET, the ambient trigger ends, every stack is cleared, a
voice in PRIME becomes IDLE and every other one begins to fade, asking the flash for nothing more. When the last cause
goes the mode is NORMAL again, and on TRACK the ambient cue begins. While NORMAL stands, a return to TRACK begins the
ambient cue again only if it neither plays nor is stacked. That a fading voice does not play its cue, that the ambient
trigger's end does nothing while a feature holds the cue, that a silent voice past PRIME fades like any other, and the
passes left, the envelope and the start number of an IDLE voice, are the model's choice (logs 24, 37, 49, 61). -/
def Obligations.QuietComesAndGoes : Prop :=
  ∀ s : State, s.sound.voices.length = 6 →
    (let cause : Prop := s.supply.state = .parked ∨ s.supply.state = .dark ∨
       (s.txn.state ≠ .closed ∧ s.txn.target = .bank) ∨ s.job ≠ .none ∨ s.sound.dirPending = true
     let t := updateMode s
     let ambient := fun (q : State) =>
       if set8 s 457 ≤ 31 then startRequest (set8 s 457) true { q with sound := { q.sound with ambient := true } }
       else { q with sound := { q.sound with ambient := true } }
     let normal : State := { s with sound := { s.sound with mode := .normal } }
     (s.sound.mode = .normal → cause →
       t = { s with port := t.port, sound := { s.sound with mode := .quiet, ambient := false, voices := t.sound.voices } } ∧
       ∀ v, v < 6 → ∀ x, s.sound.voices[v]? = some x →
         (x.state = .idle → t.sound.voices[v]? = some { x with stack := [] }) ∧
         (x.state = .prime → voiceOutstanding v t = false ∧
           t.sound.voices[v]? = some { resetVoice with resident := x.resident, underruns := x.underruns }) ∧
         (x.state ≠ .idle → x.state ≠ .prime → voiceOutstanding v t = false ∧
           t.sound.voices[v]? = some { x with
             passes := if s.sound.ambient = true ∧ x.cue = some (set8 s 457) ∧ set8 s 457 ≤ 31 ∧
               asked s (9 + set8 s 457) = false then 1 else x.passes
             stack := [], envDir := .falling
             half0 := match x.half0 with | .filling _ => .empty | h => h
             half1 := match x.half1 with | .filling _ => .empty | h => h
             wait := if x.wait = .none then .none else .starved })) ∧
     (s.sound.mode = .quiet → ¬ cause → s.supply.state = .track → t = ambient normal) ∧
     (s.sound.mode = .quiet → ¬ cause → s.supply.state ≠ .track → t = normal) ∧
     (s.sound.mode = .normal → ¬ cause → t = s ∧
       (s.supply.state = .track → set8 s 457 ≤ 31 →
         ((∀ x ∈ s.sound.voices, (x.cue = some (set8 s 457) → x.state = .idle ∨ x.envDir = .falling) ∧ ∀ e ∈ x.stack, e.cue ≠ set8 s 457) →
           soundSupplyChange s = ambient s) ∧
         ((∃ x ∈ s.sound.voices, (x.cue = some (set8 s 457) ∧ x.state ≠ .idle ∧ x.envDir ≠ .falling) ∨ ∃ e ∈ x.stack, e.cue = set8 s 457) →
           soundSupplyChange s = s))) ∧
     (s.sound.mode = .quiet → cause → t = s))

/-- R121, R175: the data of a voice's read enters its partition and no other byte of the voice buffer RAM; a
single-buffered voice in PRIME then plays and holds the clip as resident; the half of a double-buffered one is FULL, and a
voice in PRIME plays it and asks for its next run into the other half, as one that underran goes on. A failed read reports FLASH_ERROR and
writes nothing, and a discarded one leaves all but the port alone. That the second run is asked for when the first has
arrived is the model's choice (log 22). -/
def Obligations.VoiceDataEntersItsPartition : Prop :=
  ∀ (s : State) (v a n : Nat) (at_ : Time), s.phase = .running → a + n ≤ flashEnd → MemoriesCanonical s →
    (s.port.busy = some ({ who := .voice v, op := .read a n, entered := at_ }, false) →
      (∃ t, exec (.voiceReadComplete true) s = .next t ∧
        t = { s with sound := t.sound, port := t.port, voiceRam := t.voiceRam } ∧
        (∀ x, Mem.read ramBlank t.voiceRam x =
          if fillAddr (voice s v) ≤ x ∧ x < fillAddr (voice s v) + n
          then Mem.read flashBlank s.flash (a + (x - fillAddr (voice s v))) else Mem.read ramBlank s.voiceRam x) ∧
        (∀ vo p cl ph, s.sound.voices[v]? = some vo → vo.part = some p → p.dbl = false → vo.clip = some cl →
          vo.state = .prime → vo.nextPhase = some ph → vo.pos < playLen p cl → t.sound.voices[v]? = some { vo with
            state := ph.voiceState, nextPhase := none, resident := some (cl.id, p) }) ∧
        (∀ vo, s.sound.voices[v]? = some vo → ∀ p, vo.part = some p → p.dbl = true → ∀ cl, vo.clip = some cl →
          ∀ ph r, vo.half0 = .filling r → vo.playing = false → vo.half1 = .empty →
          vo.state = .prime ∧ vo.nextPhase = some ph ∨ vo.state = ph.voiceState → ∃ x, t.sound.voices[v]? = some x ∧
            x.state = ph.voiceState ∧ x.half0 = .full r ∧ x.playing = false ∧ x.wait = .none ∧ x.pos = vo.pos ∧
            (∀ b len lp, vo.nextRun = some b → SoundsIn p cl len lp → vo.envDir ≠ .falling →
              (∀ q ∈ s.port.waiting, q.who ≠ .voice v) →
              (let n := min (p.size / 2 * 64) ((if ph = .loop ∧ b < lp then lp else len) - b)
               x.half1 = .filling { start := b, len := n } ∧
               AsksFlash { who := .voice v, op := .read (cl.addr + 2 * b) (2 * n), entered := s.partTime } t))) ∧
        (∀ vo, s.sound.voices[v]? = some vo → ∀ p, vo.part = some p → p.dbl = true → ∀ cl, vo.clip = some cl →
          ∀ r, (∀ q, vo.half0 ≠ .filling q) → vo.half1 = .filling r → ∃ x, t.sound.voices[v]? = some x ∧ x.half1 = .full r ∧
            (vo.playing = true → x.wait = .none))) ∧
      (∃ t, exec (.voiceReadComplete false) s = .next t ∧
        t = { s with sound := t.sound, port := t.port, faults := updateAt s.faults 7 (fun r => r.report false s.partTime) })) ∧
    (∀ ok, s.port.busy = some ({ who := .voice v, op := .read a n, entered := at_ }, true) →
      exec (.voiceReadComplete ok) s = .next { s with port := { s.port with busy := none } })

/-- R175, R113: the idle port starts the lowest-numbered voice's request, else the oldest one. The directory read
rebuilds the copy, or empties it with FLASH_ERROR when the read fails or its contents are refused, and ends a BANK
job. Of the directory's contents: a count above 64 or a CRC that does not match refuses the whole; else the copy takes
the entries in flash order but those with id 255, with length 0, or with the id of an earlier entry it took, a variant
above 3 as none, and the loop points where the flag is set and start < end ≤ length. That the directory is read by one
read of 1284 bytes, and that an entry left out takes no id, are the model's choice (logs 26, 52). -/
def Obligations.FlashPortServesInOrder : Prop :=
  (∀ bs : List Byte,
    (let n := halfAt bs 0
     let good : Prop := n ≤ 64 ∧ crcBytes ((bs.drop 4).take (20 * n)) = (bs.drop 2).take 2
     let id := fun (i : Nat) => byteAt bs (4 + 20 * i)
     let len := fun (i : Nat) => wordAt bs (12 + 20 * i)
     let start := fun (i : Nat) => wordAt bs (16 + 20 * i)
     let stop := fun (i : Nat) => wordAt bs (20 + 20 * i)
     let counts := fun (i : Nat) => decide (id i ≠ 255) && decide (len i ≠ 0) &&
       (List.range i).all (fun j => decide (id j ≠ id i) || decide (len j = 0))
     let clip := fun (i : Nat) =>
       ({ id := id i, addr := wordAt bs (8 + 20 * i), len := len i, gain := byteAt bs (6 + 20 * i)
          loop := if byteAt bs (7 + 20 * i) % 2 = 1 ∧ stop i ≤ len i ∧ start i < stop i then some (start i, stop i) else none
          variant := if byteAt bs (5 + 20 * i) ≤ 3 then byteAt bs (5 + 20 * i) else 0 } : Clip)
     (¬ good → parseDirectory bs = none) ∧
     (good → parseDirectory bs = some (((List.range n).filter counts).map clip)))) ∧
  ∀ s : State,
    (∀ ws, s.port = { waiting := ws, busy := none } → ws ≠ [] → ∃ r ∈ ws,
      exec .flashRequestStart s = .next { s with port := { waiting := ws.erase r, busy := some (r, false) } } ∧
      (∀ v, v < 6 → (∃ q ∈ ws, q.who = .voice v) → ∃ w, w ≤ v ∧ r.who = .voice w) ∧
      ((∀ q ∈ ws, ∀ v, v < 6 → q.who ≠ .voice v) → ws.head? = some r)) ∧
    (s.port.busy ≠ none → exec .flashRequestStart s = .next s) ∧
    (∀ op at_ ok, s.phase = .running → s.port.busy = some ({ who := .directory, op := op, entered := at_ }, false) →
      (let parsed := if ok = true then parseDirectory (flashBytes s 4096 1284) else none
       ∃ t, exec (.directoryReadComplete ok) s = .next t ∧
        (∀ clips, parsed = some clips → t.sound.directory = clips ∧ t.faults = s.faults) ∧
        (parsed = none → t.sound.directory = [] ∧ t.faults = updateAt s.faults 7 (fun r => r.report false s.partTime)) ∧
        t.sound.dirPending = false ∧ t.job = (if s.job = .bankRead then .none else s.job) ∧
        t = { s with sound := t.sound, port := t.port, faults := t.faults, job := t.job }))

/-! ### Chapter 8: the Smoke Controller -/

/-- R135 to R139, R141, R143: one smoke period, which takes the setpoint, the maximum heater duty and the idle level into
use. Outside FAULT, a reading beyond -40..400 is SMOKE_SENSOR with the fan running on for 120 s; one at the overtemp
limit is SMOKE_OVERTEMP; any other takes the state of Table 8-3, the heater demand and a duty no larger than the heater
duty cap, and the fan the row of its entry or of each period. In FAULT, a SMOKE_SENSOR takes the place of an
overtemperature and nothing else is reported; the fan of an overtemperature stops below 100 degrees. The first smoke
period after a reset treats OFF as an entry (R134; log 53). -/
def Obligations.SmokePeriodDecides : Prop :=
  ∀ (s : State) (r : Int), s.phase = .running → SmokeSound s →
    (let target := (set16 s 224 : Int) + 60
     let limit := if target < s.smoke.limit ∧ r < target then target else s.smoke.limit
     let live : SmokeSettings := { setpoint := set16 s 224, maxDuty := set16 s 226, idle := set8 s 230 }
     let valid : Prop := -40 ≤ r ∧ r ≤ 400
     let faulty : Prop := s.smoke.state = .fault
     let entered := fun (t : State) (f : SmokeFault) (k : Nat) => t.smoke.state = .fault ∧ t.smoke.fault = some f ∧
       t.smoke.demand = 0 ∧ t.smoke.duty = 0 ∧ t.smoke.fan = .idle ∧ t.smoke.fanLevel = set8 s 230 ∧
       t.smoke.puffEnd = none ∧ t.faults = updateAt s.faults k (fun x => x.report true s.partTime) ∧
       t = { s with smoke := t.smoke, faults := t.faults }
     (¬ valid → ¬ faulty ∨ s.smoke.fault = some .overtemp →
       ∃ t, exec (.smokePeriod r) s = .next t ∧ entered t (.sensor (s.partTime + 120000)) 4 ∧ t.smoke.temp = s.smoke.temp) ∧
     (¬ valid → faulty → ∀ x, s.smoke.fault = some (.sensor x) →
       exec (.smokePeriod r) s = .next { s with smoke := { s.smoke with
         fresh := false, inUse := live, fanLevel := if s.smoke.fan = .idle then set8 s 230 else s.smoke.fanLevel } }) ∧
     (valid → faulty → ∀ f, s.smoke.fault = some f →
       (let stops : Prop := f = .overtemp ∧ r < 100
        exec (.smokePeriod r) s = .next { s with smoke := { s.smoke with
          fresh := false, inUse := live, temp := some r, limit := limit
          fan := if stops then .stopped else s.smoke.fan
          fanLevel := if stops then 0 else if s.smoke.fan = .idle then set8 s 230 else s.smoke.fanLevel } })) ∧
     (valid → ¬ faulty → limit ≤ r → ∃ t, exec (.smokePeriod r) s = .next t ∧ entered t .overtemp 5 ∧
       t.smoke.temp = some r) ∧
     (valid → ¬ faulty → r < limit → ∃ t, exec (.smokePeriod r) s = .next t ∧ t = { s with smoke := t.smoke } ∧
       t.smoke.temp = some r ∧ t.smoke.limit = limit ∧ t.smoke.inUse = live ∧ t.smoke.fresh = false ∧
       t.smoke.fault = s.smoke.fault ∧
       t.smoke.state = (if asked s 41 = false ∨ s.supply.state = .parked then .off
         else if s.supply.state = .ride ∨ s.supply.state = .dark then .shed
         else if r < (set16 s 224 : Int) - 20 then .heating else .ready) ∧
       t.smoke.demand = (if t.smoke.state = .heating ∨ t.smoke.state = .ready
         then (clamp 0 (set16 s 226) (((set16 s 224 : Int) - r) * 16)).toNat else 0) ∧
       t.smoke.duty = min t.smoke.demand s.supply.grants.heaterCap ∧
       (let entry : Prop := t.smoke.state ≠ s.smoke.state ∨ (s.smoke.fresh = true ∧ t.smoke.state = .off)
        let cold : Prop := t.smoke.state = .off ∨ t.smoke.state = .shed
        (t.smoke.state = .heating → t.smoke.fan = .idle) ∧
        (t.smoke.state = .ready → t.smoke.fan = if entry ∨ s.smoke.fan ≠ .puff then .idle else .puff) ∧
        (cold → t.smoke.fan = if (entry ∨ s.smoke.fan = .idle) ∧ 100 ≤ r then .idle else .stopped) ∧
        (t.smoke.fan = .idle → t.smoke.fanLevel = set8 s 230) ∧
        (t.smoke.fan ≠ .idle → t.smoke.fan = s.smoke.fan → s.smoke.fan = .puff ∨ ¬ entry → t.smoke.fanLevel = s.smoke.fanLevel) ∧
        (t.smoke.fan = .stopped → s.smoke.fan ≠ .stopped → t.smoke.fanLevel = 0) ∧
        t.smoke.puffEnd = (if t.smoke.fan = .puff then s.smoke.puffEnd else none))))

/-! ### Chapter 9: the Supply Supervisor -/

/-- R144, R145, R147, R148, R150, R151, R153, R154, R11, R21: one budget period. The state follows Table 9-3 and the
restore its timing; leaving TRACK abandons a check that runs or is accepted; in RIDE a low store or the ride limit requests the SUPPLY
hold once, and the entry to DARK reports STORE_LOW, requests it unless it is there, and takes R, the duty, the integral
and both accumulators to 0; a restore removes the SUPPLY hold and its flag, and nothing else touches them. Lights, sound, heater and charging are then granted in turn out of the budget of the new
state less the motor's draw, with the dim factor, the two caps and the charge current of R154. That
an abandoned check leaves a duty of 0, and that one not yet begun is abandoned too, are the model's choice (log 15). -/
def Obligations.BudgetPeriodDecidesAndGrants : Prop :=
  ∀ (s : State) (vt vs : Nat), s.phase = .running → vt ≤ 30000 → vs ≤ 20000 →
    (let good : Prop := set16 s 232 ≤ vt
     let restored : Prop := good ∧ ∃ r, s.supply.restoreStart = some r ∧ reached s.partTime (r + 100) = true
     let parks : Prop := set8 s 14 ≠ 0 ∧ s.pub.phase = .stopped ∧ sEff s = 0 ∧
       reached s.partTime (s.supply.lastActivity + BitVec.ofNat 32 (set8 s 14 * 10000)) = true
     let wakes : Prop := set8 s 14 = 0 ∨ sEff s ≠ 0 ∨ s.pub.phase ≠ .stopped
     let started := if s.supply.state = .ride then s.supply.rideStart else some s.partTime
     let asksHold : Prop := s.supply.holdFlag = false ∧ (vs < set16 s 234 ∨ ∃ r, started = some r ∧ 0 < set8 s 242 ∧
       reached s.partTime (r + BitVec.ofNat 32 (set8 s 242 * 100)) = true)
     let held := insertHold { plainStop .supply .normal with created := s.partTime } s.holds
     let timed := match s.supply.restoreStart with | some r => some r | none => some s.partTime
     ∃ t, exec (.budgetPeriod vt vs) s = .next t ∧ t.supply.vt = vt ∧ t.supply.vs = vs ∧
      (s.supply.state = .track → (¬ good → t.supply.state = .ride ∧ t.supply.rideStart = some s.partTime) ∧
        (good → parks → t.supply.state = .parked) ∧ (good → ¬ parks → t.supply.state = .track)) ∧
      (s.supply.state = .parked → (¬ good → t.supply.state = .ride ∧ t.supply.rideStart = some s.partTime) ∧
        (good → wakes → t.supply.state = .track) ∧ (good → ¬ wakes → t.supply.state = .parked)) ∧
      (s.supply.state = .ride → (restored → t.supply.state = .track) ∧
        (¬ restored → vs < set16 s 236 → t.supply.state = .dark) ∧
        (¬ restored → set16 s 236 ≤ vs → t.supply.state = .ride ∧ t.supply.rideStart = s.supply.rideStart)) ∧
      (s.supply.state = .dark → (restored → t.supply.state = .track) ∧ (¬ restored → t.supply.state = .dark)) ∧
      (s.supply.state = .ride ∨ s.supply.state = .dark → ¬ restored →
        (good → t.supply.restoreStart = timed) ∧ (¬ good → t.supply.restoreStart = none)) ∧
      (t.supply.state = .ride →
        (asksHold → t.supply.holdFlag = true ∧ t.holds = held) ∧
        (¬ asksHold → t.supply.holdFlag = s.supply.holdFlag ∧ t.holds = s.holds)) ∧
      (t.supply.state = .dark → s.supply.state ≠ .dark → t.supply.holdFlag = true ∧ t.supply.rideStart = none ∧
        (s.supply.holdFlag = true → t.holds = s.holds) ∧ (s.supply.holdFlag = false → t.holds = held) ∧
        t.motor = { s.motor with R := 0, rising := 0, falling := 0, Da := 0, I := 0 }) ∧
      (s.supply.state = .ride ∨ s.supply.state = .dark → restored → t.supply.holdFlag = false ∧
        t.holds = s.holds.filter (fun h => h.source != .supply) ∧ t.supply.restoreStart = none ∧
        t.supply.rideStart = none ∧ t.supply.lastActivity = s.partTime) ∧
      (s.supply.state = .track ∨ s.supply.state = .parked → t.supply.state ≠ .ride →
        t.supply.holdFlag = s.supply.holdFlag ∧ t.holds = s.holds ∧ t.supply.lastActivity =
          if s.supply.state = .parked ∧ t.supply.state = .track then s.partTime else s.supply.lastActivity) ∧
      t.faults = (if t.supply.state = .dark ∧ s.supply.state ≠ .dark
        then updateAt s.faults 6 (fun r => r.report false s.partTime) else s.faults) ∧
      (t.supply.state = .dark → s.supply.state = .dark → t.motor = s.motor ∧ t.holds = s.holds) ∧
      (t.supply.state ≠ .dark → t.motor = if s.supply.state = .track ∧ t.supply.state ≠ .track ∧
          (s.motor.state = .check ∨ s.motor.checkAccepted = true)
        then { s.motor with
          checkRecord := { result := .abandoned, estimate := none, time := s.partTime }, checkProgress := none
          checkC := [], checkAccepted := false, Da := 0, state := .stopped }
        else s.motor) ∧
      (let g := t.supply.grants
       let most := match t.supply.state with
         | .track | .parked => set16 s 238
         | .ride => set16 s 240
         | .dark => 0
       let dark : Prop := t.supply.state = .dark
       let ride : Prop := t.supply.state = .ride
       let light := s.lightDemand
       let sound := 300 * (if t.sound.mode = .normal ∧ asked s 45 = false then set8 s 448 else 0) / 255
       let heater := 10 * set8 s 228 * t.smoke.demand / 1023
       let charging := if vs < set16 s 245 then set16 s 243 else 0
       let left1 := most - s.pub.C - g.lights
       let left2 := left1 - g.sound
       let left3 := left2 - g.heater
       let dim := if light ≤ most - s.pub.C then 256 else (most - s.pub.C) * 256 / light
       let volume := if sound ≤ left1 then 255 else min 255 (left1 * 255 / 300)
       g.lights + g.sound + g.heater + g.charging ≤ most - s.pub.C ∧ g.charge = g.charging ∧
       (dark → g = { lights := 0, sound := 0, heater := 0, charging := 0, dim := 0, volumeCap := 0, heaterCap := 0, charge := 0 }) ∧
       (¬ dark → g.lights = min light (most - s.pub.C) ∧ g.sound = min sound left1 ∧
         g.dim = (if t.supply.state = .ride then min dim 128 else dim) ∧
         g.volumeCap = if t.supply.state = .ride then min volume 128 else volume) ∧
       (ride → g.heater = 0 ∧ g.charging = 0 ∧ g.heaterCap = 0) ∧
       (¬ dark → ¬ ride → g.heater = min heater left2 ∧ g.charging = min charging left3 ∧
         g.heaterCap = if heater ≤ left2 then 1023 else min 1023 (left2 * 1023 / (10 * set8 s 228))) ∧
       t.smoke.duty = min t.smoke.demand g.heaterCap) ∧
      t = { s with supply := t.supply, sound := t.sound, port := t.port, smoke := t.smoke, motor := t.motor, holds := t.holds, faults := t.faults, freeCount := t.freeCount })

/-- R148 to R150, R152: every activity sets the last-activity time, in PARKED it also returns the state to TRACK at once,
and in no other state does it touch anything else. The budget periods named by their outcome: at the ride limit the
SUPPLY hold is installed and its flag set, whatever the store and a restore not complete; when the restore completes the hold goes and TRACK is entered; when the park
test holds PARKED is entered; and a row whose outcome does not come changes nothing. That the rows are budget periods is
the model's choice (logs 2, 3). -/
def Obligations.ActivityAndSupplyOutcomes : Prop :=
  (
    ∀ s : State,
      (s.supply.state ≠ .parked → activity s = { s with supply := { s.supply with lastActivity := s.partTime } }) ∧
      (s.supply.state = .parked → activity s = { s with
        supply := { s.supply with state := .track, lastActivity := s.partTime }
        sound := (activity s).sound, port := (activity s).port, smoke := (activity s).smoke
        freeCount := (activity s).freeCount })) ∧
  (
    ∀ (s : State) (vt vs : Nat), s.phase = .running → vt ≤ 30000 → vs ≤ 20000 →
      (∀ r, s.supply.state = .ride → s.supply.holdFlag = false → set16 s 236 ≤ vs →
        (set16 s 232 ≤ vt → ∀ q, s.supply.restoreStart = some q → reached s.partTime (q + 100) = false) →
        s.supply.rideStart = some r → 0 < set8 s 242 →
        reached s.partTime (r + BitVec.ofNat 32 (set8 s 242 * 100)) = true →
        ∃ t, exec (.rideLimit vt vs) s = .next t ∧ t.supply.state = .ride ∧ t.supply.holdFlag = true ∧
          t.holds = insertHold { plainStop .supply .normal with created := s.partTime } s.holds ∧ t.motor = s.motor) ∧
      (∀ r, (s.supply.state = .ride ∨ s.supply.state = .dark) → set16 s 232 ≤ vt → s.supply.restoreStart = some r →
        reached s.partTime (r + 100) = true →
        ∃ t, exec (.restore vt vs) s = .next t ∧ t.supply.state = .track ∧ t.supply.holdFlag = false ∧
          t.supply.restoreStart = none ∧ t.supply.rideStart = none ∧ t.supply.lastActivity = s.partTime ∧
          t.holds = s.holds.filter (fun h => h.source != .supply) ∧ t.motor = s.motor) ∧
      (s.supply.state = .track → set16 s 232 ≤ vt → set8 s 14 ≠ 0 → s.pub.phase = .stopped → sEff s = 0 →
        reached s.partTime (s.supply.lastActivity + BitVec.ofNat 32 (set8 s 14 * 10000)) = true →
        ∃ t, exec (.park vt vs) s = .next t ∧ t.supply.state = .parked ∧ t.supply.lastActivity = s.supply.lastActivity ∧
          t.holds = s.holds ∧ t.demand = s.demand)) ∧
  (
    ∀ (s t : State) (vt vs : Nat), s.phase = .running → exec (.budgetPeriod vt vs) s = .next t →
      (s.supply.state ≠ .track ∨ t.supply.state ≠ .parked → exec (.park vt vs) s = .next s) ∧
      (s.supply.state = .track ∨ s.supply.state = .parked ∨ t.supply.state ≠ .track → exec (.restore vt vs) s = .next s) ∧
      (s.supply.holdFlag = true ∨ t.supply.state ≠ .ride ∨ set8 s 242 = 0 ∨
          (∀ r, t.supply.rideStart = some r → reached s.partTime (r + BitVec.ofNat 32 (set8 s 242 * 100)) = false) →
        exec (.rideLimit vt vs) s = .next s))

/-! ### Chapter 10: the Beacon Receiver -/

/-- R156, R157: the envelope line, sampled eighth by eighth. A run goes on through its own level and absorbs a single
eighth of the other one; two eighths of the other level end it at the change. In IDLE and LEARN_ARMED the HIGH run that
so begins is a burst; inside a burst with an open list the ended run is appended with its width, 0 for a glitch of up
to 5 eighths; with the list closed it is not. A closing quiet of the sample limit empties the list and ends the
capture. That the four rows carry the line and sample it alike is the model's choice (log 10). -/
def Obligations.RunsBuildTheCapture : Prop :=
  (
    ∀ (s t : State) (xs ys : List Level), exec (.burstBegin ys) s = exec (.runFinished ys) s ∧
      exec (.burstEnd ys) s = exec (.runFinished ys) s ∧ exec (.captureQuiet ys) s = exec (.runFinished ys) s ∧
      (exec (.runFinished xs) s = .next t → exec (.runFinished (xs ++ ys)) s = exec (.runFinished ys) t)) ∧
  (
    ∀ (s : State) (n : Nat), s.phase = .running → s.beacon.unsettled = false → s.beacon.runLen ≤ 65535 →
      (let b := s.beacon
       let lvl := b.runLevel
       let other := otherLevel lvl
       let inBurst : Prop := b.state = .capture ∨ b.state = .learnCapture
       let goesOn := fun (k : Nat) => (¬ inBurst ∨ b.closed = true ∧ lvl = .high ∨
         min 65535 (b.runLen + k) < set16 s 707 * 8 : Prop)
       let ends := exec (.runFinished (List.replicate n lvl ++ [other, other])) s
       let len := min 65535 (b.runLen + n)
       (goesOn n → exec (.runFinished (List.replicate n lvl)) s = .next { s with beacon := { b with runLen := len } }) ∧
       (goesOn (n + 2) → exec (.runFinished (List.replicate n lvl ++ [other, lvl])) s = .next { s with
         beacon := { b with runLen := min 65535 (b.runLen + n + 2) } }) ∧
       (¬ inBurst → lvl = .low → exec (.burstBegin (List.replicate n lvl ++ [other, other])) s = .next { s with beacon := { b with
         runLevel := other, runLen := 2, capture := [], closed := false
         state := if b.state = .learnArmed then .learnCapture else .capture } }) ∧
       (¬ inBurst → lvl = .high → ends = .next { s with beacon := { b with runLevel := other, runLen := 2 } }) ∧
       (inBurst → goesOn n → b.closed = false → b.capture.length < 31 → ends = .next { s with beacon := { b with
         runLevel := other, runLen := 2
         capture := b.capture ++ [{ level := lvl, width := if len ≤ 5 then 0 else min 127 ((len + 4) / 8) }] } }) ∧
       (inBurst → goesOn n → b.closed = true → ends = .next { s with beacon := { b with
         runLevel := other, runLen := 2 } }) ∧
       (inBurst → b.closed = true → lvl = .low → 0 < n → b.runLen + n = set16 s 707 * 8 → b.runLen + n ≤ 65535 →
         exec (.captureQuiet (List.replicate n lvl)) s = .next { s with beacon := { b with
           runLen := b.runLen + n, capture := [], closed := false
           state := if b.state = .learnCapture ∧ b.learn.state = .armed then .learnArmed else .idle } })))

/-- R157, R159, R160, R165: a burst ends when its run reaches the sample limit, held if that run is HIGH, or with its
32nd entry. A held one and a short one are discarded, the short one counted while a learn is armed; a learned one writes
its slot's bytes and no other setting, and sets the unsaved flag. The first slot whose entries agree with the list is the
match, an entry of width 0 agreeing with none: without one, and on a repeated match, nothing follows; a match that is taken becomes the last match, is activity,
and its action is carried out. That the line comes eighth by eighth is the model's choice (log 10). -/
def Obligations.BurstEndsOnce : Prop :=
  ∀ (s e : State) (line : List Level) (n : Nat) (held : Bool), s.phase = .running → s.beacon.closed = false →
    s.beacon.state = .capture ∨ s.beacon.state = .learnCapture → s.beacon.unsettled = false → s.beacon.runLen + n ≤ 65535 →
    (let b := s.beacon
     let len := b.runLen + n
     let other := otherLevel b.runLevel
     let last : CaptureEntry := { level := b.runLevel, width := if len ≤ 5 then 0 else min 127 ((len + 4) / 8) }
     (0 < n ∧ len = set16 s 707 * 8 ∧ line = List.replicate n b.runLevel ∧ held = (b.runLevel == .high) ∧
         e = { s with beacon := { b with runLen := 0, closed := true } }) ∨
       (len < set16 s 707 * 8 ∧ b.capture.length = 31 ∧ line = List.replicate n b.runLevel ++ [other, other] ∧ held = false ∧
         e = { s with beacon := { b with runLevel := other, runLen := 0, closed := true, capture := b.capture ++ [last] } })) →
    (let c := e.beacon
     let short : Prop := c.capture.length < set8 s 709
     (held = true → exec (.burstEnd line) s = .next e) ∧
     (short → c.state = .capture → exec (.burstEnd line) s = .next e) ∧
     (held = false → short → c.state = .learnCapture → exec (.burstEnd line) s = .next { e with beacon := { c with
       learn := { c.learn with entries := min 255 (c.learn.entries + 1) } } }) ∧
     (held = false → ¬ short → c.state = .learnCapture → c.learn.slot ≤ 7 → s.settings.length = 776 →
       (let slot := c.learn.slot
        let k := min c.capture.length (if slot = 7 then 18 else 24)
        ∃ t, exec (.burstEnd line) s = .next t ∧
         t = { e with
           settings := t.settings, unsaved := true, changedSinceCopy := true
           beacon := { c with learn := { state := .learned, slot := slot, entries := k, time := s.partTime }
                              learnExpiry := none } } ∧
         slotByte t slot 0 = k ∧ slotByte t slot 1 = 2 ∧ (∀ j, j < 3 → slotByte t slot (2 + j) = 0) ∧
         (∀ i x, i < k → c.capture[i]? = some x → x.width ≤ 127 →
           slotByte t slot (5 + i) = (if x.level = .high then 128 else 0) + x.width) ∧
         (∀ j, j < 480 + 29 * slot ∨ 480 + 29 * slot + 5 + k ≤ j → set8 t j = set8 s j))) ∧
     (held = false → ¬ short → c.state = .capture →
       (let agrees := fun (slot : Nat) =>
          (0 < slotByte s slot 0 ∧ slotByte s slot 0 ≤ c.capture.length ∧ ∀ i x, i < slotByte s slot 0 →
            c.capture[i]? = some x → slotByte s slot (2 + i / 8) / 2 ^ (i % 8) % 2 = 0 →
            (x.level = .high ↔ 128 ≤ slotByte s slot (5 + i)) ∧ x.width ≠ 0 ∧ slotByte s slot (5 + i) % 128 ≠ 0 ∧
            x.width ≤ slotByte s slot (5 + i) % 128 + slotByte s slot 1 ∧
            slotByte s slot (5 + i) % 128 ≤ x.width + slotByte s slot 1 : Prop)
        let again := fun (slot : Nat) =>
          (∃ odo, c.lastMatch = some (slot, odo) ∧ (s.pub.odometer - odo).toNat < set16 s 710 : Prop)
        ((∀ slot, slot < 8 → ¬ agrees slot) → exec (.burstEnd line) s = .next e) ∧
        (∀ slot, slot < 8 → agrees slot → (∀ j, j < slot → ¬ agrees j) →
          (again slot → exec (.burstEnd line) s = .next e) ∧
          (¬ again slot → exec (.burstEnd line) s = .next (carryOut slot (activity { e with
            beacon := { c with lastMatch := some (slot, s.pub.odometer) } })))))))

/-- R161 to R163, R38 to R40, R94, R99: what a taken match of a slot does. A direction qualifier that fails, an action of
kind NONE, and a motion action at a MID or TRAIL do nothing. In no consist and at a LEAD a STOP_AT installs a targeted
stop, in DWELL at once when R is 0, and a SLOW_TO a cap; a LEAD then sends them to its consist with the values it
installed, or counts the frame as dropped when the reply queue is full. SOUND is a momentary start request, and FUNCTION
turns its switch on for its duration. The bytes of the payload a hold kind leaves unused are free values (log 20), and that the frame
carries the hold sequence as it stands before its increase is the model's choice (log 11). -/
def Obligations.TakenMatchActs : Prop :=
  ∀ (s : State) (slot : Nat), HoldsDistinct s →
    (let kind := actionByte s slot 0 % 8
     let q := actionByte s slot 0 / 64
     let fits : Prop := (q = 1 → s.demand.applied = .fwd) ∧ (q = 2 → s.demand.applied = .rev)
     let alone : Prop := consistPosition s = .none
     let d := (actionByte s slot 1 + 256 * actionByte s slot 2) * 100
     let resume : Prop := actionByte s slot 4 % 2 = 1
     let dwell := if resume then some (actionByte s slot 3) else none
     let reverse := decide resume && actionByte s slot 4 / 2 % 2 == 1
     let stop := fun (r : Decel) =>
       ({ source := .beacon, kind := .stop, capValue := 0, decel := r, expiry := .absent, phase := some .approach,
          dwell := dwell, reverseAtEnd := reverse, origin := some .own, created := s.partTime } : Hold)
     let halted : Hold := { stop .instant with
       phase := some .dwell
       expiry := match dwell with
         | none => .absent
         | some x => .atTime (s.partTime + BitVec.ofNat 32 (x * 1000)) }
     let limit := actionByte s slot 2 + 256 * actionByte s slot 3
     let value := if actionByte s slot 1 = 0 then 0 else trimmedSpeed s (min 250 (actionByte s slot 1))
     let cap : Hold :=
       { source := .beacon, kind := .cap, decel := .normal, phase := none, dwell := none, reverseAtEnd := false,
         capValue := value, expiry := if limit = 0 then .absent else .atOdometer (s.pub.odometer + BitVec.ofNat 32 (limit * 100)),
         origin := some .own, created := s.partTime }
     let installs := fun (h : Hold) (payload : List Byte → Prop) =>
       (alone → carryOut slot s = { s with holds := insertHold h s.holds }) ∧
       (consistPosition s = .lead → ∃ p, payload p ∧ (carryOut slot s).holds = insertHold h s.holds ∧
         (let t := carryOut slot s
          let frame : OutFrame :=
            { port := .radio, isReset := false
              body := sealBody ([BitVec.ofNat 8 (set8 s 2), 0] ++ le2 (0x8000 + consistAddress s) ++ le2 (locoAddress s)
                ++ [0xFF, 0xFF, s.holdSeq, 0x40] ++ p) }
          let c := s.radio.counters
          (s.replies.length < 4 → t.replies = s.replies ++ [frame] ∧ t.radio = s.radio) ∧
          (4 ≤ s.replies.length → t.replies = s.replies ∧
            t.radio = { s.radio with counters := { c with dropped := min 65535 (c.dropped + 1) } }) ∧
          t = { s with holds := t.holds, holdSeq := s.holdSeq + 1, replies := t.replies, radio := t.radio,
                       freeCount := s.freeCount + 1 }))
     let stopBytes := fun (r : Nat) (p : List Byte) =>
       (∃ w x y, p = [0] ++ le2 r ++ [if resume then BitVec.ofNat 8 (actionByte s slot 3) else w,
         BitVec.ofNat 8 ((if reverse then 1 else 0) + (if resume then 0 else 2)), x, y] : Prop)
     (¬ fits ∨ kind = 0 ∨ 4 < kind → carryOut slot s = s) ∧
     (kind = 1 ∨ kind = 2 → IsMember s → carryOut slot s = s) ∧
     (fits → kind = 1 → s.pub.R ≠ 0 →
       (d = 0 → installs (stop .instant) (stopBytes 0)) ∧
       (0 < d →
         (let x := (50 * s.pub.R * s.pub.R + d - 1) / d
          50 * s.pub.R * s.pub.R ≤ x * d ∧ (x - 1) * d < 50 * s.pub.R * s.pub.R ∧
          installs (stop (.rate (clampNat 10 4000 x))) (stopBytes (clampNat 10 4000 x))))) ∧
     (fits → kind = 1 → s.pub.R = 0 → dwell ≠ some 0 → installs halted (stopBytes 0)) ∧
     (fits → kind = 1 → s.pub.R = 0 → dwell = some 0 → alone ∨ consistPosition s = .lead →
       findHold (carryOut slot s) .beacon = none ∧
       (carryOut slot s).demand.commanded = (if reverse = true then s.demand.commanded.flip else s.demand.commanded) ∧
       (alone → reverse = false → carryOut slot s = { s with holds := s.holds.filter (fun h => h.source != .beacon) })) ∧
     (fits → kind = 2 → installs cap (fun p => ∃ w, p = [1] ++ le2 value ++ [w, 0] ++ le2 limit)) ∧
     (fits → kind = 3 → carryOut slot s = startRequest (min 31 (actionByte s slot 1)) false s) ∧
     (fits → kind = 4 → actionByte s slot 1 ≤ 31 → ∀ sw, s.switches[actionByte s slot 1]? = some sw →
       (let t := carryOut slot s
        t.switches[actionByte s slot 1]? = some
          (if sw.on = true ∧ sw.expiry = none then sw else
            { on := true, lastSetter := some .beacon, expiry := some (s.partTime + BitVec.ofNat 32
              ((if actionByte s slot 2 = 0 then 1 else actionByte s slot 2) * 1000)) }) ∧
        (∀ i, i ≠ actionByte s slot 1 → t.switches[i]? = s.switches[i]?) ∧
        t.holds = s.holds ∧ t.drive = s.drive ∧ t.motor = s.motor ∧ t.settings = s.settings)))

/-! ### Chapter 11: settings, flash, faults, resets -/

/-- R169 to R171, R130: a CFG_OPEN is judged in the order NOT_HOLDER, NOT_STOPPED, CFG_BUSY, RANGE, and a refusal leaves
the open transaction as it stands but for the renewal of its own opener's last-frame time. An accepted one opens afresh
with every mark clear, and for BANK the engine is QUIET. CFG_DATA: another source meets CFG_BUSY, a closed transaction
CFG_NONE. In an open write the bytes are staged and marked at their offset and no others, and bytes beyond the count
abort it with CFG_OVERRUN; in an open read up to 16 live settings from the offset come back. That a
CFG_DATA of an open write with no data bytes only renews it is the model's choice (log 19). -/
def Obligations.CfgOpenAndDataAreTaken : Prop :=
  (
    ∀ s f m src t, Dispatched s f m src t → f.kind = 0x10 → 6 ≤ f.payload.length →
      (byteAt f.payload 0 = 1 → src = .localMaster) →
      (let p := f.payload
       let target := byteAt p 0
       let dir := byteAt p 1
       let start := halfAt p 2
       let count := halfAt p 4
       let may : Prop := holdsDrive t src = true ∨ src = .localMaster
       let moving : Prop := src ≠ .localMaster ∧ t.pub.R ≠ 0
       let busy : Prop := (t.txn.state ≠ .closed ∧ t.txn.opener ≠ src) ∨ t.job ≠ .none
       let good : Prop := (target = 0 ∧ dir ≤ 1 ∧ 1 ≤ count ∧ count ≤ 64 ∧ start + count ≤ 776) ∨
         (target = 1 ∧ dir = 0 ∧ 1 ≤ count ∧ count ≤ 256 ∧ start ≤ 16383)
       let refused := fun r => exec .cfgOpen s = .next (replied s f m src (.status r 0,
         if t.txn.state ≠ .closed ∧ t.txn.opener = src then { t with txn := { t.txn with lastFrame := t.partTime } } else t))
       (¬ may → refused .notHolder) ∧
       (may → moving → refused .notStopped) ∧
       (may → ¬ moving → busy → refused .cfgBusy) ∧
       (may → ¬ moving → ¬ busy → ¬ good → refused .range) ∧
       (may → ¬ moving → ¬ busy → good → ∃ u, exec .cfgOpen s = .next (replied s f m src (.status .ok 0, u)) ∧
         u.txn = { state := if dir = 1 then .openRead else .openWrite, opener := src,
                   target := if target = 1 then .bank else .settings, start := start, count := count,
                   staged := List.replicate count none, lastFrame := t.partTime } ∧
         ((target = 1 ↔ t.txn.target = .bank ∧ t.txn.state ≠ .closed) → VoicesSound t → u.sound = t.sound) ∧
         (target = 1 → u.sound.mode = .quiet) ∧
         u = { t with txn := u.txn, sound := u.sound, port := u.port }))) ∧
  (
    ∀ s f m src t, Dispatched s f m src t → f.kind = 0x11 → 2 ≤ f.payload.length → f.payload.length ≤ 18 →
      (let o := halfAt f.payload 0
       let bs := f.payload.drop 2
       let mine : Prop := t.txn.state ≠ .closed ∧ t.txn.opener = src
       let n := min 16 (t.txn.count - o)
       (t.txn.state = .closed → exec .cfgData s = .next (replied s f m src (.status .cfgNone 0, t))) ∧
       (t.txn.state ≠ .closed → t.txn.opener ≠ src → exec .cfgData s = .next (replied s f m src (.status .cfgBusy 0, t))) ∧
       (mine → t.txn.state = .openRead → exec .cfgData s = .next (replied s f m src
         (.payload 0x81 (le2 o ++ [BitVec.ofNat 8 n] ++ (List.range n).map (fun k => t.settings.getD (t.txn.start + o + k) 0)),
          { t with txn := { t.txn with lastFrame := t.partTime } }))) ∧
       (mine → t.txn.state = .openWrite → bs = [] → exec .cfgData s = .next (replied s f m src
         (.status .ok 0, { t with txn := { t.txn with lastFrame := t.partTime } }))) ∧
       (mine → t.txn.state = .openWrite → 1 ≤ bs.length → t.txn.count < o + bs.length → ∃ u,
         exec .cfgData s = .next (replied s f m src (.status .cfgOverrun 0, u)) ∧ u.txn.state = .closed ∧ u.txn.staged = [] ∧
           u = { t with txn := u.txn, sound := u.sound, port := u.port }) ∧
       (mine → t.txn.state = .openWrite → 1 ≤ bs.length → o + bs.length ≤ t.txn.count → t.txn.staged.length = t.txn.count →
         ∃ u, exec .cfgData s = .next (replied s f m src (.status .ok 0, u)) ∧
           u = { t with txn := { t.txn with lastFrame := t.partTime, staged := u.txn.staged } } ∧
           u.txn.staged.length = t.txn.count ∧
           ∀ i, i < t.txn.count → u.txn.staged[i]? =
             if o ≤ i ∧ i < o + bs.length then some (some (bs.getD (i - o) 0)) else t.txn.staged[i]?)))

/-- R168, R171: CFG_CLOSE. A byte not staged aborts with CFG_SHORT. A complete SETTINGS write installs the checked
image as a whole, sets the unsaved flag, and answers CLAMPED with the number of bytes the checks changed when
there are any; a complete BANK write becomes the flash job with its page asked of the Flash Port, but meets CFG_BUSY
and stays open while a SAVE runs; a read just closes. That the reply carries the loco address as the image leaves it is the
model's choice (log 64). -/
def Obligations.CfgCloseApplies : Prop :=
  ∀ s f m src t, Dispatched s f m src t → f.kind = 0x12 →
    (let bytes := t.txn.staged.map (·.getD 0)
     let full : Prop := ∀ x ∈ t.txn.staged, x.isSome = true
     let mine : Prop := t.txn.state ≠ .closed ∧ t.txn.opener = src
     let closes := fun r d (u : State) => exec .cfgClose s = .next (replied s f m src (.status r d, u)) ∧
       u.txn.state = .closed ∧ u.txn.staged = [] ∧ u.flash = t.flash ∧ u.voiceRam = t.voiceRam
     (t.txn.state = .closed → exec .cfgClose s = .next (replied s f m src (.status .cfgNone 0, t))) ∧
     (t.txn.state ≠ .closed → t.txn.opener ≠ src → exec .cfgClose s = .next (replied s f m src (.status .cfgBusy 0, t))) ∧
     (mine → t.txn.state = .openRead → ∃ u, closes .ok 0 u ∧ u = { t with txn := u.txn, sound := u.sound, port := u.port }) ∧
     (mine → t.txn.state = .openWrite → ¬ full → ∃ u, closes .cfgShort 0 u ∧
       u = { t with txn := u.txn, sound := u.sound, port := u.port }) ∧
     (mine → t.txn.state = .openWrite → full → t.txn.target = .settings → ∃ u,
       (let laid := overlay t.settings t.txn.start bytes
        let image := checkedImage (inRange t.txn.start bytes.length) laid
        let changed := ((laid.zip image).filter (fun x => x.1 != x.2)).length
        closes (if changed = 0 then .ok else .clamped) (min 255 changed) u ∧ u.settings = image ∧ u.unsaved = true ∧
          (VoicesSound t → u = { settingsInstalled t { t with settings := image, unsaved := true, changedSinceCopy := true } with
            txn := u.txn }) ∧ u.switches = t.switches ∧ u.partTime = t.partTime ∧ u.flash = t.flash)) ∧
     (mine → t.txn.state = .openWrite → full → t.txn.target = .bank → t.job = .save →
       exec .cfgClose s = .next (replied s f m src (.status .cfgBusy 0, { t with txn := { t.txn with lastFrame := t.partTime } }))) ∧
     (mine → t.txn.state = .openWrite → full → t.txn.target = .bank → t.job ≠ .save → ∃ u, closes .ok 0 u ∧ u.job = .bank ∧
       AsksFlash { who := .store, op := .writePage t.txn.start bytes, entered := t.partTime } u ∧
       u = { t with txn := u.txn, sound := u.sound, port := u.port, job := .bank }))

/-- R168 with R2, R43, R53, R74, R101, R103, R114, R119, R135, R146, R158, R161, R166: the image the Store installs.
Every setting with a written byte is clamped to its range or mapped as its chapter says; then, whatever was written, the
stop level is raised to the cut level, the forget time to the reclaim window, and a consist record neither set nor clear
becomes clear. A byte that has no range of its own stays though it is written, and so does every byte that is not
written beside one that is, but for the other half of a two-byte value and of an action. That an action's kind and value are treated together is the model's choice
(log 28). -/
def Obligations.CheckedImageObeysTheRules : Prop :=
  ∀ (w : Nat → Bool) (img : List Byte), img.length = 776 →
    (let out := checkedImage w img
     let was := byteAt img
     let is := byteAt out
     let byte := fun (i lo hi : Nat) => (is i = if w i then clampNat lo hi (was i) else was i : Prop)
     let clamped := fun (i lo hi : Nat) => if w i || w (i + 1) then clampNat lo hi (halfAt img i) else halfAt img i
     let half := fun (i lo hi : Nat) => (halfAt out i = clamped i lo hi : Prop)
     let coded := fun (i : Nat) (f : Nat → Nat) => (is i = if w i then f (was i) else was i : Prop)
     let mode := if w 4 then min 3 (was 4) else was 4
     let address := if w 3 then min 127 (was 3) else was 3
     let record : Prop := 1 ≤ address ∧ address ≤ 127 ∧ 1 ≤ mode ∧ mode ≤ 3
     let nothing : Prop := address = 0 ∧ (mode = 0 ∨ 3 < mode) ∧ was 5 % 2 = 0 ∧ wordAt img 6 = 0
     out.length = 776 ∧
     (half 0 1 4095 ∧ byte 10 10 200 ∧ byte 11 0 250 ∧ byte 13 4 64) ∧
     is 12 = max (if w 12 then max 1 (was 12) else was 12) ((is 11 + 9) / 10) ∧
     (record ∨ nothing → is 3 = address ∧ is 4 = mode ∧ ∀ k, k < 5 → is (5 + k) = was (5 + k)) ∧
     (¬ record → ¬ nothing → ∀ k, k < 7 → is (3 + k) = 0) ∧
     (∀ k, k < 11 → half (32 + 2 * k) 0 4000) ∧
     (byte 54 64 192 ∧ byte 55 64 192 ∧ half 56 1 4000 ∧ half 58 1 4000 ∧ half 60 1 4000 ∧ half 62 0 4095 ∧
       half 66 200 6000 ∧ byte 68 5 100 ∧ half 69 100 65535 ∧ byte 71 0 1) ∧
     (half 224 150 300 ∧ half 226 0 1023 ∧ byte 228 1 255 ∧ byte 231 10 255) ∧
     (half 232 6000 24000 ∧ halfAt out 234 = max (clamped 234 3000 20000) (halfAt out 236) ∧ half 236 3000 20000 ∧
       half 238 1000 10000 ∧ half 240 0 10000 ∧ half 243 0 1000 ∧ half 245 3000 20000) ∧
     (byte 706 0 3 ∧ half 707 16 4095 ∧ byte 709 2 24) ∧
     (∀ k, k < 64 → coded (96 + k) (fun b => (if 46 ≤ b % 64 then 0 else b % 64) + (if 3 ≤ b / 64 then 0 else b / 64) * 64)) ∧
     (∀ n, n < 8 → coded (160 + 8 * n) (fun b => if 4 < b then 0 else b) ∧ coded (165 + 8 * n) (fun b => max 2 b) ∧
       coded (162 + 8 * n) (fun b => (if b % 4 = 3 then 0 else b % 4) + b / 4 % 4 * 4
         + (if b / 16 % 4 = 3 then 0 else b / 16 % 4) * 16 + b / 64 * 64)) ∧
     (∀ c, c < 32 → coded (261 + 6 * c) (fun b => max 1 b)) ∧
     (∀ i, i = 449 ∨ i = 451 → signed16 (halfAt out i) =
       if w i || w (i + 1) then clamp (-4000) 1023 (signed16 (halfAt img i)) else signed16 (halfAt img i)) ∧
     (∀ k, k < 6 → coded (453 + k) (fun b => if 32 ≤ b then 255 else b) ∧ coded (459 + 2 * k) (fun b => min 63 b) ∧
       coded (460 + 2 * k) (fun b => b / 64 * 64 + min 32 (b % 64))) ∧
     (∀ n, n < 8 → coded (480 + 29 * n) (fun b => min (if n = 7 then 18 else 24) b) ∧
       coded (481 + 29 * n) (fun b => min 15 b)) ∧
     (∀ n, n < 8 →
       (let i := 712 + 8 * n
        let kind := if w i || w (i + 1) then (if 4 < was i % 8 then 0 else was i % 8) else was i % 8
        is i = (if w i || w (i + 1) then kind + was i / 8 % 8 * 8 + (if 3 ≤ was i / 64 then 0 else was i / 64) * 64 else was i) ∧
        is (i + 1) = (if w i || w (i + 1) then (if kind = 2 then min 250 (was (i + 1))
          else if kind = 3 ∨ kind = 4 then min 31 (was (i + 1)) else was (i + 1)) else was (i + 1)))) ∧
     (∀ i, (i = 2 ∨ (14 ≤ i ∧ i ≤ 31) ∨ i = 64 ∨ i = 65 ∨ (72 ≤ i ∧ i ≤ 95) ∨
         (160 ≤ i ∧ i ≤ 223 ∧ i % 8 ≠ 0 ∧ i % 8 ≠ 2 ∧ i % 8 ≠ 5) ∨ i = 229 ∨ i = 230 ∨ i = 242 ∨
         (247 ≤ i ∧ i ≤ 448 ∧ (i < 256 ∨ 447 < i ∨ (i - 256) % 6 ≠ 5)) ∨
         (471 ≤ i ∧ i ≤ 705 ∧ (i < 480 ∨ 1 < (i - 480) % 29)) ∨ i = 710 ∨ i = 711 ∨
         (712 ≤ i ∧ 1 < (i - 712) % 8)) → is i = was i) ∧
     (∀ i, (i < 3 ∨ 9 < i) → i ≠ 12 → i ≠ 234 → i ≠ 235 → w i = false → w (i + 1) = false →
       (0 < i → w (i - 1) = false) → is i = was i))

/-- R168 with R2, R53, R103, R135, R136, R166: what an installed image brings about at once. A changed effect starts its
output afresh, a changed chuff source clears the chuff accumulator and the cam's debounce, a changed setpoint raises the
overtemp limit, a changed sample period discards the burst in progress, a shortened silence limit loses and a shortened
forget time forgets the entries that now qualify; the Smoke Controller is left alone while SMOKE is asked as before. What
arms the cam, how a block acts on a value read at its next use, and that the smoke settings in use wait for the next smoke
period, are the model's choice (logs 32, 36, 56). -/
def Obligations.InstalledSettingsReachTheBlocks : Prop :=
  ∀ (s : State) (img : List Byte),
    (let s' := { s with settings := img }
     let u := settingsInstalled s s'
     let changed := fun (i : Nat) => (set8 s' i ≠ set8 s i : Prop)
     u.settings = img ∧ u.switches = s.switches ∧ u.pub = s.pub ∧ u.supply = s.supply ∧ u.faults = s.faults ∧
     (∀ n o, s.outputs[n]? = some o → set8 s (160 + 8 * n) ≤ 4 → set8 s' (160 + 8 * n) ≤ 4 →
       (changed (160 + 8 * n) → u.outputs[n]? = some { o with fade := 0, counter := 0, lastDemand := false }) ∧
       (¬ changed (160 + 8 * n) → u.outputs[n]? = some o)) ∧
     (changed 71 → u.motor.chuffAcc = 0 ∧ u.motor.camLevel = .low ∧ u.motor.camStable = 0 ∧ u.motor.camArmed = true) ∧
     (¬ changed 71 → u.motor.chuffAcc = s.motor.chuffAcc ∧ u.motor.camLevel = s.motor.camLevel ∧
       u.motor.camStable = s.motor.camStable ∧ u.motor.camArmed = s.motor.camArmed) ∧
     u.smoke.limit = (if set16 s' 224 = set16 s 224 then s.smoke.limit
       else max s.smoke.limit ((set16 s' 224 : Int) + 60)) ∧
     (consistReversed s' = consistReversed s → u.demand.applied = s.demand.applied ∧
       (asked s' 41 = asked s 41 → u.smoke = { s.smoke with limit := u.smoke.limit })) ∧
     (changed 706 → u.beacon = { s.beacon with
       capture := [], closed := false, runLen := 0, unsettled := false
       runLevel := if s.beacon.unsettled = true then otherLevel s.beacon.runLevel else s.beacon.runLevel
       state := if s.beacon.learn.state = .armed then .learnArmed else .idle }) ∧
     (¬ changed 706 → u.beacon = s.beacon) ∧
     (set8 s' 10 < set8 s 10 → s.throttles.length = 16 → ∀ i e, entry u i = some e → e.lostSince = none →
       reached s.partTime (e.lastHeard + BitVec.ofNat 32 (set8 s' 10 * 100)) = false) ∧
     (set8 s' 12 < set8 s 12 → s.throttles.length = 16 → ∀ i e, entry u i = some e → e.lostSince ≠ none →
       namedByClaim u i = false → reached s.partTime (e.lastHeard + BitVec.ofNat 32 (set8 s' 12 * 10000)) = false) ∧
     (set8 s 10 ≤ set8 s' 10 → set8 s 12 ≤ set8 s' 12 → u.throttles = s.throttles ∧ u.drive = s.drive ∧ u.groups = s.groups))

/-- R173, R174, R130: a SAVE copies the 776 bytes with their CRC, sets the engine QUIET and asks for the sector erase, and while it runs another
meets CFG_BUSY. The erase leaves the settings sector reading 0xFF, the image's write its 778 bytes, a page write
its page, and no other byte of flash; each failure reports FLASH_ERROR and ends a SAVE. An operation whose result a reset has discarded does the
same to the flash, and else only frees the port, for the start-up read where one waits (R175, R178). What an erased sector reads as,
which bytes a failed operation may spoil, and the one read of 1284 bytes are the model's choice (logs 6, 7, 26). -/
def Obligations.SaveAndBankReachTheFlash : Prop :=
  (∀ s f m src t, Dispatched s f m src t → f.kind = 0x13 →
    (let may : Prop := holdsDrive t src = true ∨ src = .localMaster
     (¬ may → exec .save s = .next (replied s f m src (.status .notHolder 0, t))) ∧
     (may → t.job ≠ .none → exec .save s = .next (replied s f m src (.status .cfgBusy 0, t))) ∧
     (may → t.job = .none → ∃ u, exec .save s = .next (replied s f m src (.status .ok 0, u)) ∧
       u.image = t.settings ++ crcBytes t.settings ∧ AsksFlash { who := .store, op := .eraseSettings, entered := t.partTime } u ∧
       u.sound.mode = .quiet ∧
       (t.port.busy = none → (∀ r ∈ t.port.waiting, ∃ v, v < 6 ∧ r.who = .voice v ∧
         ∃ vo, t.sound.voices[v]? = some vo ∧ vo.state ≠ .idle) → t.sound.mode = .normal →
         u.port = { waiting := [], busy := some ({ who := .store, op := .eraseSettings, entered := t.partTime }, false) }) ∧
       u = { t with job := .save, image := u.image, changedSinceCopy := false, sound := u.sound, port := u.port }))) ∧
  (∀ (s : State) (op : FlashOp) (at_ : Time), MemoriesCanonical s → s.phase = .running →
    s.port.busy = some ({ who := .store, op := op, entered := at_ }, false) →
    (let failed := updateAt s.faults 7 (fun r => r.report false s.partTime)
     let reads := fun (t : State) a => Mem.read flashBlank t.flash a
     (op = .eraseSettings →
       (∃ t, exec (.saveEraseComplete true) s = .next t ∧ t = { s with flash := t.flash, port := t.port } ∧
         (∀ a, reads t a = if a < 4096 then 0xFF#8 else reads s a) ∧
         AsksFlash { who := .store, op := .writeImage s.image, entered := s.partTime } t) ∧
       (∃ t, exec (.saveEraseComplete false) s = .next t ∧ t.job = .none ∧ t.faults = failed ∧ t.unsaved = s.unsaved ∧
         (∀ a, 4096 ≤ a → reads t a = reads s a) ∧ t.settings = s.settings ∧ t.txn = s.txn)) ∧
     (∀ image, op = .writeImage image →
       (∃ t, exec (.saveWriteComplete true) s = .next t ∧
         t.unsaved = (s.changedSinceCopy && s.unsaved) ∧ t.job = .none ∧
         (∀ a, reads t a = if a < image.length then image.getD a 0xFF#8 else reads s a) ∧
         t = { s with flash := t.flash, port := t.port, sound := t.sound, unsaved := t.unsaved, job := .none, image := t.image }) ∧
       (∃ t, exec (.saveWriteComplete false) s = .next t ∧ t.job = .none ∧ t.faults = failed ∧ t.unsaved = s.unsaved ∧
         (∀ a, 778 ≤ a → reads t a = reads s a) ∧ t.settings = s.settings ∧ t.txn = s.txn)) ∧
     (∀ page bs, op = .writePage page bs → bs.length ≤ 256 →
       (let base := 4096 + 256 * page
        (∃ t, exec (.bankWriteComplete true) s = .next t ∧
          (∀ a, reads t a = if base ≤ a ∧ a < base + 256 then bs.getD (a - base) 0xFF#8 else reads s a) ∧
          AsksFlash { who := .directory, op := .read 4096 1284, entered := s.partTime } t ∧
          t = { s with flash := t.flash, port := t.port, job := .bankRead, sound := { s.sound with dirPending := true } }) ∧
        (∃ t, exec (.bankWriteComplete false) s = .next t ∧ t.faults = failed ∧ t.job = .bankRead ∧
          (∀ a, a < base ∨ base + 256 ≤ a → reads t a = reads s a) ∧
          AsksFlash { who := .directory, op := .read 4096 1284, entered := s.partTime } t))))) ∧
  (∀ (s : State) (op : FlashOp) (at_ : Time), MemoriesCanonical s →
    s.port.busy = some ({ who := .store, op := op, entered := at_ }, true) →
    (let freed : FlashPort := { s.port with
       busy := if s.phase = .loading then some ({ who := .startUp, op := .read 0 778, entered := s.partTime }, false)
         else none }
     let ends := fun (c : Bool → Instr) (a n : Nat) (put : Nat → Byte) =>
       ((∃ t, exec (c true) s = .next t ∧ t = { s with flash := t.flash, port := freed } ∧
          ∀ x, Mem.read flashBlank t.flash x = if a ≤ x ∧ x < a + n then put (x - a) else Mem.read flashBlank s.flash x) ∧
        (∃ t, exec (c false) s = .next t ∧
          t = { s with flash := t.flash, port := freed, freeCount := s.freeCount + 1 } ∧
          ∀ x, x < a ∨ a + n ≤ x → Mem.read flashBlank t.flash x = Mem.read flashBlank s.flash x) : Prop)
     (op = .eraseSettings → ends .saveEraseComplete 0 4096 (fun _ => 0xFF#8)) ∧
     (∀ image, op = .writeImage image → image.length = 778 →
       ends .saveWriteComplete 0 778 (fun k => image.getD k 0xFF#8)) ∧
     (∀ page bs, op = .writePage page bs → bs.length ≤ 256 →
       ends .bankWriteComplete (4096 + 256 * page) 256 (fun k => bs.getD k 0xFF#8))))

/-- R177, R18, R140: an accepted CLEAR_FAULTS sets every record to CLEAR with a count of 0 and keeps its times,
clears the Motor Loop's record, history and counts with the MOTOR_FAULT hold, and takes the Smoke Controller from
FAULT to OFF with its fan as it stands; a group trip runs on. R176: a report counts up to 255, sets the last-seen time,
on a CLEAR record the first-seen time too, and makes it ACTIVE, or LATCHED when it is latched; an unlatched report leaves
LATCHED as it is, and the other kinds' records stand. -/
def Obligations.ClearFaultsClears : Prop :=
  (
    ∀ s f m src t, Dispatched s f m src t → f.kind = 0x22 →
      (let may : Prop := holdsDrive t src = true ∨ src = .localMaster
       (¬ may → exec .clearFaults s = .next (replied s f m src (.status .notHolder 0, t))) ∧
       (may → exec .clearFaults s = .next (replied s f m src (.status .ok 0, { t with
         faults := t.faults.map (fun r => { r with status := .clear, count := 0 })
         motor := { t.motor with fault := none, shorts := [], lastStall := none, stallCount := 0, openCount := 0,
                                 state := if t.motor.state = .fault then .stopped else t.motor.state }
         holds := t.holds.filter (fun h => h.source != .motorFault)
         smoke := if t.smoke.state = .fault then { t.smoke with state := .off, demand := 0, duty := 0, fault := none }
           else t.smoke }))))) ∧
  (
    ∀ (s : State) (k : FaultKind) (latched : Bool) (r : FaultRecord), s.faults[k.index]? = some r →
      (let t := reportFault k latched s
       let status := if latched = true ∨ r.status = .latched then FaultStatus.latched else .active
       t.faults[k.index]? = some { status := status, count := min 255 (r.count + 1), lastSeen := s.partTime
                                   firstSeen := if r.status = .clear then s.partTime else r.firstSeen } ∧
       (∀ j, j ≠ k.index → t.faults[j]? = s.faults[j]?) ∧ t = { s with faults := t.faults }))

/-- R178, R90, R175: power-on reset sets every block to its reset values; a soft reset, taken when the RESET's
reply has gone, keeps part time, the odometer and the Fault List besides. Both keep what the serial flash holds,
and an operation in progress runs on with its result discarded. That the soft reset is a step of its own, its rate
interval, the values the manual does not give, and that an undue command changes nothing are the model's choice
(logs 2, 8, 9, 30, 31, 35). -/
def Obligations.ResetsKeepWhatTheyKeep : Prop :=
  ∀ s : State,
    (let kept := fun (t : State) => t.port.waiting = [] ∧
       (∀ r d, s.port.busy = some (r, d) → t.port.busy = some (r, true)) ∧
       (s.port.busy = none → ∃ r, t.port.busy = some (r, false) ∧ r.who = .startUp ∧ r.op = .read 0 778)
     (∃ t, exec .powerOnReset s = .next t ∧ kept t ∧
       t = { State.reset with port := t.port, flash := s.flash, freeCount := s.freeCount, pending := s.pending }) ∧
     (s.resetWait = true → (∀ x ∈ s.replies, x.isReset = false) → ∃ t, exec .softReset s = .next t ∧ kept t ∧
       t = { State.reset with
         partTime := s.partTime, faults := s.faults
         motor := { State.reset.motor with odometer := s.motor.odometer }
         pub := { State.reset.pub with odometer := s.motor.odometer }
         rateDue := s.partTime + 500
         port := t.port, flash := s.flash, freeCount := s.freeCount, pending := s.pending }) ∧
     (s.resetWait = false ∨ (∃ x ∈ s.replies, x.isReset = true) → exec .softReset s = .next s))

/-- R178, R25, R144: the start-up read installs a valid image through the checks, or the factory defaults with
SETTINGS_DEFAULTED and the unsaved flag; a failed read also reports FLASH_ERROR. The supply starts in TRACK or, on
a low reading, in DARK with the SUPPLY hold and no STORE_LOW, and the clip directory is asked for; that it is
asked for by one read of 1284 bytes, that the first rate interval begins here, and that the smoke settings in use are the
loaded ones, are the model's choice (logs 26, 30, 56). -/
def Obligations.StartUpLoadInstalls : Prop :=
  ∀ (s : State) (ok : Bool) (vt vs : Nat) (op : FlashOp) (at_ : Time), vt ≤ 30000 → vs ≤ 20000 →
    s.port.busy = some ({ who := .startUp, op := op, entered := at_ }, false) →
    (let image := flashBytes s 0 778
     let valid := ok && (crcBytes (image.take 776) == image.drop 776)
     let record := fun (k : Nat) (l : List FaultRecord) => updateAt l k (fun r => r.report false s.partTime)
     ∃ t, exec (.settingsLoadComplete ok vt vs) s = .next t ∧ t.phase = .running ∧
      t.settings = (if valid = true then checkedImage (fun _ => true) (image.take 776) else factorySettings) ∧
      t.unsaved = !valid ∧
      t.faults = (if valid = true then s.faults else if ok = true then record 8 s.faults else record 8 (record 7 s.faults)) ∧
      t.demand = { s.demand with applied := wantedDir t } ∧
      (set16 t 232 ≤ vt → t.supply.state = .track ∧ t.holds = s.holds) ∧
      (vt < set16 t 232 → t.supply.state = .dark ∧ t.supply.holdFlag = true ∧
        t.holds = insertHold { plainStop .supply .normal with created := s.partTime } s.holds) ∧
      t.smoke.limit = (set16 t 224 : Int) + 60 ∧
      t.smoke.inUse = { setpoint := set16 t 224, maxDuty := set16 t 226, idle := set8 t 230 } ∧
      t.supply.vt = vt ∧ t.supply.vs = vs ∧ t.supply.lastActivity = s.partTime ∧ t.rateDue = s.partTime + 500 ∧
      t.sound.dirPending = true ∧ AsksFlash { who := .directory, op := .read 4096 1284, entered := s.partTime } t ∧
      t.flash = s.flash ∧ t.voiceRam = s.voiceRam)
end

