-- ==== Sys2Proof/Laws/Frames.lean ====
section
/-! SUPPORT. Frames: what each shared operation leaves alone. A state with some blocks blanked says at once
that every other block is unchanged. -/

namespace Sys2Proof.Machine

/-! ### Blanked states -/

/-- The state with the Sound Engine and the Flash Port blanked. -/
def State.offSound (s : State) : State := { s with sound := resetSound, port := { waiting := [], busy := none } }

/-- A fold of steps that each keep a view keeps it. -/
theorem foldl_keeps {α β γ : Type} (view : α → γ) (f : α → β → α) (h : ∀ a b, view (f a b) = view a) (l : List β)
    (a : α) : view (l.foldl f a) = view a := by
  induction l generalizing a with
  | nil => rfl
  | cons b l ih => exact (ih (f a b)).trans (h a b)

/-! ### The Sound Engine and the Flash Port -/

theorem setVoice_offSound (v : Nat) (vo : Voice) (s : State) : (setVoice v vo s).offSound = s.offSound := rfl

theorem requestFlash_offSound (w : Requester) (op : FlashOp) (s : State) :
    (requestFlash w op s).offSound = s.offSound := by
  unfold requestFlash; dsimp only; split <;> rfl

theorem withdrawVoice_offSound (v : Nat) (s : State) : (withdrawVoice v s).offSound = s.offSound := rfl

theorem portFreed_offSound (s : State) : (portFreed s).offSound = s.offSound := rfl

theorem askRun_offSound (v : Nat) (s : State) : (askRun v s).offSound = s.offSound := by
  unfold askRun; dsimp only
  split
  · split
    · rfl
    · rw [requestFlash_offSound, setVoice_offSound]
  · rfl

theorem primeVoice_offSound (v : Nat) (ph : CuePhase) (c : Clip) (pos : Nat) (s : State) :
    (primeVoice v ph c pos s).offSound = s.offSound := by
  unfold primeVoice; dsimp only
  split
  · rfl
  · split
    · rw [askRun_offSound, setVoice_offSound, withdrawVoice_offSound]
    · split
      · rw [setVoice_offSound, withdrawVoice_offSound]
      · rw [requestFlash_offSound, setVoice_offSound, withdrawVoice_offSound]

theorem idleVoice_offSound (v : Nat) (s : State) : (idleVoice v s).offSound = s.offSound := rfl

theorem chooseExhaust_offSound (c : Nat) (s : State) : (chooseExhaust c s).2.offSound = s.offSound := by
  unfold chooseExhaust
  split
  · rfl
  · split <;> rfl

theorem resumeFrom_offSound (v : Nat) (st : List StackEntry) (s : State) :
    (resumeFrom v st s).offSound = s.offSound := by
  induction st generalizing s with
  | nil => rfl
  | cons e rest ih =>
    unfold resumeFrom; dsimp only
    split
    · rw [primeVoice_offSound, setVoice_offSound]
      split
      · exact chooseExhaust_offSound _ _
      · rfl
    · rw [ih, setVoice_offSound]
      split
      · exact chooseExhaust_offSound _ _
      · rfl

theorem cueEnd_offSound (v : Nat) (s : State) : (cueEnd v s).offSound = s.offSound := resumeFrom_offSound _ _ _

theorem phaseEnd_offSound (v : Nat) (s : State) : (phaseEnd v s).offSound = s.offSound := by
  unfold phaseEnd; dsimp only
  split
  · rfl
  · split
    · split
      · exact cueEnd_offSound _ _
      · split
        · exact primeVoice_offSound _ _ _ _ _
        · exact cueEnd_offSound _ _
    · exact cueEnd_offSound _ _

theorem startOn_offSound (v c : Nat) (held : Bool) (ex : Option (Option Clip)) (s : State) :
    (startOn v c held ex s).offSound = s.offSound := by
  unfold startOn; dsimp only
  split
  · rw [primeVoice_offSound, setVoice_offSound]
  · rw [cueEnd_offSound, setVoice_offSound]

theorem freshOn_offSound (v c : Nat) (held : Bool) (ex : Option (Option Clip)) (stack : List StackEntry) (s : State) :
    (freshOn v c held ex stack s).offSound = s.offSound := by
  unfold freshOn; dsimp only
  rw [startOn_offSound, setVoice_offSound]; rfl

theorem freshStart_offSound (c : Nat) (held : Bool) (ex : Option (Option Clip)) (s : State) :
    (freshStart c held ex s).offSound = s.offSound := by
  unfold freshStart
  split
  · exact freshOn_offSound _ _ _ _ _ _
  · exact freshOn_offSound _ _ _ _ _ _
  · rfl
  · rfl

theorem takeStart_offSound (c : Nat) (held : Bool) (ex : Option (Option Clip)) (s : State) :
    (takeStart c held ex s).offSound = s.offSound := by
  unfold takeStart
  split
  · exact startOn_offSound _ _ _ _ _
  · rw [freshStart_offSound]; rfl

theorem startRequest_offSound (c : Nat) (held : Bool) (s : State) : (startRequest c held s).offSound = s.offSound := by
  unfold startRequest; dsimp only
  split
  · rfl
  · split
    · split
      · rw [takeStart_offSound, chooseExhaust_offSound]
      · rfl
    · exact takeStart_offSound _ _ _ _

theorem momentaryStart_offSound (c : Option Nat) (s : State) : (momentaryStart c s).offSound = s.offSound := by
  unfold momentaryStart
  split
  · exact startRequest_offSound _ _ _
  · rfl

theorem triggerEnd_offSound (c : Nat) (s : State) : (triggerEnd c s).offSound = s.offSound := by
  unfold triggerEnd; dsimp only; split <;> rfl

theorem fadeVoice_offSound (v : Nat) (s : State) : (fadeVoice v s).offSound = s.offSound := by
  unfold fadeVoice; dsimp only
  split
  · rfl
  · split <;> rfl

theorem goQuiet_offSound (s : State) : (goQuiet s).offSound = s.offSound := by
  unfold goQuiet; dsimp only
  rw [foldl_keeps State.offSound _ (fun a b => fadeVoice_offSound b a)]
  split
  · rw [triggerEnd_offSound]; rfl
  · rfl

theorem ambientBegin_offSound (s : State) : (ambientBegin s).offSound = s.offSound := by
  unfold ambientBegin; dsimp only
  split
  · rw [startRequest_offSound]; rfl
  · rfl

theorem updateMode_offSound (s : State) : (updateMode s).offSound = s.offSound := by
  unfold updateMode; dsimp only
  split
  · exact goQuiet_offSound _
  · split
    · rw [ambientBegin_offSound]; rfl
    · rfl
  · rfl

theorem soundSupplyChange_offSound (s : State) : (soundSupplyChange s).offSound = s.offSound := by
  unfold soundSupplyChange; dsimp only
  split
  · rw [ambientBegin_offSound, updateMode_offSound]
  · exact updateMode_offSound _

theorem ambientChanged_offSound (old : Option Nat) (s : State) : (ambientChanged old s).offSound = s.offSound := by
  unfold ambientChanged
  split
  · rw [ambientBegin_offSound]
    split
    · exact triggerEnd_offSound _ _
    · rfl
  · rfl

theorem turnHalf_offSound (v : Nat) (s : State) : (turnHalf v s).offSound = s.offSound := by
  unfold turnHalf; dsimp only
  rw [askRun_offSound, setVoice_offSound]

theorem leaveLoop_offSound (v lp : Nat) (s : State) : (leaveLoop v lp s).offSound = s.offSound := by
  unfold leaveLoop; dsimp only
  rw [askRun_offSound, setVoice_offSound, withdrawVoice_offSound]

theorem advanceVoice_offSound (v : Nat) (s : State) : (advanceVoice v s).offSound = s.offSound := by
  unfold advanceVoice; dsimp only
  split
  · split
    · split
      · split
        · rw [turnHalf_offSound, setVoice_offSound]
        · rfl
      · split
        · exact phaseEnd_offSound _ _
        · split
          · exact leaveLoop_offSound _ _ _
          · rfl
    · split
      · exact phaseEnd_offSound _ _
      · split
        · rw [turnHalf_offSound, setVoice_offSound]
        · rfl
  · rfl

theorem sampleEvent_offSound (s : State) : (sampleEvent s).offSound = s.offSound := by
  unfold sampleEvent; dsimp only
  rw [foldl_keeps State.offSound _ (fun a b => advanceVoice_offSound b a)]; rfl

theorem envelopeStep_offSound (v : Nat) (s : State) : (envelopeStep v s).offSound = s.offSound := by
  unfold envelopeStep; dsimp only
  split
  · rfl
  · split
    · rfl
    · rfl
    · split <;> rfl

theorem requestDirectory_offSound (s : State) : (requestDirectory s).offSound = s.offSound := by
  unfold requestDirectory; rw [requestFlash_offSound]; rfl

/-! ### The locomotive's own blocks: motor, motion, functions, sound, smoke, supply, faults -/

/-- The state with the Sound Engine, the Flash Port, the Smoke Controller, the Supply Supervisor, the Motion
Controller, the Motor Loop, the Function Table, the Fault List and the free-value counter blanked. -/
def State.offLoco (s : State) : State :=
  { s with
    sound := resetSound, port := { waiting := [], busy := none }, smoke := resetSmoke, supply := resetSupply,
    demand := State.reset.demand, holds := [], motor := resetMotor, pub := resetPublished, switches := [], faults := [],
    freeCount := 0 }

theorem offLoco_of_offSound {s t : State} (h : s.offSound = t.offSound) : s.offLoco = t.offLoco := by
  have := congrArg State.offLoco h
  exact this

theorem reportFault_offLoco (k : FaultKind) (b : Bool) (s : State) : (reportFault k b s).offLoco = s.offLoco := rfl

theorem applyHeater_offLoco (s : State) : (applyHeater s).offLoco = s.offLoco := rfl

theorem setFan_offLoco (m : FanMode) (s : State) : (setFan m s).offLoco = s.offLoco := rfl

theorem fanOnEntry_offLoco (st : SmokeState) (s : State) : (fanOnEntry st s).offLoco = s.offLoco := by
  unfold fanOnEntry
  split
  · rfl
  · rfl
  · rfl
  · split <;> rfl
  · split <;> rfl

theorem enterSmoke_offLoco (st : SmokeState) (s : State) : (enterSmoke st s).offLoco = s.offLoco := by
  unfold enterSmoke; dsimp only
  rw [applyHeater_offLoco]
  split
  · rfl
  · exact fanOnEntry_offLoco st _

theorem smokeDecide_offLoco (s : State) : (smokeDecide s).offLoco = s.offLoco := by
  unfold smokeDecide; dsimp only
  split
  · rfl
  · split
    · rfl
    · exact enterSmoke_offLoco _ _

theorem smokeFaultEnter_offLoco (r : SmokeFault) (k : FaultKind) (s : State) :
    (smokeFaultEnter r k s).offLoco = s.offLoco := rfl

theorem smokeSensorDetected_offLoco (s : State) : (smokeSensorDetected s).offLoco = s.offLoco := by
  unfold smokeSensorDetected; dsimp only
  split
  · split <;> rfl
  · rfl

theorem fanAtPeriod_offLoco (s : State) : (fanAtPeriod s).offLoco = s.offLoco := by
  unfold fanAtPeriod
  repeat' split
  all_goals rfl

theorem fanInFault_offLoco (v : Bool) (s : State) : (fanInFault v s).offLoco = s.offLoco := by
  unfold fanInFault
  split
  · split
    · rfl
    · exact fanAtPeriod_offLoco _
  · exact fanAtPeriod_offLoco _

theorem firstOffEntry_offLoco (s : State) : (firstOffEntry s).offLoco = s.offLoco := by
  unfold firstOffEntry
  split
  · exact fanOnEntry_offLoco _ _
  · rfl

theorem takeReading_offLoco (t : Int) (s : State) : (takeReading t s).offLoco = s.offLoco := rfl

theorem takeSmokeSettings_offLoco (s : State) : (takeSmokeSettings s).offLoco = s.offLoco := rfl

theorem smokePeriod_offLoco (r : Int) (s : State) : (smokePeriod r s).offLoco = s.offLoco := by
  have hs := takeSmokeSettings_offLoco s
  have hr := (takeReading_offLoco r (takeSmokeSettings s)).trans hs
  unfold smokePeriod; dsimp only
  show State.offLoco (ite _ _ _) = _
  split
  · split
    · rw [fanInFault_offLoco, smokeSensorDetected_offLoco, hs]
    · rw [smokeSensorDetected_offLoco, hs]
  · split
    · rw [fanInFault_offLoco, hr]
    · split
      · rw [smokeFaultEnter_offLoco, hr]
      · split
        · rw [enterSmoke_offLoco, firstOffEntry_offLoco, fanAtPeriod_offLoco, hr]
        · rw [enterSmoke_offLoco, hr]

theorem smokeChuff_offLoco (s : State) : (smokeChuff s).offLoco = s.offLoco := by
  unfold smokeChuff; dsimp only; split <;> rfl

theorem puffEnds_offLoco (s : State) : (puffEnds s).offLoco = s.offLoco := by
  unfold puffEnds
  split
  · split <;> rfl
  · rfl

theorem fanStops_offLoco (s : State) : (fanStops s).offLoco = s.offLoco := by
  unfold fanStops
  split
  · split <;> rfl
  · rfl

theorem smokeCleared_offLoco (s : State) : (smokeCleared s).offLoco = s.offLoco := by
  unfold smokeCleared; split <;> rfl

theorem setpointApplied_offLoco (s : State) : (setpointApplied s).offLoco = s.offLoco := rfl

theorem installHold_offLoco (h : Hold) (s : State) : (installHold h s).offLoco = s.offLoco := rfl

theorem removeHold_offLoco (src : HoldSource) (s : State) : (removeHold src s).offLoco = s.offLoco := rfl

theorem endCheck_offLoco (r : CheckResult) (e : Option Nat) (s : State) : (endCheck r e s).offLoco = s.offLoco := rfl

theorem abandonCheck_offLoco (s : State) : (abandonCheck s).offLoco = s.offLoco := by
  unfold abandonCheck; split <;> rfl

theorem motorDark_offLoco (s : State) : (motorDark s).offLoco = s.offLoco := rfl

theorem supplyEntry_offLoco (o n : SupplyState) (s : State) : (supplyEntry o n s).offLoco = s.offLoco := by
  unfold supplyEntry
  split
  · split <;> rfl
  · rfl
  · dsimp only; split <;> rfl
  · rfl

theorem soundSupplyChange_offLoco (s : State) : (soundSupplyChange s).offLoco = s.offLoco :=
  offLoco_of_offSound (soundSupplyChange_offSound s)

theorem loadsReact_offLoco (o : SupplyState) (s : State) : (loadsReact o s).offLoco = s.offLoco := by
  have h1 : State.offLoco (if o = .track ∧ s.supply.state ≠ .track then abandonCheck s else s) = s.offLoco := by
    split
    · exact abandonCheck_offLoco _
    · rfl
  unfold loadsReact; dsimp only
  rw [soundSupplyChange_offLoco, smokeDecide_offLoco]
  generalize (if o = .track ∧ s.supply.state ≠ .track then abandonCheck s else s) = t at h1 ⊢
  split
  · exact (motorDark_offLoco _).trans h1
  · exact h1

theorem changeSupply_offLoco (n : SupplyState) (s : State) : (changeSupply n s).offLoco = s.offLoco := by
  unfold changeSupply; dsimp only
  split
  · rfl
  · rw [loadsReact_offLoco, supplyEntry_offLoco]

theorem activity_offLoco (s : State) : (activity s).offLoco = s.offLoco := by
  unfold activity; dsimp only
  split
  · rw [changeSupply_offLoco]; rfl
  · rfl

theorem timeRestore_offLoco (s : State) : (timeRestore s).offLoco = s.offLoco := by
  unfold timeRestore
  split
  · rfl
  · split <;> rfl

theorem decideSupply_offLoco (s : State) : (decideSupply s).offLoco = s.offLoco := by
  unfold decideSupply
  split
  · split
    · exact changeSupply_offLoco _ _
    · split
      · exact changeSupply_offLoco _ _
      · rfl
  · split
    · exact changeSupply_offLoco _ _
    · split
      · exact changeSupply_offLoco _ _
      · rfl
  · dsimp only
    split
    · rw [changeSupply_offLoco, timeRestore_offLoco]
    · split
      · rw [changeSupply_offLoco, timeRestore_offLoco]
      · exact timeRestore_offLoco _
  · dsimp only
    split
    · rw [changeSupply_offLoco, timeRestore_offLoco]
    · exact timeRestore_offLoco _

theorem decideHold_offLoco (s : State) : (decideHold s).offLoco = s.offLoco := by
  unfold decideHold; split <;> rfl

theorem publishGrants_offLoco (s : State) : (publishGrants s).offLoco = s.offLoco := rfl

theorem senseSupply_offLoco (vt vs : Nat) (s : State) : (senseSupply vt vs s).offLoco = s.offLoco := rfl

theorem budgetPeriod_offLoco (vt vs : Nat) (s : State) : (budgetPeriod vt vs s).offLoco = s.offLoco := by
  unfold budgetPeriod
  rw [publishGrants_offLoco, decideHold_offLoco, decideSupply_offLoco, senseSupply_offLoco]

theorem supplyStart_offLoco (vt vs : Nat) (s : State) : (supplyStart vt vs s).offLoco = s.offLoco := by
  unfold supplyStart; dsimp only
  rw [publishGrants_offLoco, smokeDecide_offLoco]
  split <;> rfl

theorem momentaryStart_offLoco (c : Option Nat) (s : State) : (momentaryStart c s).offLoco = s.offLoco :=
  offLoco_of_offSound (momentaryStart_offSound c s)

theorem brakeOn_offLoco (s : State) : (brakeOn s).offLoco = s.offLoco := by
  unfold brakeOn; rw [momentaryStart_offLoco]; rfl

theorem cueChange_offLoco (a b : Bool) (c : Nat) (s : State) : (cueChange a b c s).offLoco = s.offLoco := by
  unfold cueChange
  split
  · exact offLoco_of_offSound (triggerEnd_offSound _ _)
  · split
    · exact offLoco_of_offSound (startRequest_offSound _ _ _)
    · rfl

theorem featureEvents_offLoco (old s : State) : (featureEvents old s).offLoco = s.offLoco := by
  unfold featureEvents; dsimp only
  have d : ∀ (b : Bool) (t : State), State.offLoco (if b = true then smokeDecide t else t) = t.offLoco := by
    intro b t
    split
    · exact smokeDecide_offLoco t
    · rfl
  rw [d]
  have h : ∀ (a b : Bool) (l : List Nat) (t : State),
      (l.foldl (fun s c => cueChange a b c s) t).offLoco = t.offLoco :=
    fun a b l t => foldl_keeps State.offLoco _ (fun x y => cueChange_offLoco a b y x) l t
  split
  · rw [brakeOn_offLoco, h, h]
  · rw [h, h]

theorem writeSwitches_offLoco (g m v : Nat) (src : Source) (s : State) :
    (writeSwitches g m v src s).offLoco = s.offLoco := by
  unfold writeSwitches; rw [featureEvents_offLoco]; rfl

theorem funcTaken_offLoco (g m v : Nat) (src : Source) (s : State) : (funcTaken g m v src s).offLoco = s.offLoco := by
  unfold funcTaken; rw [activity_offLoco, writeSwitches_offLoco]

theorem beaconFunction_offLoco (i d : Nat) (s : State) : (beaconFunction i d s).offLoco = s.offLoco := by
  unfold beaconFunction; rw [featureEvents_offLoco]; rfl

theorem switchExpires_offLoco (i : Nat) (s : State) : (switchExpires i s).offLoco = s.offLoco := by
  unfold switchExpires
  split
  · split
    · rw [featureEvents_offLoco]; rfl
    · rfl
  · rfl

theorem flipApplied_offLoco (d : Dir) (s : State) : (flipApplied d s).offLoco = s.offLoco := by
  unfold flipApplied; dsimp only
  rw [featureEvents_offLoco, abandonCheck_offLoco]; rfl

theorem reconcile_offLoco (a : Bool) (s : State) : (reconcile a s).offLoco = s.offLoco := by
  unfold reconcile; dsimp only
  split
  · rfl
  · have h : State.offLoco (if pubStands s = true then flipApplied (wantedDir s) s
        else { s with demand := { s.demand with pending := true } }) = s.offLoco := by
      split
      · exact flipApplied_offLoco _ _
      · rfl
    split
    · rw [momentaryStart_offLoco]; exact h
    · exact h

theorem completeReversal_offLoco (s : State) : (completeReversal s).offLoco = s.offLoco := by
  unfold completeReversal
  split
  · exact flipApplied_offLoco _ _
  · rfl

theorem driveStored_offLoco (t : Nat) (d : Dir) (src : Source) (s : State) :
    (driveStored t d src s).offLoco = s.offLoco := by
  unfold driveStored; dsimp only
  rw [activity_offLoco, reconcile_offLoco]
  split <;> rfl

theorem dwellEnds_offLoco (s : State) : (dwellEnds s).offLoco = s.offLoco := by
  unfold dwellEnds
  split
  · dsimp only
    split
    · rw [reconcile_offLoco]; rfl
    · rfl
  · rfl

theorem enterDwell_offLoco (h : Hold) (s : State) : (enterDwell h s).offLoco = s.offLoco := by
  unfold enterDwell; dsimp only
  split
  · rw [dwellEnds_offLoco]; rfl
  · rfl

theorem beginDwell_offLoco (s : State) : (beginDwell s).offLoco = s.offLoco := by
  unfold beginDwell
  split
  · split
    · exact enterDwell_offLoco _ _
    · rfl
  · rfl

theorem expireCap_offLoco (s : State) : (expireCap s).offLoco = s.offLoco := by
  unfold expireCap
  split
  · split <;> rfl
  · rfl

theorem installStop_offLoco (d : Decel) (w : Option Nat) (r : Bool) (o : Origin) (s : State) :
    (installStop d w r o s).offLoco = s.offLoco := by
  unfold installStop
  split
  · dsimp only
    split
    · rw [enterDwell_offLoco]; rfl
    · rfl
  · rfl

theorem installCap_offLoco (v l : Nat) (o : Origin) (s : State) : (installCap v l o s).offLoco = s.offLoco := by
  unfold installCap; split <;> rfl

theorem dwellReached_offLoco (s : State) : (dwellReached s).offLoco = s.offLoco := by
  unfold dwellReached
  split
  · split
    · exact dwellEnds_offLoco _
    · rfl
  · rfl

theorem consistTold_offLoco (old s : State) : (consistTold old s).offLoco = s.offLoco := by
  have h : State.offLoco (match findHold s .beacon with
      | some h =>
        if (match h.origin with
          | some .consist => !originTaken s .consist || consistAddress s != consistAddress old
          | _ => !originTaken s .own) = true then removeHold .beacon s else s
      | none => s) = s.offLoco := by
    repeat' split
    all_goals rfl
  unfold consistTold; dsimp only
  split
  · exact h
  · rw [reconcile_offLoco]; exact h

theorem stopTaken_offLoco (src : Option Source) (s : State) : (stopTaken src s).offLoco = s.offLoco := by
  unfold stopTaken; split <;> rfl

theorem takeMotorFault_offLoco (k : FaultKind) (r : Option Time) (s : State) :
    (takeMotorFault k r s).offLoco = s.offLoco := rfl

theorem stallDetected_offLoco (s : State) : (stallDetected s).offLoco = s.offLoco := rfl

theorem shortDetected_offLoco (s : State) : (shortDetected s).offLoco = s.offLoco := rfl

theorem detectFaults_offLoco (s : State) : (detectFaults s).offLoco = s.offLoco := by
  unfold detectFaults
  split
  · rfl
  · split <;> rfl

theorem finishCheck_offLoco (s : State) : (finishCheck s).offLoco = s.offLoco := by
  unfold finishCheck; split <;> rfl

theorem checkPeriod_offLoco (m p : Nat) (s : State) : (checkPeriod m p s).offLoco = s.offLoco := by
  unfold checkPeriod; dsimp only
  split
  · rfl
  · split
    · rw [finishCheck_offLoco]; rfl
    · rfl

theorem checkTaken_offLoco (s : State) : (checkTaken s).offLoco = s.offLoco := by
  unfold checkTaken
  split
  · rfl
  · split <;> rfl

theorem chuff_offLoco (s : State) : (chuff s).offLoco = s.offLoco := by
  unfold chuff; rw [smokeChuff_offLoco, momentaryStart_offLoco]

theorem classify_offLoco (s : State) : (classify s).offLoco = s.offLoco := by
  unfold classify; split <;> rfl

theorem settle_offLoco (b : Bool) (s : State) : (settle b s).offLoco = s.offLoco := by
  unfold settle; split
  · rfl
  · exact classify_offLoco s

theorem startCheck_offLoco (s : State) : (startCheck s).offLoco = s.offLoco := by
  unfold startCheck; split <;> rfl

theorem publish_offLoco (s : State) : (publish s).offLoco = s.offLoco := rfl

theorem motionEvent_offLoco (o : MotionPhase) (s : State) : (motionEvent o s).offLoco = s.offLoco := by
  unfold motionEvent
  split
  · exact momentaryStart_offLoco _ _
  · split
    · exact momentaryStart_offLoco _ _
    · rfl

theorem afterPublish_offLoco (o : MotionPhase) (a b : Bool) (s : State) : (afterPublish o a b s).offLoco = s.offLoco := by
  have h : State.offLoco (if a = true then chuff (expireCap (beginDwell (completeReversal s)))
      else expireCap (beginDwell (completeReversal s))) = s.offLoco := by
    split
    · rw [chuff_offLoco, expireCap_offLoco, beginDwell_offLoco, completeReversal_offLoco]
    · rw [expireCap_offLoco, beginDwell_offLoco, completeReversal_offLoco]
  unfold afterPublish; dsimp only
  rw [settle_offLoco, motionEvent_offLoco]; exact h

theorem measure_offLoco (c m : Nat) (s : State) : (measure c m s).offLoco = s.offLoco := rfl

theorem drivePeriod_offLoco (t : Nat) (a : Option Nat) (d : EffDecel) (s : State) :
    (drivePeriod t a d s).offLoco = s.offLoco := by
  unfold drivePeriod; dsimp only; rw [detectFaults_offLoco]; rfl

theorem middleStages_offLoco (t m : Nat) (a : Option Nat) (d : EffDecel) (s : State) :
    (middleStages t m a d s).offLoco = s.offLoco := by
  unfold middleStages
  split
  · rfl
  · split
    · rfl
    · exact checkPeriod_offLoco _ _ _
    · exact drivePeriod_offLoco _ _ _ _

theorem stage7_offLoco (b f : Nat) (d : Bool) (s : State) : (stage7 b f d s).1.offLoco = s.offLoco := rfl

theorem controlPeriod_offLoco (c m : Nat) (s : State) : (controlPeriod c m s).offLoco = s.offLoco := by
  unfold controlPeriod; dsimp only
  rw [afterPublish_offLoco, publish_offLoco, stage7_offLoco, middleStages_offLoco, measure_offLoco]
  split
  · rw [abandonCheck_offLoco, startCheck_offLoco]
  · exact startCheck_offLoco s

theorem shortSensed_offLoco (c : Nat) (s : State) : (shortSensed c s).offLoco = s.offLoco := by
  unfold shortSensed
  split
  · split
    · rfl
    · split <;> rfl
  · rfl

theorem faultPeriod_offLoco (k : FaultKind) (c m : Nat) (s : State) : (faultPeriod k c m s).offLoco = s.offLoco := by
  unfold faultPeriod; dsimp only
  split
  · exact controlPeriod_offLoco _ _ _
  · rfl

theorem faultRetried_offLoco (s : State) : (faultRetried s).offLoco = s.offLoco := by
  unfold faultRetried
  split
  · split <;> rfl
  · rfl

theorem motorCleared_offLoco (s : State) : (motorCleared s).offLoco = s.offLoco := rfl

theorem camInput_offLoco (l : Level) (s : State) : (camInput l s).offLoco = s.offLoco := by
  unfold camInput; split <;> rfl

theorem camChuffed_offLoco (s : State) : (camChuffed s).offLoco = s.offLoco := by
  unfold camChuffed
  split
  · rw [chuff_offLoco]; rfl
  · rfl

theorem clearFaults_offLoco (s : State) : (clearFaults s).offLoco = s.offLoco := by
  unfold clearFaults; rw [smokeCleared_offLoco]; rfl

end Sys2Proof.Machine
end

