-- ==== Sys2Proof/Laws/Claims.lean ====
section
/-! SUPPORT. The Claim Table and the Throttle Table: each of their operations keeps the claims sound. -/

namespace Sys2Proof.Machine

/-- What the soundness of the claims reads. -/
def State.claimsView (s : State) : DriveClaim × List (Option HolderItem) × List (Option ThrottleEntry) :=
  (s.drive, s.groups, s.throttles)

theorem claimsView_of_offLoco {s t : State} (h : s.offLoco = t.offLoco) : s.claimsView = t.claimsView := by
  have := congrArg State.claimsView h
  exact this

theorem claimsView_of_offSound {s t : State} (h : s.offSound = t.offSound) : s.claimsView = t.claimsView := by
  have := congrArg State.claimsView h
  exact this

theorem ClaimsSound.of_view {s t : State} (h : ClaimsSound s) (hv : t.claimsView = s.claimsView) : ClaimsSound t := by
  simp only [State.claimsView, Prod.mk.injEq] at hv
  obtain ⟨hd, hg, ht⟩ := hv
  have he : ∀ i, entry t i = entry s i := fun i => by rw [entry, entry, ht]
  refine ⟨?_, ?_, ?_, ?_, ?_, ?_⟩
  · rw [hd]; exact h.shape
  · rw [hd]; exact h.distinct
  · rw [hd]; exact h.generation
  · intro i hi
    rw [he i]
    refine h.present i ?_
    rw [namedByClaim, hd, hg] at hi
    exact hi
  · rw [ht]; exact h.table
  · rw [hg]; exact h.groups

/-- A claim item names an index. -/
theorem namedByClaim_iff (s : State) (i : Nat) :
    namedByClaim s i = true ↔
      (∃ h ∈ s.drive.holders, h.source = .throttle i) ∨ (∃ h, some h ∈ s.groups ∧ h.source = .throttle i) := by
  unfold namedByClaim
  rw [Bool.or_eq_true, List.any_eq_true, List.any_eq_true]
  refine or_congr ?_ ?_
  · exact exists_congr fun h => and_congr_right fun _ => by simp
  · constructor
    · rintro ⟨g, hg, hm⟩
      cases g with
      | none => simp at hm
      | some h => exact ⟨h, hg, by simpa using hm⟩
    · rintro ⟨h, hg, hm⟩
      exact ⟨some h, hg, by simpa using hm⟩

theorem endTxn_claimsView (s : State) : (endTxn s).claimsView = s.claimsView := by
  exact claimsView_of_offSound (s := endTxn s)
    (t := { s with txn := { s.txn with state := .closed, staged := [] } }) (updateMode_offSound _)

theorem abortTxnOf_claimsView (src : Source) (s : State) : (abortTxnOf src s).claimsView = s.claimsView := by
  unfold abortTxnOf
  split
  · exact endTxn_claimsView s
  · rfl

theorem driveLost_claimsView (src : Source) (s : State) : (driveLost src s).claimsView = s.claimsView := by
  unfold driveLost
  split
  · exact abortTxnOf_claimsView _ _
  · rfl

theorem entry_setEntry (i j : Nat) (e : Option ThrottleEntry) (s : State) (h : i < s.throttles.length) :
    entry (setEntry i e s) j = if i = j then e else entry s j := by
  unfold entry setEntry
  dsimp only
  rw [List.getD_eq_getElem?_getD, List.getD_eq_getElem?_getD, List.getElem?_set]
  by_cases hij : i = j
  · subst hij; rw [if_pos rfl, if_pos rfl, if_pos h]; rfl
  · rw [if_neg hij, if_neg hij]

theorem entry_beyond (s : State) (i : Nat) (h : s.throttles.length ≤ i) : entry s i = none := by
  unfold entry
  rw [List.getD_eq_getElem?_getD, List.getElem?_eq_none h]; rfl

/-- An entry that is replaced by another stays present. -/
theorem setEntry_claimsSound (i : Nat) (e : ThrottleEntry) (s : State) (h : ClaimsSound s) :
    ClaimsSound (setEntry i (some e) s) := by
  refine ⟨h.shape, h.distinct, h.generation, ?_, ?_, h.groups⟩
  · intro j hj
    have hs := h.present j hj
    by_cases hi : i < s.throttles.length
    · rw [entry_setEntry i j _ s hi]
      split
      · rfl
      · exact hs
    · have : setEntry i (some e) s = s := by
        unfold setEntry; rw [List.set_eq_of_length_le (by omega)]
      rw [this]; exact hs
  · change (s.throttles.set i (some e)).length = 16
    rw [List.length_set]; exact h.table

/-- The removal of an entry that no claim names. -/
theorem removeEntry_sound (i : Nat) (s : State) (h : ClaimsSound s) (hn : namedByClaim s i = false) :
    ClaimsSound (removeEntry i s) := by
  unfold removeEntry
  refine ClaimsSound.of_view (s := setEntry i none s) ?_ (abortTxnOf_claimsView _ _)
  refine ⟨h.shape, h.distinct, h.generation, ?_, ?_, h.groups⟩
  · intro j hj
    have hj' : namedByClaim s j = true := hj
    have hs := h.present j hj'
    by_cases hi : i < s.throttles.length
    · rw [entry_setEntry i j _ s hi, if_neg ?_]
      · exact hs
      · rintro rfl; rw [hn] at hj'; exact absurd hj' (by decide)
    · have : setEntry i none s = s := by
        unfold setEntry; rw [List.set_eq_of_length_le (by omega)]
      rw [this]; exact hs
  · change (s.throttles.set i none).length = 16
    rw [List.length_set]; exact h.table

theorem forgetIfDue_sound (i : Nat) (s : State) (h : ClaimsSound s) : ClaimsSound (forgetIfDue i s) := by
  unfold forgetIfDue
  split
  · split
    · rename_i hc
      rw [Bool.and_eq_true] at hc
      exact removeEntry_sound i s h (by simpa using hc.2)
    · exact h
  · exact h

theorem itemGone_sound (src : Source) (s : State) (h : ClaimsSound s) : ClaimsSound (itemGone src s) := by
  unfold itemGone
  split
  · unfold releaseNotice
    split
    · exact h
    · exact forgetIfDue_sound _ s h
  · exact h

theorem foldl_sound {β : Type} (f : State → β → State) (hf : ∀ s b, ClaimsSound s → ClaimsSound (f s b)) (l : List β)
    (s : State) (h : ClaimsSound s) : ClaimsSound (l.foldl f s) := by
  induction l generalizing s with
  | nil => exact h
  | cons b l ih => exact ih _ (hf s b h)

theorem nextGeneration_range {g : Nat} (h : 1 ≤ g ∧ g ≤ 65535) :
    1 ≤ nextGeneration g ∧ nextGeneration g ≤ 65535 := by
  unfold nextGeneration; split <;> omega

/-- A holder list of a legal shape whose throttles are present may replace the present one. -/
theorem changeHolders_sound (mode : DriveMode) (l : List HolderItem) (s : State) (h : ClaimsSound s)
    (hshape : l = [] ∨ (mode = .exclusive ∧ l.length = 1) ∨ (mode = .shared ∧ 1 ≤ l.length ∧ l.length ≤ 3))
    (hnd : (l.map (·.source)).Nodup) (hp : ∀ x ∈ l, ∀ i, x.source = .throttle i → (entry s i).isSome = true) :
    ClaimsSound (changeHolders mode l s) := by
  unfold changeHolders
  dsimp only
  refine foldl_sound _ ?_ _ _ ?_
  · intro t x ht
    exact itemGone_sound x _ (ht.of_view (driveLost_claimsView x t))
  · refine ⟨?_, hnd, nextGeneration_range h.generation, ?_, h.table, h.groups⟩
    · rcases hshape with rfl | ⟨rfl, hl⟩ | ⟨rfl, hl⟩
      · exact .inl ⟨rfl, rfl⟩
      · right; left
        refine ⟨?_, hl⟩
        cases l with
        | nil => simp at hl
        | cons a l => rfl
      · right; right
        refine ⟨?_, hl⟩
        cases l with
        | nil => simp at hl
        | cons a l => rfl
    · intro i hi
      rw [namedByClaim_iff] at hi
      rcases hi with ⟨x, hx, he⟩ | hg
      · exact hp x hx i he
      · exact h.present i ((namedByClaim_iff s i).2 (.inr hg))

/-- A present sender. -/
def SenderPresent (src : Source) (s : State) : Prop := ∀ i, src = .throttle i → (entry s i).isSome = true

theorem changeGroup_sound (g : Nat) (item : Option HolderItem) (s : State) (h : ClaimsSound s)
    (hp : ∀ x, item = some x → SenderPresent x.source s) : ClaimsSound (changeGroup g item s) := by
  have h1 : ClaimsSound { s with groups := s.groups.set g item } := by
    refine ⟨h.shape, h.distinct, h.generation, ?_, h.table, ?_⟩
    · intro i hi
      rw [namedByClaim_iff] at hi
      rcases hi with hd | ⟨x, hx, he⟩
      · exact h.present i ((namedByClaim_iff s i).2 (.inl hd))
      · rcases List.mem_or_eq_of_mem_set hx with hx | hx
        · exact h.present i ((namedByClaim_iff s i).2 (.inr ⟨x, hx, he⟩))
        · exact hp x hx.symm i he
    · change (s.groups.set g item).length = 4
      rw [List.length_set]; exact h.groups
  unfold changeGroup
  dsimp only
  split
  · exact itemGone_sound _ _ h1
  · exact h1

theorem removeHold_claimsView (src : HoldSource) (s : State) : (removeHold src s).claimsView = s.claimsView := rfl

theorem grantDrive_sound (mode : DriveMode) (l : List HolderItem) (s : State) (h : ClaimsSound s)
    (hshape : (mode = .exclusive ∧ l.length = 1) ∨ (mode = .shared ∧ 1 ≤ l.length ∧ l.length ≤ 3))
    (hnd : (l.map (·.source)).Nodup) (hp : ∀ x ∈ l, ∀ i, x.source = .throttle i → (entry s i).isSome = true) :
    ClaimsSound (grantDrive mode l s) :=
  (changeHolders_sound mode l s h (.inr hshape) hnd hp).of_view (removeHold_claimsView _ _)

theorem holder_present {s : State} (h : ClaimsSound s) {x : HolderItem} (hx : x ∈ s.drive.holders) {i : Nat}
    (he : x.source = .throttle i) : (entry s i).isSome = true :=
  h.present i ((namedByClaim_iff s i).2 (.inl ⟨x, hx, he⟩))

theorem claimDrive_sound (mode : DriveMode) (steal : Bool) (src : Source) (s t : State) (h : ClaimsSound s)
    (hm : mode = .exclusive ∨ mode = .shared) (hp : SenderPresent src s)
    (ht : claimDrive mode steal src s = some t) : ClaimsSound t := by
  have hone : ∀ {t}, some (grantDrive mode [activeItem src] s) = some t → ClaimsSound t := by
    rintro t ⟨⟩
    refine grantDrive_sound _ _ s h ?_ (by simp) ?_
    · rcases hm with rfl | rfl
      · exact .inl ⟨rfl, rfl⟩
      · exact .inr ⟨rfl, by simp⟩
    · intro x hx i he
      rw [List.mem_singleton] at hx
      subst hx
      exact hp i he
  unfold claimDrive at ht
  split at ht
  · cases ht; exact h
  · rename_i hno
    split at ht
    · exact hone ht
    · split at ht
      · exact hone ht
      · split at ht
        · rename_i hc
          cases ht
          refine grantDrive_sound _ _ s h (.inr ⟨rfl, ?_⟩) ?_ ?_
          · simp only [List.length_append, List.length_singleton]; omega
          · rw [List.map_append, List.nodup_append]
            refine ⟨h.distinct, by simp, ?_⟩
            intro a ha b hb
            simp only [List.map_cons, List.map_nil, List.mem_singleton] at hb
            subst hb
            rintro rfl
            apply hno
            rw [List.mem_map] at ha
            obtain ⟨x, hx, hxs⟩ := ha
            unfold hasDriveItem
            rw [List.any_eq_true]
            exact ⟨x, hx, by simpa using hxs⟩
          · intro x hx i he
            rw [List.mem_append, List.mem_singleton] at hx
            rcases hx with hx | rfl
            · exact holder_present h hx he
            · exact hp i he
        · cases ht

/-- A source that a list names at most once. -/
theorem filter_source_length (src : Source) :
    ∀ (l : List HolderItem), (l.map (·.source)).Nodup → (l.filter (fun h => h.source == src)).length ≤ 1
  | [], _ => by simp
  | x :: xs, hnd => by
    rw [List.map_cons, List.nodup_cons] at hnd
    rw [List.filter_cons]
    split
    · rename_i hx
      have : xs.filter (fun h => h.source == src) = [] := by
        rw [List.filter_eq_nil_iff]
        intro y hy hys
        apply hnd.1
        rw [List.mem_map]
        refine ⟨y, hy, ?_⟩
        simp only [beq_iff_eq] at hx hys
        rw [hx, hys]
      rw [this]; simp
    · exact filter_source_length src xs hnd.2

theorem overrideDrive_sound (mode : DriveMode) (s : State) (h : ClaimsSound s) (hm : mode = .exclusive ∨ mode = .shared) :
    ClaimsSound (overrideDrive mode s) := by
  have hle := filter_source_length .localMaster s.drive.holders h.distinct
  have hloc : ∀ x ∈ s.drive.holders.filter (fun h => h.source == .localMaster), ∀ i, x.source ≠ .throttle i := by
    intro x hx i he
    have := (List.mem_filter.1 hx).2
    rw [he] at this
    simp at this
  unfold overrideDrive
  dsimp only
  split
  · refine grantDrive_sound _ _ s h ?_ (by simp) ?_
    · rcases hm with rfl | rfl
      · exact .inl ⟨rfl, rfl⟩
      · exact .inr ⟨rfl, by simp⟩
    · intro x hx i he
      rw [List.mem_singleton] at hx
      subst hx
      cases he
  · rename_i hne
    have hpos : (s.drive.holders.filter (fun h => h.source == .localMaster)).length = 1 := by
      cases hf : s.drive.holders.filter (fun h => h.source == .localMaster) with
      | nil => rw [hf] at hne; simp at hne
      | cons a l => rw [hf] at hle; simp only [List.length_cons] at hle ⊢; omega
    split
    · rename_i hl
      refine ⟨?_, h.distinct, h.generation, h.present, h.table, h.groups⟩
      rw [hpos] at hl
      rcases hm with rfl | rfl
      · exact .inr (.inl ⟨rfl, hl.symm⟩)
      · exact .inr (.inr ⟨rfl, by rw [← hl]; decide⟩)
    · refine changeHolders_sound _ _ s h ?_ ?_ ?_
      · rcases hm with rfl | rfl
        · exact .inr (.inl ⟨rfl, hpos⟩)
        · exact .inr (.inr ⟨rfl, by rw [hpos]; decide⟩)
      · exact h.distinct.sublist (List.filter_sublist.map _)
      · intro x hx i he
        exact absurd he (hloc x hx i)

theorem claimGroup_sound (g : Nat) (steal : Bool) (src : Source) (s t : State) (h : ClaimsSound s)
    (hp : SenderPresent src s) (ht : claimGroup g steal src s = some t) : ClaimsSound t := by
  have hc : ClaimsSound (changeGroup g (some (activeItem src)) s) :=
    changeGroup_sound g _ s h (by rintro x ⟨⟩; exact hp)
  unfold claimGroup at ht
  split at ht
  · cases ht; exact hc
  · split at ht
    · cases ht; exact h
    · split at ht
      · cases ht; exact hc
      · cases ht

theorem activity_claimsView (s : State) : (activity s).claimsView = s.claimsView :=
  claimsView_of_offLoco (activity_offLoco s)

theorem claimTaken_sound (r m : Nat) (st ov : Bool) (src : Source) (s : State) (h : ClaimsSound s)
    (hp : SenderPresent src s) : ClaimsSound (claimTaken r m st ov src s).2 := by
  unfold claimTaken
  split
  · exact h
  · dsimp only
    have hm : (if m = 1 then DriveMode.shared else DriveMode.exclusive) = .exclusive ∨
        (if m = 1 then DriveMode.shared else DriveMode.exclusive) = .shared := by
      split
      · exact .inr rfl
      · exact .inl rfl
    split
    · rename_i t ht
      refine ClaimsSound.of_view (s := t) ?_ (activity_claimsView t)
      split at ht
      · split at ht
        · cases ht; exact overrideDrive_sound _ s h hm
        · exact claimDrive_sound _ _ _ s t h hm hp ht
      · split at ht
        · cases ht
          exact changeGroup_sound _ _ s h (by rintro x ⟨⟩; intro i hi; cases hi)
        · exact claimGroup_sound _ _ _ s t h hp ht
    · exact h

/-- Items that leave the holder list keep its shape. -/
theorem changeHolders_sublist_sound (l : List HolderItem) (s : State) (h : ClaimsSound s)
    (hl : l.Sublist s.drive.holders) : ClaimsSound (changeHolders s.drive.mode l s) := by
  refine changeHolders_sound _ _ s h ?_ (h.distinct.sublist (hl.map _)) ?_
  · have hlen := hl.length_le
    cases hc : l with
    | nil => exact .inl rfl
    | cons a l' =>
      rw [← hc]
      have hpos : 1 ≤ l.length := by rw [hc]; simp
      right
      rcases h.shape with ⟨_, h0⟩ | ⟨hm, h1⟩ | ⟨hm, _, h3⟩
      · rw [h0] at hlen; simp at hlen; rw [hlen] at hpos; simp at hpos
      · exact .inl ⟨hm, by omega⟩
      · exact .inr ⟨hm, hpos, by omega⟩
  · intro x hx i he
    exact holder_present h (hl.mem hx) he

theorem requestRadioLoss_claimsView (s : State) : (requestRadioLoss s).claimsView = s.claimsView := rfl

theorem releaseTaken_sound (r : Nat) (src : Source) (s : State) (h : ClaimsSound s) :
    ClaimsSound (releaseTaken r src s).2 := by
  unfold releaseTaken
  split
  · exact h
  · split
    · split
      · dsimp only
        have hc := changeHolders_sublist_sound (s.drive.holders.filter (fun x => x.source != src)) s h
          List.filter_sublist
        unfold releaseDrive
        dsimp only
        split
        · exact hc.of_view (requestRadioLoss_claimsView _)
        · exact hc
      · exact h
    · split
      · split
        · exact changeGroup_sound _ _ s h (by rintro x ⟨⟩)
        · exact h
      · exact h

theorem removeItems_sound (src : Source) (test : HolderItem → Bool) (s : State) (h : ClaimsSound s) :
    ClaimsSound (removeItems src test s) := by
  unfold removeItems
  dsimp only
  have h1 : ClaimsSound { s with groups := s.groups.map (fun g => match g with
      | some x => if (x.source == src && test x) = true then none else some x
      | none => none) } := by
    refine ⟨h.shape, h.distinct, h.generation, ?_, h.table, ?_⟩
    · intro i hi
      rw [namedByClaim_iff] at hi
      rcases hi with hd | ⟨x, hx, he⟩
      · exact h.present i ((namedByClaim_iff s i).2 (.inl hd))
      · refine h.present i ((namedByClaim_iff s i).2 (.inr ⟨x, ?_, he⟩))
        simp only [List.mem_map] at hx
        obtain ⟨g, hg, hgx⟩ := hx
        cases g with
        | none => simp at hgx
        | some y =>
          simp only at hgx
          split at hgx
          · cases hgx
          · cases hgx; exact hg
    · change (s.groups.map _).length = 4
      rw [List.length_map]; exact h.groups
  have h2 : ClaimsSound
      (if (s.drive.holders.filter (fun x => !(x.source == src && test x))).length = s.drive.holders.length then
        { s with groups := s.groups.map (fun g => match g with
          | some x => if (x.source == src && test x) = true then none else some x
          | none => none) }
       else changeHolders s.drive.mode (s.drive.holders.filter (fun x => !(x.source == src && test x)))
        { s with groups := s.groups.map (fun g => match g with
          | some x => if (x.source == src && test x) = true then none else some x
          | none => none) }) := by
    split
    · exact h1
    · exact changeHolders_sublist_sound _ _ h1 List.filter_sublist
  split
  · exact itemGone_sound _ _ h2
  · exact h2

/-- Items whose status alone changes keep the claims sound. -/
theorem mapItems_sound (f : HolderItem → HolderItem) (hf : ∀ x, (f x).source = x.source) (s : State)
    (h : ClaimsSound s) :
    ClaimsSound { s with drive := { s.drive with holders := s.drive.holders.map f },
                         groups := s.groups.map (Option.map f) } := by
  refine ⟨?_, ?_, h.generation, ?_, h.table, ?_⟩
  · simpa using h.shape
  · have : (s.drive.holders.map f).map (·.source) = s.drive.holders.map (·.source) := by
      rw [List.map_map]; exact List.map_congr_left fun x _ => hf x
    change ((s.drive.holders.map f).map (·.source)).Nodup
    rw [this]; exact h.distinct
  · intro i hi
    refine h.present i ?_
    rw [namedByClaim_iff] at hi ⊢
    rcases hi with ⟨x, hx, he⟩ | ⟨x, hx, he⟩
    · rw [List.mem_map] at hx
      obtain ⟨y, hy, rfl⟩ := hx
      exact .inl ⟨y, hy, by rw [← he, hf]⟩
    · rw [List.mem_map] at hx
      obtain ⟨g, hg, hgx⟩ := hx
      cases g with
      | none => simp at hgx
      | some y =>
        simp only [Option.map_some, Option.some.injEq] at hgx
        subst hgx
        exact .inr ⟨y, hg, by rw [← he, hf]⟩
  · change (s.groups.map _).length = 4
    rw [List.length_map]; exact h.groups

theorem lostNotice_sound (i : Nat) (s : State) (h : ClaimsSound s) : ClaimsSound (lostNotice i s) := by
  have h1 : ClaimsSound (if set8 s 11 = 0 then removeItems (.throttle i) (fun _ => true) s
      else reserveItems i (later s.partTime (set8 s 11 * 1000)) s) := by
    split
    · exact removeItems_sound _ _ s h
    · refine mapItems_sound _ ?_ s h
      intro x; unfold HolderItem.reserve; split <;> rfl
  unfold lostNotice
  dsimp only
  generalize (if set8 s 11 = 0 then removeItems (.throttle i) (fun _ => true) s
      else reserveItems i (later s.partTime (set8 s 11 * 1000)) s) = t at h1 ⊢
  split
  · exact h1.of_view (requestRadioLoss_claimsView _)
  · exact h1

theorem heardNotice_sound (i : Nat) (s : State) (h : ClaimsSound s) : ClaimsSound (heardNotice i s) := by
  have h1 := mapItems_sound (fun x => x.restore (.throttle i))
    (by intro x; unfold HolderItem.restore; split <;> rfl) s h
  unfold heardNotice
  dsimp only
  split
  · exact h1.of_view (removeHold_claimsView _ _)
  · exact h1

theorem reservationsExpire_sound (i : Nat) (s : State) (h : ClaimsSound s) : ClaimsSound (reservationsExpire i s) :=
  removeItems_sound _ _ s h

theorem loseEntry_sound (i : Nat) (e : ThrottleEntry) (s : State) (h : ClaimsSound s) :
    ClaimsSound (loseEntry i e s) :=
  forgetIfDue_sound i _ (lostNotice_sound i _ (setEntry_claimsSound i _ s h))

theorem silenceIfDue_sound (i : Nat) (s : State) (h : ClaimsSound s) : ClaimsSound (silenceIfDue i s) := by
  unfold silenceIfDue
  split
  · split
    · exact loseEntry_sound i _ s h
    · exact h
  · exact h

theorem rateCheck_sound (i : Nat) (e : ThrottleEntry) (f : Frame) (s : State) (h : ClaimsSound s) :
    ClaimsSound (rateCheck i e f s).2 := by
  unfold rateCheck
  dsimp only
  split
  · exact setEntry_claimsSound i _ s h
  · split <;> exact setEntry_claimsSound i _ s h

theorem evictionChoice_unnamed (s : State) (i : Nat) (h : evictionChoice s = some i) : namedByClaim s i = false := by
  have hmem : ∀ (l : List Nat) (a : Nat), (∀ x ∈ l, evictable s x = true) → evictable s a = true →
      evictable s (l.foldl (fun a b => if silence s a < silence s b then b else a) a) = true := by
    intro l
    induction l with
    | nil => intro a _ ha; exact ha
    | cons b l ih =>
      intro a hl ha
      refine ih _ (fun x hx => hl x (List.mem_cons_of_mem _ hx)) ?_
      show evictable s (if silence s a < silence s b then b else a) = true
      split
      · exact hl b List.mem_cons_self
      · exact ha
  have he : evictable s i = true := by
    unfold evictionChoice at h
    split at h
    · cases h
    · rename_i a l hl
      cases h
      have hall : ∀ x ∈ a :: l, evictable s x = true := by
        intro x hx
        rw [← hl, List.mem_filter] at hx
        exact hx.2
      exact hmem l a (fun x hx => hall x (List.mem_cons_of_mem _ hx)) (hall a List.mem_cons_self)
  unfold evictable at he
  split at he
  · simp only [Bool.and_eq_true, Bool.not_eq_true'] at he; exact he.2
  · cases he

theorem unknownId_sound (f : Frame) (s : State) (h : ClaimsSound s) : ClaimsSound (unknownId f s).2 := by
  unfold unknownId
  split
  · exact rateCheck_sound _ _ f s h
  · split
    · rename_i i hi
      exact rateCheck_sound _ _ f _ (removeEntry_sound i s h (evictionChoice_unnamed s i hi))
    · exact h.of_view rfl

theorem heard_sound (i : Nat) (e : ThrottleEntry) (f : Frame) (s : State) (h : ClaimsSound s) :
    ClaimsSound (heard i e f s) := by
  unfold heard
  dsimp only
  split
  · exact heardNotice_sound i _ (setEntry_claimsSound i _ s h)
  · exact setEntry_claimsSound i _ s h

/-- The handling of a presented frame keeps the claims sound. -/
theorem present_sound (f : Frame) (s : State) (h : ClaimsSound s) : ClaimsSound (present f s).2 := by
  unfold present
  split
  · exact unknownId_sound f s h
  · split
    · exact unknownId_sound f s h
    · dsimp only
      split
      · exact heard_sound _ _ f s h
      · exact rateCheck_sound _ _ f _ (heard_sound _ _ f s h)

end Sys2Proof.Machine
end

