-- ==== Sys2Proof/Laws/Holds.lean ====
section
/-! SUPPORT. The hold list's two operations, and the length of the settings under every change of them. -/

namespace Sys2Proof.Machine

/-! ### The hold list (R30) -/

/-- Installing over the entry of its source takes its place. -/
theorem insertHold_replaces (h old : Hold) (before rest : List Hold) (hb : ∀ x ∈ before, x.source ≠ h.source)
    (ho : old.source = h.source) : insertHold h (before ++ old :: rest) = before ++ h :: rest := by
  induction before with
  | nil => simp [insertHold, ho]
  | cons x xs ih =>
    have hx := hb x (by simp)
    simp [insertHold, hx, ih (fun y hy => hb y (by simp [hy]))]

/-- Installing a source that has no entry appends it. -/
theorem insertHold_appends (h : Hold) (l : List Hold) (hl : ∀ x ∈ l, x.source ≠ h.source) : insertHold h l = l ++ [h] := by
  induction l with
  | nil => rfl
  | cons x xs ih => simp [insertHold, hl x (by simp), ih (fun y hy => hl y (by simp [hy]))]

/-- A member of the new list is the new entry or an old one. -/
theorem mem_insertHold {h x : Hold} {l : List Hold} (hx : x ∈ insertHold h l) : x = h ∨ x ∈ l := by
  induction l with
  | nil => simpa [insertHold] using hx
  | cons y ys ih =>
    unfold insertHold at hx
    split at hx
    · rcases List.mem_cons.1 hx with e | e
      · exact .inl e
      · exact .inr (List.mem_cons_of_mem _ e)
    · rcases List.mem_cons.1 hx with e | e
      · exact .inr (e ▸ List.mem_cons_self ..)
      · rcases ih e with e | e
        · exact .inl e
        · exact .inr (List.mem_cons_of_mem _ e)

/-- Installing keeps one entry a source. -/
theorem insertHold_nodup (h : Hold) (l : List Hold) (hl : (l.map (·.source)).Nodup) :
    ((insertHold h l).map (·.source)).Nodup := by
  induction l with
  | nil => simp [insertHold]
  | cons x xs ih =>
    simp only [List.map_cons, List.nodup_cons] at hl
    unfold insertHold
    split
    · rename_i e
      simp only [List.map_cons, List.nodup_cons]
      exact ⟨e ▸ hl.1, hl.2⟩
    · rename_i e
      simp only [List.map_cons, List.nodup_cons]
      refine ⟨?_, ih hl.2⟩
      intro hm
      obtain ⟨y, hy, hs⟩ := List.mem_map.1 hm
      rcases mem_insertHold hy with rfl | hy
      · exact e hs.symm
      · exact hl.1 (List.mem_map.2 ⟨y, hy, hs⟩)

/-- Removing keeps one entry a source. -/
theorem filter_sources_nodup (p : Hold → Bool) (l : List Hold) (hl : (l.map (·.source)).Nodup) :
    ((l.filter p).map (·.source)).Nodup := hl.sublist (List.Sublist.map _ List.filter_sublist)

/-- The entry found after an installation is the one installed. -/
theorem find_insertHold (h : Hold) (l : List Hold) :
    (insertHold h l).find? (fun x => x.source == h.source) = some h := by
  induction l with
  | nil => simp [insertHold]
  | cons x xs ih =>
    unfold insertHold
    split
    · simp
    · rename_i e
      simp [e, ih]

/-- After a STOP is installed the list holds a STOP. -/
theorem any_stop_insertHold (h : Hold) (l : List Hold) (hk : h.kind = .stop) :
    (insertHold h l).any (fun x => x.kind == .stop) = true := by
  induction l with
  | nil => simp [insertHold, hk]
  | cons x xs ih =>
    unfold insertHold
    split
    · simp [hk]
    · simp only [List.any_cons, ih, Bool.or_true]

/-! ### Lengths of the settings (R167, R168) -/

@[simp] theorem fixByte_length (w : Nat → Bool) (i : Nat) (f : Nat → Nat) (img : List Byte) :
    (fixByte w i f img).length = img.length := by
  unfold fixByte; split <;> simp

@[simp] theorem putHalf_length (img : List Byte) (i n : Nat) : (putHalf img i n).length = img.length := by
  simp [putHalf]

@[simp] theorem fixHalf_length (w : Nat → Bool) (i : Nat) (f : Nat → Nat) (img : List Byte) :
    (fixHalf w i f img).length = img.length := by
  unfold fixHalf; split <;> simp

/-- A fold of length-keeping changes keeps the length. -/
theorem foldl_length {α : Type} (g : List Byte → α → List Byte) (hg : ∀ img a, (g img a).length = img.length)
    (l : List α) (img : List Byte) : (l.foldl g img).length = img.length := by
  induction l generalizing img with
  | nil => rfl
  | cons a l ih => rw [List.foldl_cons, ih, hg]

@[simp] theorem fixBytes_length (w : Nat → Bool) (img : List Byte) : (fixBytes w img).length = img.length :=
  foldl_length _ (fun _ _ => foldl_length _ (by simp) _ _) _ _

@[simp] theorem fixHalves_length (w : Nat → Bool) (img : List Byte) : (fixHalves w img).length = img.length :=
  foldl_length _ (fun _ _ => foldl_length _ (by simp) _ _) _ _

@[simp] theorem fixAction_length (w : Nat → Bool) (img : List Byte) (i : Nat) : (fixAction w img i).length = img.length := by
  unfold fixAction; split <;> simp

@[simp] theorem fixCoded_length (w : Nat → Bool) (img : List Byte) : (fixCoded w img).length = img.length := by
  unfold fixCoded
  rw [foldl_length _ (by simp), foldl_length _ (by simp [fixSlot]), foldl_length _ (by simp [fixPartition]),
    foldl_length _ (by simp), fixHalf_length, fixHalf_length, foldl_length _ (by simp),
    foldl_length _ (by simp [fixOutput]), foldl_length _ (by simp)]

/-- Laying bytes over a list that they fit into keeps its length. -/
theorem overlay_length (base bs : List Byte) (start : Nat) (h : start + bs.length ≤ base.length) :
    (overlay base start bs).length = base.length := by
  simp only [overlay, List.length_append, List.length_take, List.length_drop]; omega

/-- Outside the bytes laid over it a list keeps what it held. -/
theorem overlay_getD (base bs : List Byte) (start k : Nat) (d : Byte) (h : start + bs.length ≤ base.length) :
    (overlay base start bs).getD k d =
      if start ≤ k ∧ k < start + bs.length then bs.getD (k - start) d else base.getD k d := by
  have ht : (base.take start).length = start := by simp; omega
  simp only [overlay, List.getD_eq_getElem?_getD, List.getElem?_append, List.length_append, ht, List.getElem?_take,
    List.getElem?_drop]
  by_cases h1 : k < start
  · have h3 : k < start + bs.length := by omega
    simp [h1, h3]
  · by_cases h2 : k < start + bs.length
    · have h3 : start ≤ k ∧ k < start + bs.length := by omega
      simp [h1, h2, h3]
    · have h4 : start + bs.length + (k - (start + bs.length)) = k := by omega
      simp [h2, h4]

/-- The checks keep the length of an image that holds the consist record. -/
theorem checkedImage_length (w : Nat → Bool) (img : List Byte) (h : 10 ≤ img.length) :
    (checkedImage w img).length = img.length := by
  have hc : (tieForget (tieLevels (fixCoded w (fixHalves w (fixBytes w img))))).length = img.length := by
    simp [tieForget, tieLevels]
  unfold checkedImage tieConsist
  split
  · exact hc
  · rw [overlay_length _ _ _ (by rw [hc, List.length_replicate]; omega), hc]

end Sys2Proof.Machine
end

