-- ==== Sys2Proof/Laws/Line.lean ====
section
/-! SUPPORT. What the samples of the envelope line do to a run, eighth by eighth (R156). -/

namespace Sys2Proof.Machine

theorem sampleEighths_append (xs ys : List Level) (s : State) :
    sampleEighths (xs ++ ys) s = sampleEighths ys (sampleEighths xs s) := List.foldl_append

theorem sampleEighths_cons (l : Level) (xs : List Level) (s : State) :
    sampleEighths (l :: xs) s = sampleEighths xs (sampleLine s l) := rfl

/-- An eighth of the run's own level makes the run longer, by a waiting eighth too, and the run is judged. -/
theorem sampleLine_same {s : State} {l : Level} (h : l = s.beacon.runLevel) :
    sampleLine s l = judgeRun (advanceRun (if s.beacon.unsettled then 2 else 1) s) := by simp [sampleLine, h]

/-- A first eighth of the other level waits, and nothing else changes. -/
theorem sampleLine_waits {s : State} {l : Level} (h : l ≠ s.beacon.runLevel) (hu : s.beacon.unsettled = false) :
    sampleLine s l = { s with beacon := { s.beacon with unsettled := true } } := by simp [sampleLine, h, hu]

/-- A second eighth of the other level ends the run. -/
theorem sampleLine_ends {s : State} {l : Level} (h : l ≠ s.beacon.runLevel) (hu : s.beacon.unsettled = true) :
    sampleLine s l = finishRun s := by simp [sampleLine, h, hu]

/-- A run that brings nothing about is left as it is. -/
theorem judgeRun_quiet {s : State} (h : capturing s = false ∨ limitReached s = false) : judgeRun s = s := by
  unfold judgeRun captureQuiet burstEndDue
  rcases h with h | h <;> simp [h]

end Sys2Proof.Machine
end

