-- ==== Sys2Proof/Laws/Memory.lean ====
section
/-! SUPPORT. The laws of the byte memories: every operation keeps the canonical form; a read after a write. -/

namespace Sys2Proof.Machine

theorem Mem.wfFrom_lower (d : Byte) {lo lo' : Nat} (h : lo' ≤ lo) :
    ∀ {m : Mem}, Mem.wfFrom d lo m = true → Mem.wfFrom d lo' m = true
  | [], _ => rfl
  | (k, v) :: rest, hw => by
    simp only [Mem.wfFrom, Bool.and_eq_true, decide_eq_true_eq] at hw ⊢
    exact ⟨⟨le_trans h hw.1.1, hw.1.2⟩, hw.2⟩

theorem Mem.wfFrom_put (d : Byte) {lo a : Nat} (b : Byte) {m : Mem} (h : lo ≤ a)
    (hw : Mem.wfFrom d (a + 1) m = true) : Mem.wfFrom d lo (Mem.put d a b m) = true := by
  unfold Mem.put
  split
  · exact Mem.wfFrom_lower d (by omega) hw
  · rename_i hb
    simp only [Mem.wfFrom, Bool.and_eq_true, decide_eq_true_eq]
    exact ⟨⟨h, hb⟩, hw⟩

theorem Mem.wfFrom_write (d : Byte) {a : Nat} (b : Byte) :
    ∀ {lo : Nat} {m : Mem}, lo ≤ a → Mem.wfFrom d lo m = true → Mem.wfFrom d lo (Mem.write d m a b) = true
  | lo, [], h, _ => Mem.wfFrom_put d b h rfl
  | lo, (k, v) :: rest, h, hw => by
    have hw' := hw
    simp only [Mem.wfFrom, Bool.and_eq_true, decide_eq_true_eq] at hw
    unfold Mem.write
    split
    · rename_i hk; subst hk
      exact Mem.wfFrom_put d b h hw.2
    · split
      · rename_i hlt
        refine Mem.wfFrom_put d b h ?_
        simp only [Mem.wfFrom, Bool.and_eq_true, decide_eq_true_eq]
        exact ⟨⟨by omega, hw.1.2⟩, hw.2⟩
      · rename_i hne hnlt
        simp only [Mem.wfFrom, Bool.and_eq_true, decide_eq_true_eq]
        exact ⟨hw.1, Mem.wfFrom_write d b (by omega) hw.2⟩

/-- A write of one byte keeps the canonical form. -/
theorem Mem.wf_write (d : Byte) (m : Mem) (a : Nat) (b : Byte) (h : Mem.wf d m = true) :
    Mem.wf d (Mem.write d m a b) = true := Mem.wfFrom_write d b (Nat.zero_le a) h

/-- A write of several bytes keeps the canonical form. -/
theorem Mem.wf_writeBytes (d : Byte) (bs : List Byte) :
    ∀ (m : Mem) (a : Nat), Mem.wf d m = true → Mem.wf d (Mem.writeBytes d m a bs) = true := by
  induction bs with
  | nil => intro m a h; exact h
  | cons b bs ih => intro m a h; exact ih _ _ (Mem.wf_write d m a b h)

theorem Mem.wfFrom_filter (d : Byte) (p : Host.Cell → Bool) :
    ∀ {lo : Nat} {m : Mem}, Mem.wfFrom d lo m = true → Mem.wfFrom d lo (m.filter p) = true
  | _, [], _ => rfl
  | lo, (k, v) :: rest, hw => by
    simp only [Mem.wfFrom, Bool.and_eq_true, decide_eq_true_eq] at hw
    have ih := Mem.wfFrom_filter d p hw.2
    rw [List.filter_cons]
    split
    · simp only [Mem.wfFrom, Bool.and_eq_true, decide_eq_true_eq]
      exact ⟨hw.1, ih⟩
    · exact Mem.wfFrom_lower d (by omega) ih

/-- The erase of everything below an address keeps the canonical form. -/
theorem Mem.wf_dropBelow (d : Byte) (a : Nat) (m : Mem) (h : Mem.wf d m = true) :
    Mem.wf d (Mem.dropBelow a m) = true := Mem.wfFrom_filter d _ h

theorem Mem.read_below (d : Byte) {lo a : Nat} (h : a < lo) :
    ∀ {m : Mem}, Mem.wfFrom d lo m = true → Mem.read d m a = d
  | [], _ => rfl
  | (k, v) :: rest, hw => by
    simp only [Mem.wfFrom, Bool.and_eq_true, decide_eq_true_eq] at hw
    unfold Mem.read
    rw [if_neg (by omega), if_pos (by omega)]

theorem Mem.read_put (d : Byte) {a x : Nat} (b : Byte) {m : Mem} (hw : Mem.wfFrom d (a + 1) m = true) :
    Mem.read d (Mem.put d a b m) x = if x = a then b else Mem.read d m x := by
  unfold Mem.put
  split
  · rename_i hb
    split
    · rename_i hx; rw [hx, hb]; exact Mem.read_below d (Nat.lt_succ_self a) hw
    · rfl
  · rw [Mem.read]
    split
    · rfl
    · split
      · rename_i hlt
        exact (Mem.read_below d (by omega) hw).symm
      · rfl

theorem Mem.read_write_from (d : Byte) {a : Nat} (b : Byte) (x : Nat) :
    ∀ {lo : Nat} {m : Mem}, Mem.wfFrom d lo m = true →
      Mem.read d (Mem.write d m a b) x = if x = a then b else Mem.read d m x
  | _, [], _ => by rw [Mem.write]; exact Mem.read_put d b rfl
  | lo, (k, v) :: rest, hw => by
    have hw' := hw
    simp only [Mem.wfFrom, Bool.and_eq_true, decide_eq_true_eq] at hw
    unfold Mem.write
    split
    · rename_i hk; subst hk
      rw [Mem.read_put d b hw.2]
      split
      · rfl
      · rename_i hx
        rw [Mem.read, if_neg hx]
        split
        · rename_i hlt; exact Mem.read_below d (by omega) hw.2
        · rfl
    · split
      · rename_i hlt
        refine Mem.read_put d b ?_
        simp only [Mem.wfFrom, Bool.and_eq_true, decide_eq_true_eq]
        exact ⟨⟨by omega, hw.1.2⟩, hw.2⟩
      · rename_i hne hnlt
        rw [Mem.read, Mem.read]
        have ih := Mem.read_write_from d b x hw.2 (a := a)
        by_cases hk : x = k
        · subst hk; rw [if_pos rfl, if_pos rfl, if_neg (by omega)]
        · rw [if_neg hk, if_neg hk]
          by_cases hlt : x < k
          · rw [if_pos hlt, if_pos hlt, if_neg (by omega)]
          · rw [if_neg hlt, if_neg hlt]; exact ih

/-- A read after a write: the byte written at its place, and every other byte as before. -/
theorem Mem.read_write (d : Byte) (m : Mem) (a x : Nat) (b : Byte) (h : Mem.wf d m = true) :
    Mem.read d (Mem.write d m a b) x = if x = a then b else Mem.read d m x := Mem.read_write_from d b x h

/-- A read after a write of several bytes. -/
theorem Mem.read_writeBytes (d : Byte) (bs : List Byte) :
    ∀ (m : Mem) (a x : Nat), Mem.wf d m = true →
      Mem.read d (Mem.writeBytes d m a bs) x =
        if a ≤ x ∧ x < a + bs.length then bs.getD (x - a) d else Mem.read d m x := by
  induction bs with
  | nil => intro m a x _; rw [if_neg (by simp)]; rfl
  | cons b bs ih =>
    intro m a x h
    rw [Mem.writeBytes, ih _ _ _ (Mem.wf_write d m a b h), Mem.read_write d m a x b h]
    by_cases hx : x = a
    · subst hx
      rw [if_neg (by omega), if_pos rfl, if_pos (by simp)]; simp
    · rw [if_neg hx]
      by_cases hr : a + 1 ≤ x ∧ x < a + 1 + bs.length
      · rw [if_pos hr, if_pos (by simp only [List.length_cons]; omega)]
        have : x - a = (x - (a + 1)) + 1 := by omega
        rw [this]; simp
      · rw [if_neg hr, if_neg (by simp only [List.length_cons]; omega)]

/-- The two memories right after a power-on reset of a part whose flash was never programmed are canonical. -/
theorem reset_memories_wf : Mem.wf flashBlank State.reset.flash = true ∧ Mem.wf ramBlank State.reset.voiceRam = true :=
  ⟨rfl, rfl⟩

/-- What an erase or a write does to the flash keeps its canonical form. -/
theorem flashEffect_wf (op : FlashOp) (ok : Bool) (s : State) (h : Mem.wf flashBlank s.flash = true) :
    Mem.wf flashBlank (flashEffect op ok s).flash = true := by
  have hw := fun (a : Nat) (bs : List Byte) => Mem.wf_writeBytes flashBlank bs s.flash a h
  cases op with
  | read a n => exact h
  | eraseSettings =>
    cases ok with
    | true => exact Mem.wf_dropBelow _ _ _ h
    | false => unfold flashEffect spendFree; simp only [Bool.false_eq_true, if_false]; exact hw 0 (freeBytes s 4096)
  | writeImage image =>
    cases ok with
    | true => exact hw 0 image
    | false => unfold flashEffect spendFree; simp only [Bool.false_eq_true, if_false]; exact hw 0 (spoiledImage s)
  | writePage page bs =>
    cases ok with
    | true => exact hw (4096 + 256 * page) (pageBytes bs)
    | false => unfold flashEffect spendFree; simp only [Bool.false_eq_true, if_false]; exact hw (4096 + 256 * page) (freeBytes s 256)

end Sys2Proof.Machine
end

