-- ==== Sys2Proof/Laws/State.lean ====
section
/-! SUPPORT. What each named update of State does to each field: one lemma per field per update. -/

namespace Sys2Proof.Machine

/-! ### installHold -/

@[simp] theorem installHold_partTime (h : Hold) (s : State) : (installHold h s).partTime = s.partTime := rfl
@[simp] theorem installHold_phase (h : Hold) (s : State) : (installHold h s).phase = s.phase := rfl
@[simp] theorem installHold_resetWait (h : Hold) (s : State) : (installHold h s).resetWait = s.resetWait := rfl
@[simp] theorem installHold_motor (h : Hold) (s : State) : (installHold h s).motor = s.motor := rfl
@[simp] theorem installHold_pub (h : Hold) (s : State) : (installHold h s).pub = s.pub := rfl
@[simp] theorem installHold_demand (h : Hold) (s : State) : (installHold h s).demand = s.demand := rfl
@[simp] theorem installHold_holds (h : Hold) (s : State) : (installHold h s).holds = insertHold { h with created := s.partTime } s.holds := rfl
@[simp] theorem installHold_throttles (h : Hold) (s : State) : (installHold h s).throttles = s.throttles := rfl
@[simp] theorem installHold_refusedLearns (h : Hold) (s : State) : (installHold h s).refusedLearns = s.refusedLearns := rfl
@[simp] theorem installHold_rateDue (h : Hold) (s : State) : (installHold h s).rateDue = s.rateDue := rfl
@[simp] theorem installHold_drive (h : Hold) (s : State) : (installHold h s).drive = s.drive := rfl
@[simp] theorem installHold_groups (h : Hold) (s : State) : (installHold h s).groups = s.groups := rfl
@[simp] theorem installHold_radio (h : Hold) (s : State) : (installHold h s).radio = s.radio := rfl
@[simp] theorem installHold_localLine (h : Hold) (s : State) : (installHold h s).localLine = s.localLine := rfl
@[simp] theorem installHold_replies (h : Hold) (s : State) : (installHold h s).replies = s.replies := rfl
@[simp] theorem installHold_holdSeq (h : Hold) (s : State) : (installHold h s).holdSeq = s.holdSeq := rfl
@[simp] theorem installHold_switches (h : Hold) (s : State) : (installHold h s).switches = s.switches := rfl
@[simp] theorem installHold_outputs (h : Hold) (s : State) : (installHold h s).outputs = s.outputs := rfl
@[simp] theorem installHold_trips (h : Hold) (s : State) : (installHold h s).trips = s.trips := rfl
@[simp] theorem installHold_lightDemand (h : Hold) (s : State) : (installHold h s).lightDemand = s.lightDemand := rfl
@[simp] theorem installHold_sound (h : Hold) (s : State) : (installHold h s).sound = s.sound := rfl
@[simp] theorem installHold_voiceRam (h : Hold) (s : State) : (installHold h s).voiceRam = s.voiceRam := rfl
@[simp] theorem installHold_smoke (h : Hold) (s : State) : (installHold h s).smoke = s.smoke := rfl
@[simp] theorem installHold_supply (h : Hold) (s : State) : (installHold h s).supply = s.supply := rfl
@[simp] theorem installHold_beacon (h : Hold) (s : State) : (installHold h s).beacon = s.beacon := rfl
@[simp] theorem installHold_settings (h : Hold) (s : State) : (installHold h s).settings = s.settings := rfl
@[simp] theorem installHold_unsaved (h : Hold) (s : State) : (installHold h s).unsaved = s.unsaved := rfl
@[simp] theorem installHold_changedSinceCopy (h : Hold) (s : State) : (installHold h s).changedSinceCopy = s.changedSinceCopy := rfl
@[simp] theorem installHold_txn (h : Hold) (s : State) : (installHold h s).txn = s.txn := rfl
@[simp] theorem installHold_job (h : Hold) (s : State) : (installHold h s).job = s.job := rfl
@[simp] theorem installHold_image (h : Hold) (s : State) : (installHold h s).image = s.image := rfl
@[simp] theorem installHold_port (h : Hold) (s : State) : (installHold h s).port = s.port := rfl
@[simp] theorem installHold_flash (h : Hold) (s : State) : (installHold h s).flash = s.flash := rfl
@[simp] theorem installHold_faults (h : Hold) (s : State) : (installHold h s).faults = s.faults := rfl
@[simp] theorem installHold_freeCount (h : Hold) (s : State) : (installHold h s).freeCount = s.freeCount := rfl
@[simp] theorem installHold_pending (h : Hold) (s : State) : (installHold h s).pending = s.pending := rfl

/-! ### removeHold -/

@[simp] theorem removeHold_partTime (x : HoldSource) (s : State) : (removeHold x s).partTime = s.partTime := rfl
@[simp] theorem removeHold_phase (x : HoldSource) (s : State) : (removeHold x s).phase = s.phase := rfl
@[simp] theorem removeHold_resetWait (x : HoldSource) (s : State) : (removeHold x s).resetWait = s.resetWait := rfl
@[simp] theorem removeHold_motor (x : HoldSource) (s : State) : (removeHold x s).motor = s.motor := rfl
@[simp] theorem removeHold_pub (x : HoldSource) (s : State) : (removeHold x s).pub = s.pub := rfl
@[simp] theorem removeHold_demand (x : HoldSource) (s : State) : (removeHold x s).demand = s.demand := rfl
@[simp] theorem removeHold_holds (x : HoldSource) (s : State) : (removeHold x s).holds = s.holds.filter (fun h => h.source != x) := rfl
@[simp] theorem removeHold_throttles (x : HoldSource) (s : State) : (removeHold x s).throttles = s.throttles := rfl
@[simp] theorem removeHold_refusedLearns (x : HoldSource) (s : State) : (removeHold x s).refusedLearns = s.refusedLearns := rfl
@[simp] theorem removeHold_rateDue (x : HoldSource) (s : State) : (removeHold x s).rateDue = s.rateDue := rfl
@[simp] theorem removeHold_drive (x : HoldSource) (s : State) : (removeHold x s).drive = s.drive := rfl
@[simp] theorem removeHold_groups (x : HoldSource) (s : State) : (removeHold x s).groups = s.groups := rfl
@[simp] theorem removeHold_radio (x : HoldSource) (s : State) : (removeHold x s).radio = s.radio := rfl
@[simp] theorem removeHold_localLine (x : HoldSource) (s : State) : (removeHold x s).localLine = s.localLine := rfl
@[simp] theorem removeHold_replies (x : HoldSource) (s : State) : (removeHold x s).replies = s.replies := rfl
@[simp] theorem removeHold_holdSeq (x : HoldSource) (s : State) : (removeHold x s).holdSeq = s.holdSeq := rfl
@[simp] theorem removeHold_switches (x : HoldSource) (s : State) : (removeHold x s).switches = s.switches := rfl
@[simp] theorem removeHold_outputs (x : HoldSource) (s : State) : (removeHold x s).outputs = s.outputs := rfl
@[simp] theorem removeHold_trips (x : HoldSource) (s : State) : (removeHold x s).trips = s.trips := rfl
@[simp] theorem removeHold_lightDemand (x : HoldSource) (s : State) : (removeHold x s).lightDemand = s.lightDemand := rfl
@[simp] theorem removeHold_sound (x : HoldSource) (s : State) : (removeHold x s).sound = s.sound := rfl
@[simp] theorem removeHold_voiceRam (x : HoldSource) (s : State) : (removeHold x s).voiceRam = s.voiceRam := rfl
@[simp] theorem removeHold_smoke (x : HoldSource) (s : State) : (removeHold x s).smoke = s.smoke := rfl
@[simp] theorem removeHold_supply (x : HoldSource) (s : State) : (removeHold x s).supply = s.supply := rfl
@[simp] theorem removeHold_beacon (x : HoldSource) (s : State) : (removeHold x s).beacon = s.beacon := rfl
@[simp] theorem removeHold_settings (x : HoldSource) (s : State) : (removeHold x s).settings = s.settings := rfl
@[simp] theorem removeHold_unsaved (x : HoldSource) (s : State) : (removeHold x s).unsaved = s.unsaved := rfl
@[simp] theorem removeHold_changedSinceCopy (x : HoldSource) (s : State) : (removeHold x s).changedSinceCopy = s.changedSinceCopy := rfl
@[simp] theorem removeHold_txn (x : HoldSource) (s : State) : (removeHold x s).txn = s.txn := rfl
@[simp] theorem removeHold_job (x : HoldSource) (s : State) : (removeHold x s).job = s.job := rfl
@[simp] theorem removeHold_image (x : HoldSource) (s : State) : (removeHold x s).image = s.image := rfl
@[simp] theorem removeHold_port (x : HoldSource) (s : State) : (removeHold x s).port = s.port := rfl
@[simp] theorem removeHold_flash (x : HoldSource) (s : State) : (removeHold x s).flash = s.flash := rfl
@[simp] theorem removeHold_faults (x : HoldSource) (s : State) : (removeHold x s).faults = s.faults := rfl
@[simp] theorem removeHold_freeCount (x : HoldSource) (s : State) : (removeHold x s).freeCount = s.freeCount := rfl
@[simp] theorem removeHold_pending (x : HoldSource) (s : State) : (removeHold x s).pending = s.pending := rfl

/-! ### reportFault -/

@[simp] theorem reportFault_partTime (k : FaultKind) (l : Bool) (s : State) : (reportFault k l s).partTime = s.partTime := rfl
@[simp] theorem reportFault_phase (k : FaultKind) (l : Bool) (s : State) : (reportFault k l s).phase = s.phase := rfl
@[simp] theorem reportFault_resetWait (k : FaultKind) (l : Bool) (s : State) : (reportFault k l s).resetWait = s.resetWait := rfl
@[simp] theorem reportFault_motor (k : FaultKind) (l : Bool) (s : State) : (reportFault k l s).motor = s.motor := rfl
@[simp] theorem reportFault_pub (k : FaultKind) (l : Bool) (s : State) : (reportFault k l s).pub = s.pub := rfl
@[simp] theorem reportFault_demand (k : FaultKind) (l : Bool) (s : State) : (reportFault k l s).demand = s.demand := rfl
@[simp] theorem reportFault_holds (k : FaultKind) (l : Bool) (s : State) : (reportFault k l s).holds = s.holds := rfl
@[simp] theorem reportFault_throttles (k : FaultKind) (l : Bool) (s : State) : (reportFault k l s).throttles = s.throttles := rfl
@[simp] theorem reportFault_refusedLearns (k : FaultKind) (l : Bool) (s : State) : (reportFault k l s).refusedLearns = s.refusedLearns := rfl
@[simp] theorem reportFault_rateDue (k : FaultKind) (l : Bool) (s : State) : (reportFault k l s).rateDue = s.rateDue := rfl
@[simp] theorem reportFault_drive (k : FaultKind) (l : Bool) (s : State) : (reportFault k l s).drive = s.drive := rfl
@[simp] theorem reportFault_groups (k : FaultKind) (l : Bool) (s : State) : (reportFault k l s).groups = s.groups := rfl
@[simp] theorem reportFault_radio (k : FaultKind) (l : Bool) (s : State) : (reportFault k l s).radio = s.radio := rfl
@[simp] theorem reportFault_localLine (k : FaultKind) (l : Bool) (s : State) : (reportFault k l s).localLine = s.localLine := rfl
@[simp] theorem reportFault_replies (k : FaultKind) (l : Bool) (s : State) : (reportFault k l s).replies = s.replies := rfl
@[simp] theorem reportFault_holdSeq (k : FaultKind) (l : Bool) (s : State) : (reportFault k l s).holdSeq = s.holdSeq := rfl
@[simp] theorem reportFault_switches (k : FaultKind) (l : Bool) (s : State) : (reportFault k l s).switches = s.switches := rfl
@[simp] theorem reportFault_outputs (k : FaultKind) (l : Bool) (s : State) : (reportFault k l s).outputs = s.outputs := rfl
@[simp] theorem reportFault_trips (k : FaultKind) (l : Bool) (s : State) : (reportFault k l s).trips = s.trips := rfl
@[simp] theorem reportFault_lightDemand (k : FaultKind) (l : Bool) (s : State) : (reportFault k l s).lightDemand = s.lightDemand := rfl
@[simp] theorem reportFault_sound (k : FaultKind) (l : Bool) (s : State) : (reportFault k l s).sound = s.sound := rfl
@[simp] theorem reportFault_voiceRam (k : FaultKind) (l : Bool) (s : State) : (reportFault k l s).voiceRam = s.voiceRam := rfl
@[simp] theorem reportFault_smoke (k : FaultKind) (l : Bool) (s : State) : (reportFault k l s).smoke = s.smoke := rfl
@[simp] theorem reportFault_supply (k : FaultKind) (l : Bool) (s : State) : (reportFault k l s).supply = s.supply := rfl
@[simp] theorem reportFault_beacon (k : FaultKind) (l : Bool) (s : State) : (reportFault k l s).beacon = s.beacon := rfl
@[simp] theorem reportFault_settings (k : FaultKind) (l : Bool) (s : State) : (reportFault k l s).settings = s.settings := rfl
@[simp] theorem reportFault_unsaved (k : FaultKind) (l : Bool) (s : State) : (reportFault k l s).unsaved = s.unsaved := rfl
@[simp] theorem reportFault_changedSinceCopy (k : FaultKind) (l : Bool) (s : State) : (reportFault k l s).changedSinceCopy = s.changedSinceCopy := rfl
@[simp] theorem reportFault_txn (k : FaultKind) (l : Bool) (s : State) : (reportFault k l s).txn = s.txn := rfl
@[simp] theorem reportFault_job (k : FaultKind) (l : Bool) (s : State) : (reportFault k l s).job = s.job := rfl
@[simp] theorem reportFault_image (k : FaultKind) (l : Bool) (s : State) : (reportFault k l s).image = s.image := rfl
@[simp] theorem reportFault_port (k : FaultKind) (l : Bool) (s : State) : (reportFault k l s).port = s.port := rfl
@[simp] theorem reportFault_flash (k : FaultKind) (l : Bool) (s : State) : (reportFault k l s).flash = s.flash := rfl
@[simp] theorem reportFault_faults (k : FaultKind) (l : Bool) (s : State) : (reportFault k l s).faults = updateAt s.faults k.index (fun r => r.report l s.partTime) := rfl
@[simp] theorem reportFault_freeCount (k : FaultKind) (l : Bool) (s : State) : (reportFault k l s).freeCount = s.freeCount := rfl
@[simp] theorem reportFault_pending (k : FaultKind) (l : Bool) (s : State) : (reportFault k l s).pending = s.pending := rfl

/-! ### spendFree -/

@[simp] theorem spendFree_partTime (s : State) : (spendFree s).partTime = s.partTime := rfl
@[simp] theorem spendFree_phase (s : State) : (spendFree s).phase = s.phase := rfl
@[simp] theorem spendFree_resetWait (s : State) : (spendFree s).resetWait = s.resetWait := rfl
@[simp] theorem spendFree_motor (s : State) : (spendFree s).motor = s.motor := rfl
@[simp] theorem spendFree_pub (s : State) : (spendFree s).pub = s.pub := rfl
@[simp] theorem spendFree_demand (s : State) : (spendFree s).demand = s.demand := rfl
@[simp] theorem spendFree_holds (s : State) : (spendFree s).holds = s.holds := rfl
@[simp] theorem spendFree_throttles (s : State) : (spendFree s).throttles = s.throttles := rfl
@[simp] theorem spendFree_refusedLearns (s : State) : (spendFree s).refusedLearns = s.refusedLearns := rfl
@[simp] theorem spendFree_rateDue (s : State) : (spendFree s).rateDue = s.rateDue := rfl
@[simp] theorem spendFree_drive (s : State) : (spendFree s).drive = s.drive := rfl
@[simp] theorem spendFree_groups (s : State) : (spendFree s).groups = s.groups := rfl
@[simp] theorem spendFree_radio (s : State) : (spendFree s).radio = s.radio := rfl
@[simp] theorem spendFree_localLine (s : State) : (spendFree s).localLine = s.localLine := rfl
@[simp] theorem spendFree_replies (s : State) : (spendFree s).replies = s.replies := rfl
@[simp] theorem spendFree_holdSeq (s : State) : (spendFree s).holdSeq = s.holdSeq := rfl
@[simp] theorem spendFree_switches (s : State) : (spendFree s).switches = s.switches := rfl
@[simp] theorem spendFree_outputs (s : State) : (spendFree s).outputs = s.outputs := rfl
@[simp] theorem spendFree_trips (s : State) : (spendFree s).trips = s.trips := rfl
@[simp] theorem spendFree_lightDemand (s : State) : (spendFree s).lightDemand = s.lightDemand := rfl
@[simp] theorem spendFree_sound (s : State) : (spendFree s).sound = s.sound := rfl
@[simp] theorem spendFree_voiceRam (s : State) : (spendFree s).voiceRam = s.voiceRam := rfl
@[simp] theorem spendFree_smoke (s : State) : (spendFree s).smoke = s.smoke := rfl
@[simp] theorem spendFree_supply (s : State) : (spendFree s).supply = s.supply := rfl
@[simp] theorem spendFree_beacon (s : State) : (spendFree s).beacon = s.beacon := rfl
@[simp] theorem spendFree_settings (s : State) : (spendFree s).settings = s.settings := rfl
@[simp] theorem spendFree_unsaved (s : State) : (spendFree s).unsaved = s.unsaved := rfl
@[simp] theorem spendFree_changedSinceCopy (s : State) : (spendFree s).changedSinceCopy = s.changedSinceCopy := rfl
@[simp] theorem spendFree_txn (s : State) : (spendFree s).txn = s.txn := rfl
@[simp] theorem spendFree_job (s : State) : (spendFree s).job = s.job := rfl
@[simp] theorem spendFree_image (s : State) : (spendFree s).image = s.image := rfl
@[simp] theorem spendFree_port (s : State) : (spendFree s).port = s.port := rfl
@[simp] theorem spendFree_flash (s : State) : (spendFree s).flash = s.flash := rfl
@[simp] theorem spendFree_faults (s : State) : (spendFree s).faults = s.faults := rfl
@[simp] theorem spendFree_freeCount (s : State) : (spendFree s).freeCount = s.freeCount + 1 := rfl
@[simp] theorem spendFree_pending (s : State) : (spendFree s).pending = s.pending := rfl

/-! ### setEntry -/

@[simp] theorem setEntry_partTime (i : Nat) (e : Option ThrottleEntry) (s : State) : (setEntry i e s).partTime = s.partTime := rfl
@[simp] theorem setEntry_phase (i : Nat) (e : Option ThrottleEntry) (s : State) : (setEntry i e s).phase = s.phase := rfl
@[simp] theorem setEntry_resetWait (i : Nat) (e : Option ThrottleEntry) (s : State) : (setEntry i e s).resetWait = s.resetWait := rfl
@[simp] theorem setEntry_motor (i : Nat) (e : Option ThrottleEntry) (s : State) : (setEntry i e s).motor = s.motor := rfl
@[simp] theorem setEntry_pub (i : Nat) (e : Option ThrottleEntry) (s : State) : (setEntry i e s).pub = s.pub := rfl
@[simp] theorem setEntry_demand (i : Nat) (e : Option ThrottleEntry) (s : State) : (setEntry i e s).demand = s.demand := rfl
@[simp] theorem setEntry_holds (i : Nat) (e : Option ThrottleEntry) (s : State) : (setEntry i e s).holds = s.holds := rfl
@[simp] theorem setEntry_throttles (i : Nat) (e : Option ThrottleEntry) (s : State) : (setEntry i e s).throttles = s.throttles.set i e := rfl
@[simp] theorem setEntry_refusedLearns (i : Nat) (e : Option ThrottleEntry) (s : State) : (setEntry i e s).refusedLearns = s.refusedLearns := rfl
@[simp] theorem setEntry_rateDue (i : Nat) (e : Option ThrottleEntry) (s : State) : (setEntry i e s).rateDue = s.rateDue := rfl
@[simp] theorem setEntry_drive (i : Nat) (e : Option ThrottleEntry) (s : State) : (setEntry i e s).drive = s.drive := rfl
@[simp] theorem setEntry_groups (i : Nat) (e : Option ThrottleEntry) (s : State) : (setEntry i e s).groups = s.groups := rfl
@[simp] theorem setEntry_radio (i : Nat) (e : Option ThrottleEntry) (s : State) : (setEntry i e s).radio = s.radio := rfl
@[simp] theorem setEntry_localLine (i : Nat) (e : Option ThrottleEntry) (s : State) : (setEntry i e s).localLine = s.localLine := rfl
@[simp] theorem setEntry_replies (i : Nat) (e : Option ThrottleEntry) (s : State) : (setEntry i e s).replies = s.replies := rfl
@[simp] theorem setEntry_holdSeq (i : Nat) (e : Option ThrottleEntry) (s : State) : (setEntry i e s).holdSeq = s.holdSeq := rfl
@[simp] theorem setEntry_switches (i : Nat) (e : Option ThrottleEntry) (s : State) : (setEntry i e s).switches = s.switches := rfl
@[simp] theorem setEntry_outputs (i : Nat) (e : Option ThrottleEntry) (s : State) : (setEntry i e s).outputs = s.outputs := rfl
@[simp] theorem setEntry_trips (i : Nat) (e : Option ThrottleEntry) (s : State) : (setEntry i e s).trips = s.trips := rfl
@[simp] theorem setEntry_lightDemand (i : Nat) (e : Option ThrottleEntry) (s : State) : (setEntry i e s).lightDemand = s.lightDemand := rfl
@[simp] theorem setEntry_sound (i : Nat) (e : Option ThrottleEntry) (s : State) : (setEntry i e s).sound = s.sound := rfl
@[simp] theorem setEntry_voiceRam (i : Nat) (e : Option ThrottleEntry) (s : State) : (setEntry i e s).voiceRam = s.voiceRam := rfl
@[simp] theorem setEntry_smoke (i : Nat) (e : Option ThrottleEntry) (s : State) : (setEntry i e s).smoke = s.smoke := rfl
@[simp] theorem setEntry_supply (i : Nat) (e : Option ThrottleEntry) (s : State) : (setEntry i e s).supply = s.supply := rfl
@[simp] theorem setEntry_beacon (i : Nat) (e : Option ThrottleEntry) (s : State) : (setEntry i e s).beacon = s.beacon := rfl
@[simp] theorem setEntry_settings (i : Nat) (e : Option ThrottleEntry) (s : State) : (setEntry i e s).settings = s.settings := rfl
@[simp] theorem setEntry_unsaved (i : Nat) (e : Option ThrottleEntry) (s : State) : (setEntry i e s).unsaved = s.unsaved := rfl
@[simp] theorem setEntry_changedSinceCopy (i : Nat) (e : Option ThrottleEntry) (s : State) : (setEntry i e s).changedSinceCopy = s.changedSinceCopy := rfl
@[simp] theorem setEntry_txn (i : Nat) (e : Option ThrottleEntry) (s : State) : (setEntry i e s).txn = s.txn := rfl
@[simp] theorem setEntry_job (i : Nat) (e : Option ThrottleEntry) (s : State) : (setEntry i e s).job = s.job := rfl
@[simp] theorem setEntry_image (i : Nat) (e : Option ThrottleEntry) (s : State) : (setEntry i e s).image = s.image := rfl
@[simp] theorem setEntry_port (i : Nat) (e : Option ThrottleEntry) (s : State) : (setEntry i e s).port = s.port := rfl
@[simp] theorem setEntry_flash (i : Nat) (e : Option ThrottleEntry) (s : State) : (setEntry i e s).flash = s.flash := rfl
@[simp] theorem setEntry_faults (i : Nat) (e : Option ThrottleEntry) (s : State) : (setEntry i e s).faults = s.faults := rfl
@[simp] theorem setEntry_freeCount (i : Nat) (e : Option ThrottleEntry) (s : State) : (setEntry i e s).freeCount = s.freeCount := rfl
@[simp] theorem setEntry_pending (i : Nat) (e : Option ThrottleEntry) (s : State) : (setEntry i e s).pending = s.pending := rfl

/-! ### markUnsaved -/

@[simp] theorem markUnsaved_partTime (s : State) : (markUnsaved s).partTime = s.partTime := rfl
@[simp] theorem markUnsaved_phase (s : State) : (markUnsaved s).phase = s.phase := rfl
@[simp] theorem markUnsaved_resetWait (s : State) : (markUnsaved s).resetWait = s.resetWait := rfl
@[simp] theorem markUnsaved_motor (s : State) : (markUnsaved s).motor = s.motor := rfl
@[simp] theorem markUnsaved_pub (s : State) : (markUnsaved s).pub = s.pub := rfl
@[simp] theorem markUnsaved_demand (s : State) : (markUnsaved s).demand = s.demand := rfl
@[simp] theorem markUnsaved_holds (s : State) : (markUnsaved s).holds = s.holds := rfl
@[simp] theorem markUnsaved_throttles (s : State) : (markUnsaved s).throttles = s.throttles := rfl
@[simp] theorem markUnsaved_refusedLearns (s : State) : (markUnsaved s).refusedLearns = s.refusedLearns := rfl
@[simp] theorem markUnsaved_rateDue (s : State) : (markUnsaved s).rateDue = s.rateDue := rfl
@[simp] theorem markUnsaved_drive (s : State) : (markUnsaved s).drive = s.drive := rfl
@[simp] theorem markUnsaved_groups (s : State) : (markUnsaved s).groups = s.groups := rfl
@[simp] theorem markUnsaved_radio (s : State) : (markUnsaved s).radio = s.radio := rfl
@[simp] theorem markUnsaved_localLine (s : State) : (markUnsaved s).localLine = s.localLine := rfl
@[simp] theorem markUnsaved_replies (s : State) : (markUnsaved s).replies = s.replies := rfl
@[simp] theorem markUnsaved_holdSeq (s : State) : (markUnsaved s).holdSeq = s.holdSeq := rfl
@[simp] theorem markUnsaved_switches (s : State) : (markUnsaved s).switches = s.switches := rfl
@[simp] theorem markUnsaved_outputs (s : State) : (markUnsaved s).outputs = s.outputs := rfl
@[simp] theorem markUnsaved_trips (s : State) : (markUnsaved s).trips = s.trips := rfl
@[simp] theorem markUnsaved_lightDemand (s : State) : (markUnsaved s).lightDemand = s.lightDemand := rfl
@[simp] theorem markUnsaved_sound (s : State) : (markUnsaved s).sound = s.sound := rfl
@[simp] theorem markUnsaved_voiceRam (s : State) : (markUnsaved s).voiceRam = s.voiceRam := rfl
@[simp] theorem markUnsaved_smoke (s : State) : (markUnsaved s).smoke = s.smoke := rfl
@[simp] theorem markUnsaved_supply (s : State) : (markUnsaved s).supply = s.supply := rfl
@[simp] theorem markUnsaved_beacon (s : State) : (markUnsaved s).beacon = s.beacon := rfl
@[simp] theorem markUnsaved_settings (s : State) : (markUnsaved s).settings = s.settings := rfl
@[simp] theorem markUnsaved_unsaved (s : State) : (markUnsaved s).unsaved = true := rfl
@[simp] theorem markUnsaved_changedSinceCopy (s : State) : (markUnsaved s).changedSinceCopy = true := rfl
@[simp] theorem markUnsaved_txn (s : State) : (markUnsaved s).txn = s.txn := rfl
@[simp] theorem markUnsaved_job (s : State) : (markUnsaved s).job = s.job := rfl
@[simp] theorem markUnsaved_image (s : State) : (markUnsaved s).image = s.image := rfl
@[simp] theorem markUnsaved_port (s : State) : (markUnsaved s).port = s.port := rfl
@[simp] theorem markUnsaved_flash (s : State) : (markUnsaved s).flash = s.flash := rfl
@[simp] theorem markUnsaved_faults (s : State) : (markUnsaved s).faults = s.faults := rfl
@[simp] theorem markUnsaved_freeCount (s : State) : (markUnsaved s).freeCount = s.freeCount := rfl
@[simp] theorem markUnsaved_pending (s : State) : (markUnsaved s).pending = s.pending := rfl

/-! ### setVoice -/

@[simp] theorem setVoice_partTime (v : Nat) (vo : Voice) (s : State) : (setVoice v vo s).partTime = s.partTime := rfl
@[simp] theorem setVoice_phase (v : Nat) (vo : Voice) (s : State) : (setVoice v vo s).phase = s.phase := rfl
@[simp] theorem setVoice_resetWait (v : Nat) (vo : Voice) (s : State) : (setVoice v vo s).resetWait = s.resetWait := rfl
@[simp] theorem setVoice_motor (v : Nat) (vo : Voice) (s : State) : (setVoice v vo s).motor = s.motor := rfl
@[simp] theorem setVoice_pub (v : Nat) (vo : Voice) (s : State) : (setVoice v vo s).pub = s.pub := rfl
@[simp] theorem setVoice_demand (v : Nat) (vo : Voice) (s : State) : (setVoice v vo s).demand = s.demand := rfl
@[simp] theorem setVoice_holds (v : Nat) (vo : Voice) (s : State) : (setVoice v vo s).holds = s.holds := rfl
@[simp] theorem setVoice_throttles (v : Nat) (vo : Voice) (s : State) : (setVoice v vo s).throttles = s.throttles := rfl
@[simp] theorem setVoice_refusedLearns (v : Nat) (vo : Voice) (s : State) : (setVoice v vo s).refusedLearns = s.refusedLearns := rfl
@[simp] theorem setVoice_rateDue (v : Nat) (vo : Voice) (s : State) : (setVoice v vo s).rateDue = s.rateDue := rfl
@[simp] theorem setVoice_drive (v : Nat) (vo : Voice) (s : State) : (setVoice v vo s).drive = s.drive := rfl
@[simp] theorem setVoice_groups (v : Nat) (vo : Voice) (s : State) : (setVoice v vo s).groups = s.groups := rfl
@[simp] theorem setVoice_radio (v : Nat) (vo : Voice) (s : State) : (setVoice v vo s).radio = s.radio := rfl
@[simp] theorem setVoice_localLine (v : Nat) (vo : Voice) (s : State) : (setVoice v vo s).localLine = s.localLine := rfl
@[simp] theorem setVoice_replies (v : Nat) (vo : Voice) (s : State) : (setVoice v vo s).replies = s.replies := rfl
@[simp] theorem setVoice_holdSeq (v : Nat) (vo : Voice) (s : State) : (setVoice v vo s).holdSeq = s.holdSeq := rfl
@[simp] theorem setVoice_switches (v : Nat) (vo : Voice) (s : State) : (setVoice v vo s).switches = s.switches := rfl
@[simp] theorem setVoice_outputs (v : Nat) (vo : Voice) (s : State) : (setVoice v vo s).outputs = s.outputs := rfl
@[simp] theorem setVoice_trips (v : Nat) (vo : Voice) (s : State) : (setVoice v vo s).trips = s.trips := rfl
@[simp] theorem setVoice_lightDemand (v : Nat) (vo : Voice) (s : State) : (setVoice v vo s).lightDemand = s.lightDemand := rfl
@[simp] theorem setVoice_sound (v : Nat) (vo : Voice) (s : State) : (setVoice v vo s).sound = { s.sound with voices := s.sound.voices.set v vo } := rfl
@[simp] theorem setVoice_voiceRam (v : Nat) (vo : Voice) (s : State) : (setVoice v vo s).voiceRam = s.voiceRam := rfl
@[simp] theorem setVoice_smoke (v : Nat) (vo : Voice) (s : State) : (setVoice v vo s).smoke = s.smoke := rfl
@[simp] theorem setVoice_supply (v : Nat) (vo : Voice) (s : State) : (setVoice v vo s).supply = s.supply := rfl
@[simp] theorem setVoice_beacon (v : Nat) (vo : Voice) (s : State) : (setVoice v vo s).beacon = s.beacon := rfl
@[simp] theorem setVoice_settings (v : Nat) (vo : Voice) (s : State) : (setVoice v vo s).settings = s.settings := rfl
@[simp] theorem setVoice_unsaved (v : Nat) (vo : Voice) (s : State) : (setVoice v vo s).unsaved = s.unsaved := rfl
@[simp] theorem setVoice_changedSinceCopy (v : Nat) (vo : Voice) (s : State) : (setVoice v vo s).changedSinceCopy = s.changedSinceCopy := rfl
@[simp] theorem setVoice_txn (v : Nat) (vo : Voice) (s : State) : (setVoice v vo s).txn = s.txn := rfl
@[simp] theorem setVoice_job (v : Nat) (vo : Voice) (s : State) : (setVoice v vo s).job = s.job := rfl
@[simp] theorem setVoice_image (v : Nat) (vo : Voice) (s : State) : (setVoice v vo s).image = s.image := rfl
@[simp] theorem setVoice_port (v : Nat) (vo : Voice) (s : State) : (setVoice v vo s).port = s.port := rfl
@[simp] theorem setVoice_flash (v : Nat) (vo : Voice) (s : State) : (setVoice v vo s).flash = s.flash := rfl
@[simp] theorem setVoice_faults (v : Nat) (vo : Voice) (s : State) : (setVoice v vo s).faults = s.faults := rfl
@[simp] theorem setVoice_freeCount (v : Nat) (vo : Voice) (s : State) : (setVoice v vo s).freeCount = s.freeCount := rfl
@[simp] theorem setVoice_pending (v : Nat) (vo : Voice) (s : State) : (setVoice v vo s).pending = s.pending := rfl

/-! ### withdrawVoice -/

@[simp] theorem withdrawVoice_partTime (v : Nat) (s : State) : (withdrawVoice v s).partTime = s.partTime := rfl
@[simp] theorem withdrawVoice_phase (v : Nat) (s : State) : (withdrawVoice v s).phase = s.phase := rfl
@[simp] theorem withdrawVoice_resetWait (v : Nat) (s : State) : (withdrawVoice v s).resetWait = s.resetWait := rfl
@[simp] theorem withdrawVoice_motor (v : Nat) (s : State) : (withdrawVoice v s).motor = s.motor := rfl
@[simp] theorem withdrawVoice_pub (v : Nat) (s : State) : (withdrawVoice v s).pub = s.pub := rfl
@[simp] theorem withdrawVoice_demand (v : Nat) (s : State) : (withdrawVoice v s).demand = s.demand := rfl
@[simp] theorem withdrawVoice_holds (v : Nat) (s : State) : (withdrawVoice v s).holds = s.holds := rfl
@[simp] theorem withdrawVoice_throttles (v : Nat) (s : State) : (withdrawVoice v s).throttles = s.throttles := rfl
@[simp] theorem withdrawVoice_refusedLearns (v : Nat) (s : State) : (withdrawVoice v s).refusedLearns = s.refusedLearns := rfl
@[simp] theorem withdrawVoice_rateDue (v : Nat) (s : State) : (withdrawVoice v s).rateDue = s.rateDue := rfl
@[simp] theorem withdrawVoice_drive (v : Nat) (s : State) : (withdrawVoice v s).drive = s.drive := rfl
@[simp] theorem withdrawVoice_groups (v : Nat) (s : State) : (withdrawVoice v s).groups = s.groups := rfl
@[simp] theorem withdrawVoice_radio (v : Nat) (s : State) : (withdrawVoice v s).radio = s.radio := rfl
@[simp] theorem withdrawVoice_localLine (v : Nat) (s : State) : (withdrawVoice v s).localLine = s.localLine := rfl
@[simp] theorem withdrawVoice_replies (v : Nat) (s : State) : (withdrawVoice v s).replies = s.replies := rfl
@[simp] theorem withdrawVoice_holdSeq (v : Nat) (s : State) : (withdrawVoice v s).holdSeq = s.holdSeq := rfl
@[simp] theorem withdrawVoice_switches (v : Nat) (s : State) : (withdrawVoice v s).switches = s.switches := rfl
@[simp] theorem withdrawVoice_outputs (v : Nat) (s : State) : (withdrawVoice v s).outputs = s.outputs := rfl
@[simp] theorem withdrawVoice_trips (v : Nat) (s : State) : (withdrawVoice v s).trips = s.trips := rfl
@[simp] theorem withdrawVoice_lightDemand (v : Nat) (s : State) : (withdrawVoice v s).lightDemand = s.lightDemand := rfl
@[simp] theorem withdrawVoice_sound (v : Nat) (s : State) : (withdrawVoice v s).sound = s.sound := rfl
@[simp] theorem withdrawVoice_voiceRam (v : Nat) (s : State) : (withdrawVoice v s).voiceRam = s.voiceRam := rfl
@[simp] theorem withdrawVoice_smoke (v : Nat) (s : State) : (withdrawVoice v s).smoke = s.smoke := rfl
@[simp] theorem withdrawVoice_supply (v : Nat) (s : State) : (withdrawVoice v s).supply = s.supply := rfl
@[simp] theorem withdrawVoice_beacon (v : Nat) (s : State) : (withdrawVoice v s).beacon = s.beacon := rfl
@[simp] theorem withdrawVoice_settings (v : Nat) (s : State) : (withdrawVoice v s).settings = s.settings := rfl
@[simp] theorem withdrawVoice_unsaved (v : Nat) (s : State) : (withdrawVoice v s).unsaved = s.unsaved := rfl
@[simp] theorem withdrawVoice_changedSinceCopy (v : Nat) (s : State) : (withdrawVoice v s).changedSinceCopy = s.changedSinceCopy := rfl
@[simp] theorem withdrawVoice_txn (v : Nat) (s : State) : (withdrawVoice v s).txn = s.txn := rfl
@[simp] theorem withdrawVoice_job (v : Nat) (s : State) : (withdrawVoice v s).job = s.job := rfl
@[simp] theorem withdrawVoice_image (v : Nat) (s : State) : (withdrawVoice v s).image = s.image := rfl
@[simp] theorem withdrawVoice_flash (v : Nat) (s : State) : (withdrawVoice v s).flash = s.flash := rfl
@[simp] theorem withdrawVoice_faults (v : Nat) (s : State) : (withdrawVoice v s).faults = s.faults := rfl
@[simp] theorem withdrawVoice_freeCount (v : Nat) (s : State) : (withdrawVoice v s).freeCount = s.freeCount := rfl
@[simp] theorem withdrawVoice_pending (v : Nat) (s : State) : (withdrawVoice v s).pending = s.pending := rfl

/-! ### portFreed -/

@[simp] theorem portFreed_partTime (s : State) : (portFreed s).partTime = s.partTime := rfl
@[simp] theorem portFreed_phase (s : State) : (portFreed s).phase = s.phase := rfl
@[simp] theorem portFreed_resetWait (s : State) : (portFreed s).resetWait = s.resetWait := rfl
@[simp] theorem portFreed_motor (s : State) : (portFreed s).motor = s.motor := rfl
@[simp] theorem portFreed_pub (s : State) : (portFreed s).pub = s.pub := rfl
@[simp] theorem portFreed_demand (s : State) : (portFreed s).demand = s.demand := rfl
@[simp] theorem portFreed_holds (s : State) : (portFreed s).holds = s.holds := rfl
@[simp] theorem portFreed_throttles (s : State) : (portFreed s).throttles = s.throttles := rfl
@[simp] theorem portFreed_refusedLearns (s : State) : (portFreed s).refusedLearns = s.refusedLearns := rfl
@[simp] theorem portFreed_rateDue (s : State) : (portFreed s).rateDue = s.rateDue := rfl
@[simp] theorem portFreed_drive (s : State) : (portFreed s).drive = s.drive := rfl
@[simp] theorem portFreed_groups (s : State) : (portFreed s).groups = s.groups := rfl
@[simp] theorem portFreed_radio (s : State) : (portFreed s).radio = s.radio := rfl
@[simp] theorem portFreed_localLine (s : State) : (portFreed s).localLine = s.localLine := rfl
@[simp] theorem portFreed_replies (s : State) : (portFreed s).replies = s.replies := rfl
@[simp] theorem portFreed_holdSeq (s : State) : (portFreed s).holdSeq = s.holdSeq := rfl
@[simp] theorem portFreed_switches (s : State) : (portFreed s).switches = s.switches := rfl
@[simp] theorem portFreed_outputs (s : State) : (portFreed s).outputs = s.outputs := rfl
@[simp] theorem portFreed_trips (s : State) : (portFreed s).trips = s.trips := rfl
@[simp] theorem portFreed_lightDemand (s : State) : (portFreed s).lightDemand = s.lightDemand := rfl
@[simp] theorem portFreed_sound (s : State) : (portFreed s).sound = s.sound := rfl
@[simp] theorem portFreed_voiceRam (s : State) : (portFreed s).voiceRam = s.voiceRam := rfl
@[simp] theorem portFreed_smoke (s : State) : (portFreed s).smoke = s.smoke := rfl
@[simp] theorem portFreed_supply (s : State) : (portFreed s).supply = s.supply := rfl
@[simp] theorem portFreed_beacon (s : State) : (portFreed s).beacon = s.beacon := rfl
@[simp] theorem portFreed_settings (s : State) : (portFreed s).settings = s.settings := rfl
@[simp] theorem portFreed_unsaved (s : State) : (portFreed s).unsaved = s.unsaved := rfl
@[simp] theorem portFreed_changedSinceCopy (s : State) : (portFreed s).changedSinceCopy = s.changedSinceCopy := rfl
@[simp] theorem portFreed_txn (s : State) : (portFreed s).txn = s.txn := rfl
@[simp] theorem portFreed_job (s : State) : (portFreed s).job = s.job := rfl
@[simp] theorem portFreed_image (s : State) : (portFreed s).image = s.image := rfl
@[simp] theorem portFreed_flash (s : State) : (portFreed s).flash = s.flash := rfl
@[simp] theorem portFreed_faults (s : State) : (portFreed s).faults = s.faults := rfl
@[simp] theorem portFreed_freeCount (s : State) : (portFreed s).freeCount = s.freeCount := rfl
@[simp] theorem portFreed_pending (s : State) : (portFreed s).pending = s.pending := rfl

/-! ### motorDark -/

@[simp] theorem motorDark_partTime (s : State) : (motorDark s).partTime = s.partTime := rfl
@[simp] theorem motorDark_phase (s : State) : (motorDark s).phase = s.phase := rfl
@[simp] theorem motorDark_resetWait (s : State) : (motorDark s).resetWait = s.resetWait := rfl
@[simp] theorem motorDark_motor (s : State) : (motorDark s).motor = { s.motor with R := 0, rising := 0, falling := 0, Da := 0, I := 0 } := rfl
@[simp] theorem motorDark_pub (s : State) : (motorDark s).pub = s.pub := rfl
@[simp] theorem motorDark_demand (s : State) : (motorDark s).demand = s.demand := rfl
@[simp] theorem motorDark_holds (s : State) : (motorDark s).holds = s.holds := rfl
@[simp] theorem motorDark_throttles (s : State) : (motorDark s).throttles = s.throttles := rfl
@[simp] theorem motorDark_refusedLearns (s : State) : (motorDark s).refusedLearns = s.refusedLearns := rfl
@[simp] theorem motorDark_rateDue (s : State) : (motorDark s).rateDue = s.rateDue := rfl
@[simp] theorem motorDark_drive (s : State) : (motorDark s).drive = s.drive := rfl
@[simp] theorem motorDark_groups (s : State) : (motorDark s).groups = s.groups := rfl
@[simp] theorem motorDark_radio (s : State) : (motorDark s).radio = s.radio := rfl
@[simp] theorem motorDark_localLine (s : State) : (motorDark s).localLine = s.localLine := rfl
@[simp] theorem motorDark_replies (s : State) : (motorDark s).replies = s.replies := rfl
@[simp] theorem motorDark_holdSeq (s : State) : (motorDark s).holdSeq = s.holdSeq := rfl
@[simp] theorem motorDark_switches (s : State) : (motorDark s).switches = s.switches := rfl
@[simp] theorem motorDark_outputs (s : State) : (motorDark s).outputs = s.outputs := rfl
@[simp] theorem motorDark_trips (s : State) : (motorDark s).trips = s.trips := rfl
@[simp] theorem motorDark_lightDemand (s : State) : (motorDark s).lightDemand = s.lightDemand := rfl
@[simp] theorem motorDark_sound (s : State) : (motorDark s).sound = s.sound := rfl
@[simp] theorem motorDark_voiceRam (s : State) : (motorDark s).voiceRam = s.voiceRam := rfl
@[simp] theorem motorDark_smoke (s : State) : (motorDark s).smoke = s.smoke := rfl
@[simp] theorem motorDark_supply (s : State) : (motorDark s).supply = s.supply := rfl
@[simp] theorem motorDark_beacon (s : State) : (motorDark s).beacon = s.beacon := rfl
@[simp] theorem motorDark_settings (s : State) : (motorDark s).settings = s.settings := rfl
@[simp] theorem motorDark_unsaved (s : State) : (motorDark s).unsaved = s.unsaved := rfl
@[simp] theorem motorDark_changedSinceCopy (s : State) : (motorDark s).changedSinceCopy = s.changedSinceCopy := rfl
@[simp] theorem motorDark_txn (s : State) : (motorDark s).txn = s.txn := rfl
@[simp] theorem motorDark_job (s : State) : (motorDark s).job = s.job := rfl
@[simp] theorem motorDark_image (s : State) : (motorDark s).image = s.image := rfl
@[simp] theorem motorDark_port (s : State) : (motorDark s).port = s.port := rfl
@[simp] theorem motorDark_flash (s : State) : (motorDark s).flash = s.flash := rfl
@[simp] theorem motorDark_faults (s : State) : (motorDark s).faults = s.faults := rfl
@[simp] theorem motorDark_freeCount (s : State) : (motorDark s).freeCount = s.freeCount := rfl
@[simp] theorem motorDark_pending (s : State) : (motorDark s).pending = s.pending := rfl

/-! ### endCheck -/

@[simp] theorem endCheck_partTime (r : CheckResult) (e : Option Nat) (s : State) : (endCheck r e s).partTime = s.partTime := rfl
@[simp] theorem endCheck_phase (r : CheckResult) (e : Option Nat) (s : State) : (endCheck r e s).phase = s.phase := rfl
@[simp] theorem endCheck_resetWait (r : CheckResult) (e : Option Nat) (s : State) : (endCheck r e s).resetWait = s.resetWait := rfl
@[simp] theorem endCheck_pub (r : CheckResult) (e : Option Nat) (s : State) : (endCheck r e s).pub = s.pub := rfl
@[simp] theorem endCheck_demand (r : CheckResult) (e : Option Nat) (s : State) : (endCheck r e s).demand = s.demand := rfl
@[simp] theorem endCheck_holds (r : CheckResult) (e : Option Nat) (s : State) : (endCheck r e s).holds = s.holds := rfl
@[simp] theorem endCheck_throttles (r : CheckResult) (e : Option Nat) (s : State) : (endCheck r e s).throttles = s.throttles := rfl
@[simp] theorem endCheck_refusedLearns (r : CheckResult) (e : Option Nat) (s : State) : (endCheck r e s).refusedLearns = s.refusedLearns := rfl
@[simp] theorem endCheck_rateDue (r : CheckResult) (e : Option Nat) (s : State) : (endCheck r e s).rateDue = s.rateDue := rfl
@[simp] theorem endCheck_drive (r : CheckResult) (e : Option Nat) (s : State) : (endCheck r e s).drive = s.drive := rfl
@[simp] theorem endCheck_groups (r : CheckResult) (e : Option Nat) (s : State) : (endCheck r e s).groups = s.groups := rfl
@[simp] theorem endCheck_radio (r : CheckResult) (e : Option Nat) (s : State) : (endCheck r e s).radio = s.radio := rfl
@[simp] theorem endCheck_localLine (r : CheckResult) (e : Option Nat) (s : State) : (endCheck r e s).localLine = s.localLine := rfl
@[simp] theorem endCheck_replies (r : CheckResult) (e : Option Nat) (s : State) : (endCheck r e s).replies = s.replies := rfl
@[simp] theorem endCheck_holdSeq (r : CheckResult) (e : Option Nat) (s : State) : (endCheck r e s).holdSeq = s.holdSeq := rfl
@[simp] theorem endCheck_switches (r : CheckResult) (e : Option Nat) (s : State) : (endCheck r e s).switches = s.switches := rfl
@[simp] theorem endCheck_outputs (r : CheckResult) (e : Option Nat) (s : State) : (endCheck r e s).outputs = s.outputs := rfl
@[simp] theorem endCheck_trips (r : CheckResult) (e : Option Nat) (s : State) : (endCheck r e s).trips = s.trips := rfl
@[simp] theorem endCheck_lightDemand (r : CheckResult) (e : Option Nat) (s : State) : (endCheck r e s).lightDemand = s.lightDemand := rfl
@[simp] theorem endCheck_sound (r : CheckResult) (e : Option Nat) (s : State) : (endCheck r e s).sound = s.sound := rfl
@[simp] theorem endCheck_voiceRam (r : CheckResult) (e : Option Nat) (s : State) : (endCheck r e s).voiceRam = s.voiceRam := rfl
@[simp] theorem endCheck_smoke (r : CheckResult) (e : Option Nat) (s : State) : (endCheck r e s).smoke = s.smoke := rfl
@[simp] theorem endCheck_supply (r : CheckResult) (e : Option Nat) (s : State) : (endCheck r e s).supply = s.supply := rfl
@[simp] theorem endCheck_beacon (r : CheckResult) (e : Option Nat) (s : State) : (endCheck r e s).beacon = s.beacon := rfl
@[simp] theorem endCheck_settings (r : CheckResult) (e : Option Nat) (s : State) : (endCheck r e s).settings = s.settings := rfl
@[simp] theorem endCheck_unsaved (r : CheckResult) (e : Option Nat) (s : State) : (endCheck r e s).unsaved = s.unsaved := rfl
@[simp] theorem endCheck_changedSinceCopy (r : CheckResult) (e : Option Nat) (s : State) : (endCheck r e s).changedSinceCopy = s.changedSinceCopy := rfl
@[simp] theorem endCheck_txn (r : CheckResult) (e : Option Nat) (s : State) : (endCheck r e s).txn = s.txn := rfl
@[simp] theorem endCheck_job (r : CheckResult) (e : Option Nat) (s : State) : (endCheck r e s).job = s.job := rfl
@[simp] theorem endCheck_image (r : CheckResult) (e : Option Nat) (s : State) : (endCheck r e s).image = s.image := rfl
@[simp] theorem endCheck_port (r : CheckResult) (e : Option Nat) (s : State) : (endCheck r e s).port = s.port := rfl
@[simp] theorem endCheck_flash (r : CheckResult) (e : Option Nat) (s : State) : (endCheck r e s).flash = s.flash := rfl
@[simp] theorem endCheck_faults (r : CheckResult) (e : Option Nat) (s : State) : (endCheck r e s).faults = s.faults := rfl
@[simp] theorem endCheck_freeCount (r : CheckResult) (e : Option Nat) (s : State) : (endCheck r e s).freeCount = s.freeCount := rfl
@[simp] theorem endCheck_pending (r : CheckResult) (e : Option Nat) (s : State) : (endCheck r e s).pending = s.pending := rfl

/-! ### senseSupply -/

@[simp] theorem senseSupply_partTime (vt vs : Nat) (s : State) : (senseSupply vt vs s).partTime = s.partTime := rfl
@[simp] theorem senseSupply_phase (vt vs : Nat) (s : State) : (senseSupply vt vs s).phase = s.phase := rfl
@[simp] theorem senseSupply_resetWait (vt vs : Nat) (s : State) : (senseSupply vt vs s).resetWait = s.resetWait := rfl
@[simp] theorem senseSupply_motor (vt vs : Nat) (s : State) : (senseSupply vt vs s).motor = s.motor := rfl
@[simp] theorem senseSupply_pub (vt vs : Nat) (s : State) : (senseSupply vt vs s).pub = s.pub := rfl
@[simp] theorem senseSupply_demand (vt vs : Nat) (s : State) : (senseSupply vt vs s).demand = s.demand := rfl
@[simp] theorem senseSupply_holds (vt vs : Nat) (s : State) : (senseSupply vt vs s).holds = s.holds := rfl
@[simp] theorem senseSupply_throttles (vt vs : Nat) (s : State) : (senseSupply vt vs s).throttles = s.throttles := rfl
@[simp] theorem senseSupply_refusedLearns (vt vs : Nat) (s : State) : (senseSupply vt vs s).refusedLearns = s.refusedLearns := rfl
@[simp] theorem senseSupply_rateDue (vt vs : Nat) (s : State) : (senseSupply vt vs s).rateDue = s.rateDue := rfl
@[simp] theorem senseSupply_drive (vt vs : Nat) (s : State) : (senseSupply vt vs s).drive = s.drive := rfl
@[simp] theorem senseSupply_groups (vt vs : Nat) (s : State) : (senseSupply vt vs s).groups = s.groups := rfl
@[simp] theorem senseSupply_radio (vt vs : Nat) (s : State) : (senseSupply vt vs s).radio = s.radio := rfl
@[simp] theorem senseSupply_localLine (vt vs : Nat) (s : State) : (senseSupply vt vs s).localLine = s.localLine := rfl
@[simp] theorem senseSupply_replies (vt vs : Nat) (s : State) : (senseSupply vt vs s).replies = s.replies := rfl
@[simp] theorem senseSupply_holdSeq (vt vs : Nat) (s : State) : (senseSupply vt vs s).holdSeq = s.holdSeq := rfl
@[simp] theorem senseSupply_switches (vt vs : Nat) (s : State) : (senseSupply vt vs s).switches = s.switches := rfl
@[simp] theorem senseSupply_outputs (vt vs : Nat) (s : State) : (senseSupply vt vs s).outputs = s.outputs := rfl
@[simp] theorem senseSupply_trips (vt vs : Nat) (s : State) : (senseSupply vt vs s).trips = s.trips := rfl
@[simp] theorem senseSupply_lightDemand (vt vs : Nat) (s : State) : (senseSupply vt vs s).lightDemand = s.lightDemand := rfl
@[simp] theorem senseSupply_sound (vt vs : Nat) (s : State) : (senseSupply vt vs s).sound = s.sound := rfl
@[simp] theorem senseSupply_voiceRam (vt vs : Nat) (s : State) : (senseSupply vt vs s).voiceRam = s.voiceRam := rfl
@[simp] theorem senseSupply_smoke (vt vs : Nat) (s : State) : (senseSupply vt vs s).smoke = s.smoke := rfl
@[simp] theorem senseSupply_supply (vt vs : Nat) (s : State) : (senseSupply vt vs s).supply = { s.supply with vt := min 30000 vt, vs := min 20000 vs } := rfl
@[simp] theorem senseSupply_beacon (vt vs : Nat) (s : State) : (senseSupply vt vs s).beacon = s.beacon := rfl
@[simp] theorem senseSupply_settings (vt vs : Nat) (s : State) : (senseSupply vt vs s).settings = s.settings := rfl
@[simp] theorem senseSupply_unsaved (vt vs : Nat) (s : State) : (senseSupply vt vs s).unsaved = s.unsaved := rfl
@[simp] theorem senseSupply_changedSinceCopy (vt vs : Nat) (s : State) : (senseSupply vt vs s).changedSinceCopy = s.changedSinceCopy := rfl
@[simp] theorem senseSupply_txn (vt vs : Nat) (s : State) : (senseSupply vt vs s).txn = s.txn := rfl
@[simp] theorem senseSupply_job (vt vs : Nat) (s : State) : (senseSupply vt vs s).job = s.job := rfl
@[simp] theorem senseSupply_image (vt vs : Nat) (s : State) : (senseSupply vt vs s).image = s.image := rfl
@[simp] theorem senseSupply_port (vt vs : Nat) (s : State) : (senseSupply vt vs s).port = s.port := rfl
@[simp] theorem senseSupply_flash (vt vs : Nat) (s : State) : (senseSupply vt vs s).flash = s.flash := rfl
@[simp] theorem senseSupply_faults (vt vs : Nat) (s : State) : (senseSupply vt vs s).faults = s.faults := rfl
@[simp] theorem senseSupply_freeCount (vt vs : Nat) (s : State) : (senseSupply vt vs s).freeCount = s.freeCount := rfl
@[simp] theorem senseSupply_pending (vt vs : Nat) (s : State) : (senseSupply vt vs s).pending = s.pending := rfl

/-! ### applyHeater -/

@[simp] theorem applyHeater_partTime (s : State) : (applyHeater s).partTime = s.partTime := rfl
@[simp] theorem applyHeater_phase (s : State) : (applyHeater s).phase = s.phase := rfl
@[simp] theorem applyHeater_resetWait (s : State) : (applyHeater s).resetWait = s.resetWait := rfl
@[simp] theorem applyHeater_motor (s : State) : (applyHeater s).motor = s.motor := rfl
@[simp] theorem applyHeater_pub (s : State) : (applyHeater s).pub = s.pub := rfl
@[simp] theorem applyHeater_demand (s : State) : (applyHeater s).demand = s.demand := rfl
@[simp] theorem applyHeater_holds (s : State) : (applyHeater s).holds = s.holds := rfl
@[simp] theorem applyHeater_throttles (s : State) : (applyHeater s).throttles = s.throttles := rfl
@[simp] theorem applyHeater_refusedLearns (s : State) : (applyHeater s).refusedLearns = s.refusedLearns := rfl
@[simp] theorem applyHeater_rateDue (s : State) : (applyHeater s).rateDue = s.rateDue := rfl
@[simp] theorem applyHeater_drive (s : State) : (applyHeater s).drive = s.drive := rfl
@[simp] theorem applyHeater_groups (s : State) : (applyHeater s).groups = s.groups := rfl
@[simp] theorem applyHeater_radio (s : State) : (applyHeater s).radio = s.radio := rfl
@[simp] theorem applyHeater_localLine (s : State) : (applyHeater s).localLine = s.localLine := rfl
@[simp] theorem applyHeater_replies (s : State) : (applyHeater s).replies = s.replies := rfl
@[simp] theorem applyHeater_holdSeq (s : State) : (applyHeater s).holdSeq = s.holdSeq := rfl
@[simp] theorem applyHeater_switches (s : State) : (applyHeater s).switches = s.switches := rfl
@[simp] theorem applyHeater_outputs (s : State) : (applyHeater s).outputs = s.outputs := rfl
@[simp] theorem applyHeater_trips (s : State) : (applyHeater s).trips = s.trips := rfl
@[simp] theorem applyHeater_lightDemand (s : State) : (applyHeater s).lightDemand = s.lightDemand := rfl
@[simp] theorem applyHeater_sound (s : State) : (applyHeater s).sound = s.sound := rfl
@[simp] theorem applyHeater_voiceRam (s : State) : (applyHeater s).voiceRam = s.voiceRam := rfl
@[simp] theorem applyHeater_smoke (s : State) : (applyHeater s).smoke = { s.smoke with duty := min s.smoke.demand s.supply.grants.heaterCap } := rfl
@[simp] theorem applyHeater_supply (s : State) : (applyHeater s).supply = s.supply := rfl
@[simp] theorem applyHeater_beacon (s : State) : (applyHeater s).beacon = s.beacon := rfl
@[simp] theorem applyHeater_settings (s : State) : (applyHeater s).settings = s.settings := rfl
@[simp] theorem applyHeater_unsaved (s : State) : (applyHeater s).unsaved = s.unsaved := rfl
@[simp] theorem applyHeater_changedSinceCopy (s : State) : (applyHeater s).changedSinceCopy = s.changedSinceCopy := rfl
@[simp] theorem applyHeater_txn (s : State) : (applyHeater s).txn = s.txn := rfl
@[simp] theorem applyHeater_job (s : State) : (applyHeater s).job = s.job := rfl
@[simp] theorem applyHeater_image (s : State) : (applyHeater s).image = s.image := rfl
@[simp] theorem applyHeater_port (s : State) : (applyHeater s).port = s.port := rfl
@[simp] theorem applyHeater_flash (s : State) : (applyHeater s).flash = s.flash := rfl
@[simp] theorem applyHeater_faults (s : State) : (applyHeater s).faults = s.faults := rfl
@[simp] theorem applyHeater_freeCount (s : State) : (applyHeater s).freeCount = s.freeCount := rfl
@[simp] theorem applyHeater_pending (s : State) : (applyHeater s).pending = s.pending := rfl

/-! ### setFan -/

@[simp] theorem setFan_partTime (m : FanMode) (s : State) : (setFan m s).partTime = s.partTime := rfl
@[simp] theorem setFan_phase (m : FanMode) (s : State) : (setFan m s).phase = s.phase := rfl
@[simp] theorem setFan_resetWait (m : FanMode) (s : State) : (setFan m s).resetWait = s.resetWait := rfl
@[simp] theorem setFan_motor (m : FanMode) (s : State) : (setFan m s).motor = s.motor := rfl
@[simp] theorem setFan_pub (m : FanMode) (s : State) : (setFan m s).pub = s.pub := rfl
@[simp] theorem setFan_demand (m : FanMode) (s : State) : (setFan m s).demand = s.demand := rfl
@[simp] theorem setFan_holds (m : FanMode) (s : State) : (setFan m s).holds = s.holds := rfl
@[simp] theorem setFan_throttles (m : FanMode) (s : State) : (setFan m s).throttles = s.throttles := rfl
@[simp] theorem setFan_refusedLearns (m : FanMode) (s : State) : (setFan m s).refusedLearns = s.refusedLearns := rfl
@[simp] theorem setFan_rateDue (m : FanMode) (s : State) : (setFan m s).rateDue = s.rateDue := rfl
@[simp] theorem setFan_drive (m : FanMode) (s : State) : (setFan m s).drive = s.drive := rfl
@[simp] theorem setFan_groups (m : FanMode) (s : State) : (setFan m s).groups = s.groups := rfl
@[simp] theorem setFan_radio (m : FanMode) (s : State) : (setFan m s).radio = s.radio := rfl
@[simp] theorem setFan_localLine (m : FanMode) (s : State) : (setFan m s).localLine = s.localLine := rfl
@[simp] theorem setFan_replies (m : FanMode) (s : State) : (setFan m s).replies = s.replies := rfl
@[simp] theorem setFan_holdSeq (m : FanMode) (s : State) : (setFan m s).holdSeq = s.holdSeq := rfl
@[simp] theorem setFan_switches (m : FanMode) (s : State) : (setFan m s).switches = s.switches := rfl
@[simp] theorem setFan_outputs (m : FanMode) (s : State) : (setFan m s).outputs = s.outputs := rfl
@[simp] theorem setFan_trips (m : FanMode) (s : State) : (setFan m s).trips = s.trips := rfl
@[simp] theorem setFan_lightDemand (m : FanMode) (s : State) : (setFan m s).lightDemand = s.lightDemand := rfl
@[simp] theorem setFan_sound (m : FanMode) (s : State) : (setFan m s).sound = s.sound := rfl
@[simp] theorem setFan_voiceRam (m : FanMode) (s : State) : (setFan m s).voiceRam = s.voiceRam := rfl
@[simp] theorem setFan_supply (m : FanMode) (s : State) : (setFan m s).supply = s.supply := rfl
@[simp] theorem setFan_beacon (m : FanMode) (s : State) : (setFan m s).beacon = s.beacon := rfl
@[simp] theorem setFan_settings (m : FanMode) (s : State) : (setFan m s).settings = s.settings := rfl
@[simp] theorem setFan_unsaved (m : FanMode) (s : State) : (setFan m s).unsaved = s.unsaved := rfl
@[simp] theorem setFan_changedSinceCopy (m : FanMode) (s : State) : (setFan m s).changedSinceCopy = s.changedSinceCopy := rfl
@[simp] theorem setFan_txn (m : FanMode) (s : State) : (setFan m s).txn = s.txn := rfl
@[simp] theorem setFan_job (m : FanMode) (s : State) : (setFan m s).job = s.job := rfl
@[simp] theorem setFan_image (m : FanMode) (s : State) : (setFan m s).image = s.image := rfl
@[simp] theorem setFan_port (m : FanMode) (s : State) : (setFan m s).port = s.port := rfl
@[simp] theorem setFan_flash (m : FanMode) (s : State) : (setFan m s).flash = s.flash := rfl
@[simp] theorem setFan_faults (m : FanMode) (s : State) : (setFan m s).faults = s.faults := rfl
@[simp] theorem setFan_freeCount (m : FanMode) (s : State) : (setFan m s).freeCount = s.freeCount := rfl
@[simp] theorem setFan_pending (m : FanMode) (s : State) : (setFan m s).pending = s.pending := rfl

/-! ### takeSmokeSettings -/

@[simp] theorem takeSmokeSettings_smoke (s : State) :
    (takeSmokeSettings s).smoke = { s.smoke with inUse := smokeSettings s } := rfl
@[simp] theorem takeSmokeSettings_partTime (s : State) : (takeSmokeSettings s).partTime = s.partTime := rfl
@[simp] theorem takeSmokeSettings_phase (s : State) : (takeSmokeSettings s).phase = s.phase := rfl
@[simp] theorem takeSmokeSettings_resetWait (s : State) : (takeSmokeSettings s).resetWait = s.resetWait := rfl
@[simp] theorem takeSmokeSettings_motor (s : State) : (takeSmokeSettings s).motor = s.motor := rfl
@[simp] theorem takeSmokeSettings_pub (s : State) : (takeSmokeSettings s).pub = s.pub := rfl
@[simp] theorem takeSmokeSettings_demand (s : State) : (takeSmokeSettings s).demand = s.demand := rfl
@[simp] theorem takeSmokeSettings_holds (s : State) : (takeSmokeSettings s).holds = s.holds := rfl
@[simp] theorem takeSmokeSettings_throttles (s : State) : (takeSmokeSettings s).throttles = s.throttles := rfl
@[simp] theorem takeSmokeSettings_refusedLearns (s : State) : (takeSmokeSettings s).refusedLearns = s.refusedLearns := rfl
@[simp] theorem takeSmokeSettings_rateDue (s : State) : (takeSmokeSettings s).rateDue = s.rateDue := rfl
@[simp] theorem takeSmokeSettings_drive (s : State) : (takeSmokeSettings s).drive = s.drive := rfl
@[simp] theorem takeSmokeSettings_groups (s : State) : (takeSmokeSettings s).groups = s.groups := rfl
@[simp] theorem takeSmokeSettings_radio (s : State) : (takeSmokeSettings s).radio = s.radio := rfl
@[simp] theorem takeSmokeSettings_localLine (s : State) : (takeSmokeSettings s).localLine = s.localLine := rfl
@[simp] theorem takeSmokeSettings_replies (s : State) : (takeSmokeSettings s).replies = s.replies := rfl
@[simp] theorem takeSmokeSettings_holdSeq (s : State) : (takeSmokeSettings s).holdSeq = s.holdSeq := rfl
@[simp] theorem takeSmokeSettings_switches (s : State) : (takeSmokeSettings s).switches = s.switches := rfl
@[simp] theorem takeSmokeSettings_outputs (s : State) : (takeSmokeSettings s).outputs = s.outputs := rfl
@[simp] theorem takeSmokeSettings_trips (s : State) : (takeSmokeSettings s).trips = s.trips := rfl
@[simp] theorem takeSmokeSettings_lightDemand (s : State) : (takeSmokeSettings s).lightDemand = s.lightDemand := rfl
@[simp] theorem takeSmokeSettings_sound (s : State) : (takeSmokeSettings s).sound = s.sound := rfl
@[simp] theorem takeSmokeSettings_voiceRam (s : State) : (takeSmokeSettings s).voiceRam = s.voiceRam := rfl
@[simp] theorem takeSmokeSettings_supply (s : State) : (takeSmokeSettings s).supply = s.supply := rfl
@[simp] theorem takeSmokeSettings_beacon (s : State) : (takeSmokeSettings s).beacon = s.beacon := rfl
@[simp] theorem takeSmokeSettings_settings (s : State) : (takeSmokeSettings s).settings = s.settings := rfl
@[simp] theorem takeSmokeSettings_unsaved (s : State) : (takeSmokeSettings s).unsaved = s.unsaved := rfl
@[simp] theorem takeSmokeSettings_changedSinceCopy (s : State) : (takeSmokeSettings s).changedSinceCopy = s.changedSinceCopy := rfl
@[simp] theorem takeSmokeSettings_txn (s : State) : (takeSmokeSettings s).txn = s.txn := rfl
@[simp] theorem takeSmokeSettings_job (s : State) : (takeSmokeSettings s).job = s.job := rfl
@[simp] theorem takeSmokeSettings_image (s : State) : (takeSmokeSettings s).image = s.image := rfl
@[simp] theorem takeSmokeSettings_port (s : State) : (takeSmokeSettings s).port = s.port := rfl
@[simp] theorem takeSmokeSettings_flash (s : State) : (takeSmokeSettings s).flash = s.flash := rfl
@[simp] theorem takeSmokeSettings_faults (s : State) : (takeSmokeSettings s).faults = s.faults := rfl
@[simp] theorem takeSmokeSettings_freeCount (s : State) : (takeSmokeSettings s).freeCount = s.freeCount := rfl
@[simp] theorem takeSmokeSettings_pending (s : State) : (takeSmokeSettings s).pending = s.pending := rfl

/-! ### publish -/

@[simp] theorem publish_partTime (s : State) : (publish s).partTime = s.partTime := rfl
@[simp] theorem publish_phase (s : State) : (publish s).phase = s.phase := rfl
@[simp] theorem publish_resetWait (s : State) : (publish s).resetWait = s.resetWait := rfl
@[simp] theorem publish_motor (s : State) : (publish s).motor = s.motor := rfl
@[simp] theorem publish_demand (s : State) : (publish s).demand = s.demand := rfl
@[simp] theorem publish_holds (s : State) : (publish s).holds = s.holds := rfl
@[simp] theorem publish_throttles (s : State) : (publish s).throttles = s.throttles := rfl
@[simp] theorem publish_refusedLearns (s : State) : (publish s).refusedLearns = s.refusedLearns := rfl
@[simp] theorem publish_rateDue (s : State) : (publish s).rateDue = s.rateDue := rfl
@[simp] theorem publish_drive (s : State) : (publish s).drive = s.drive := rfl
@[simp] theorem publish_groups (s : State) : (publish s).groups = s.groups := rfl
@[simp] theorem publish_radio (s : State) : (publish s).radio = s.radio := rfl
@[simp] theorem publish_localLine (s : State) : (publish s).localLine = s.localLine := rfl
@[simp] theorem publish_replies (s : State) : (publish s).replies = s.replies := rfl
@[simp] theorem publish_holdSeq (s : State) : (publish s).holdSeq = s.holdSeq := rfl
@[simp] theorem publish_switches (s : State) : (publish s).switches = s.switches := rfl
@[simp] theorem publish_outputs (s : State) : (publish s).outputs = s.outputs := rfl
@[simp] theorem publish_trips (s : State) : (publish s).trips = s.trips := rfl
@[simp] theorem publish_lightDemand (s : State) : (publish s).lightDemand = s.lightDemand := rfl
@[simp] theorem publish_sound (s : State) : (publish s).sound = s.sound := rfl
@[simp] theorem publish_voiceRam (s : State) : (publish s).voiceRam = s.voiceRam := rfl
@[simp] theorem publish_smoke (s : State) : (publish s).smoke = s.smoke := rfl
@[simp] theorem publish_supply (s : State) : (publish s).supply = s.supply := rfl
@[simp] theorem publish_beacon (s : State) : (publish s).beacon = s.beacon := rfl
@[simp] theorem publish_settings (s : State) : (publish s).settings = s.settings := rfl
@[simp] theorem publish_unsaved (s : State) : (publish s).unsaved = s.unsaved := rfl
@[simp] theorem publish_changedSinceCopy (s : State) : (publish s).changedSinceCopy = s.changedSinceCopy := rfl
@[simp] theorem publish_txn (s : State) : (publish s).txn = s.txn := rfl
@[simp] theorem publish_job (s : State) : (publish s).job = s.job := rfl
@[simp] theorem publish_image (s : State) : (publish s).image = s.image := rfl
@[simp] theorem publish_port (s : State) : (publish s).port = s.port := rfl
@[simp] theorem publish_flash (s : State) : (publish s).flash = s.flash := rfl
@[simp] theorem publish_faults (s : State) : (publish s).faults = s.faults := rfl
@[simp] theorem publish_freeCount (s : State) : (publish s).freeCount = s.freeCount := rfl
@[simp] theorem publish_pending (s : State) : (publish s).pending = s.pending := rfl

/-! ### advanceRun -/

@[simp] theorem advanceRun_partTime (e : Nat) (s : State) : (advanceRun e s).partTime = s.partTime := rfl
@[simp] theorem advanceRun_phase (e : Nat) (s : State) : (advanceRun e s).phase = s.phase := rfl
@[simp] theorem advanceRun_resetWait (e : Nat) (s : State) : (advanceRun e s).resetWait = s.resetWait := rfl
@[simp] theorem advanceRun_motor (e : Nat) (s : State) : (advanceRun e s).motor = s.motor := rfl
@[simp] theorem advanceRun_pub (e : Nat) (s : State) : (advanceRun e s).pub = s.pub := rfl
@[simp] theorem advanceRun_demand (e : Nat) (s : State) : (advanceRun e s).demand = s.demand := rfl
@[simp] theorem advanceRun_holds (e : Nat) (s : State) : (advanceRun e s).holds = s.holds := rfl
@[simp] theorem advanceRun_throttles (e : Nat) (s : State) : (advanceRun e s).throttles = s.throttles := rfl
@[simp] theorem advanceRun_refusedLearns (e : Nat) (s : State) : (advanceRun e s).refusedLearns = s.refusedLearns := rfl
@[simp] theorem advanceRun_rateDue (e : Nat) (s : State) : (advanceRun e s).rateDue = s.rateDue := rfl
@[simp] theorem advanceRun_drive (e : Nat) (s : State) : (advanceRun e s).drive = s.drive := rfl
@[simp] theorem advanceRun_groups (e : Nat) (s : State) : (advanceRun e s).groups = s.groups := rfl
@[simp] theorem advanceRun_radio (e : Nat) (s : State) : (advanceRun e s).radio = s.radio := rfl
@[simp] theorem advanceRun_localLine (e : Nat) (s : State) : (advanceRun e s).localLine = s.localLine := rfl
@[simp] theorem advanceRun_replies (e : Nat) (s : State) : (advanceRun e s).replies = s.replies := rfl
@[simp] theorem advanceRun_holdSeq (e : Nat) (s : State) : (advanceRun e s).holdSeq = s.holdSeq := rfl
@[simp] theorem advanceRun_switches (e : Nat) (s : State) : (advanceRun e s).switches = s.switches := rfl
@[simp] theorem advanceRun_outputs (e : Nat) (s : State) : (advanceRun e s).outputs = s.outputs := rfl
@[simp] theorem advanceRun_trips (e : Nat) (s : State) : (advanceRun e s).trips = s.trips := rfl
@[simp] theorem advanceRun_lightDemand (e : Nat) (s : State) : (advanceRun e s).lightDemand = s.lightDemand := rfl
@[simp] theorem advanceRun_sound (e : Nat) (s : State) : (advanceRun e s).sound = s.sound := rfl
@[simp] theorem advanceRun_voiceRam (e : Nat) (s : State) : (advanceRun e s).voiceRam = s.voiceRam := rfl
@[simp] theorem advanceRun_smoke (e : Nat) (s : State) : (advanceRun e s).smoke = s.smoke := rfl
@[simp] theorem advanceRun_supply (e : Nat) (s : State) : (advanceRun e s).supply = s.supply := rfl
@[simp] theorem advanceRun_beacon (e : Nat) (s : State) : (advanceRun e s).beacon = { s.beacon with runLen := min 65535 (s.beacon.runLen + e), unsettled := false } := rfl
@[simp] theorem advanceRun_settings (e : Nat) (s : State) : (advanceRun e s).settings = s.settings := rfl
@[simp] theorem advanceRun_unsaved (e : Nat) (s : State) : (advanceRun e s).unsaved = s.unsaved := rfl
@[simp] theorem advanceRun_changedSinceCopy (e : Nat) (s : State) : (advanceRun e s).changedSinceCopy = s.changedSinceCopy := rfl
@[simp] theorem advanceRun_txn (e : Nat) (s : State) : (advanceRun e s).txn = s.txn := rfl
@[simp] theorem advanceRun_job (e : Nat) (s : State) : (advanceRun e s).job = s.job := rfl
@[simp] theorem advanceRun_image (e : Nat) (s : State) : (advanceRun e s).image = s.image := rfl
@[simp] theorem advanceRun_port (e : Nat) (s : State) : (advanceRun e s).port = s.port := rfl
@[simp] theorem advanceRun_flash (e : Nat) (s : State) : (advanceRun e s).flash = s.flash := rfl
@[simp] theorem advanceRun_faults (e : Nat) (s : State) : (advanceRun e s).faults = s.faults := rfl
@[simp] theorem advanceRun_freeCount (e : Nat) (s : State) : (advanceRun e s).freeCount = s.freeCount := rfl
@[simp] theorem advanceRun_pending (e : Nat) (s : State) : (advanceRun e s).pending = s.pending := rfl

/-! ### beginBurst -/

@[simp] theorem beginBurst_partTime (s : State) : (beginBurst s).partTime = s.partTime := rfl
@[simp] theorem beginBurst_phase (s : State) : (beginBurst s).phase = s.phase := rfl
@[simp] theorem beginBurst_resetWait (s : State) : (beginBurst s).resetWait = s.resetWait := rfl
@[simp] theorem beginBurst_motor (s : State) : (beginBurst s).motor = s.motor := rfl
@[simp] theorem beginBurst_pub (s : State) : (beginBurst s).pub = s.pub := rfl
@[simp] theorem beginBurst_demand (s : State) : (beginBurst s).demand = s.demand := rfl
@[simp] theorem beginBurst_holds (s : State) : (beginBurst s).holds = s.holds := rfl
@[simp] theorem beginBurst_throttles (s : State) : (beginBurst s).throttles = s.throttles := rfl
@[simp] theorem beginBurst_refusedLearns (s : State) : (beginBurst s).refusedLearns = s.refusedLearns := rfl
@[simp] theorem beginBurst_rateDue (s : State) : (beginBurst s).rateDue = s.rateDue := rfl
@[simp] theorem beginBurst_drive (s : State) : (beginBurst s).drive = s.drive := rfl
@[simp] theorem beginBurst_groups (s : State) : (beginBurst s).groups = s.groups := rfl
@[simp] theorem beginBurst_radio (s : State) : (beginBurst s).radio = s.radio := rfl
@[simp] theorem beginBurst_localLine (s : State) : (beginBurst s).localLine = s.localLine := rfl
@[simp] theorem beginBurst_replies (s : State) : (beginBurst s).replies = s.replies := rfl
@[simp] theorem beginBurst_holdSeq (s : State) : (beginBurst s).holdSeq = s.holdSeq := rfl
@[simp] theorem beginBurst_switches (s : State) : (beginBurst s).switches = s.switches := rfl
@[simp] theorem beginBurst_outputs (s : State) : (beginBurst s).outputs = s.outputs := rfl
@[simp] theorem beginBurst_trips (s : State) : (beginBurst s).trips = s.trips := rfl
@[simp] theorem beginBurst_lightDemand (s : State) : (beginBurst s).lightDemand = s.lightDemand := rfl
@[simp] theorem beginBurst_sound (s : State) : (beginBurst s).sound = s.sound := rfl
@[simp] theorem beginBurst_voiceRam (s : State) : (beginBurst s).voiceRam = s.voiceRam := rfl
@[simp] theorem beginBurst_smoke (s : State) : (beginBurst s).smoke = s.smoke := rfl
@[simp] theorem beginBurst_supply (s : State) : (beginBurst s).supply = s.supply := rfl
@[simp] theorem beginBurst_settings (s : State) : (beginBurst s).settings = s.settings := rfl
@[simp] theorem beginBurst_unsaved (s : State) : (beginBurst s).unsaved = s.unsaved := rfl
@[simp] theorem beginBurst_changedSinceCopy (s : State) : (beginBurst s).changedSinceCopy = s.changedSinceCopy := rfl
@[simp] theorem beginBurst_txn (s : State) : (beginBurst s).txn = s.txn := rfl
@[simp] theorem beginBurst_job (s : State) : (beginBurst s).job = s.job := rfl
@[simp] theorem beginBurst_image (s : State) : (beginBurst s).image = s.image := rfl
@[simp] theorem beginBurst_port (s : State) : (beginBurst s).port = s.port := rfl
@[simp] theorem beginBurst_flash (s : State) : (beginBurst s).flash = s.flash := rfl
@[simp] theorem beginBurst_faults (s : State) : (beginBurst s).faults = s.faults := rfl
@[simp] theorem beginBurst_freeCount (s : State) : (beginBurst s).freeCount = s.freeCount := rfl
@[simp] theorem beginBurst_pending (s : State) : (beginBurst s).pending = s.pending := rfl

/-! ### setPort -/

@[simp] theorem setPort_partTime (p : Port) (ps : PortState) (s : State) : (setPort p ps s).partTime = s.partTime := by cases p <;> rfl
@[simp] theorem setPort_phase (p : Port) (ps : PortState) (s : State) : (setPort p ps s).phase = s.phase := by cases p <;> rfl
@[simp] theorem setPort_resetWait (p : Port) (ps : PortState) (s : State) : (setPort p ps s).resetWait = s.resetWait := by cases p <;> rfl
@[simp] theorem setPort_motor (p : Port) (ps : PortState) (s : State) : (setPort p ps s).motor = s.motor := by cases p <;> rfl
@[simp] theorem setPort_pub (p : Port) (ps : PortState) (s : State) : (setPort p ps s).pub = s.pub := by cases p <;> rfl
@[simp] theorem setPort_demand (p : Port) (ps : PortState) (s : State) : (setPort p ps s).demand = s.demand := by cases p <;> rfl
@[simp] theorem setPort_holds (p : Port) (ps : PortState) (s : State) : (setPort p ps s).holds = s.holds := by cases p <;> rfl
@[simp] theorem setPort_throttles (p : Port) (ps : PortState) (s : State) : (setPort p ps s).throttles = s.throttles := by cases p <;> rfl
@[simp] theorem setPort_refusedLearns (p : Port) (ps : PortState) (s : State) : (setPort p ps s).refusedLearns = s.refusedLearns := by cases p <;> rfl
@[simp] theorem setPort_rateDue (p : Port) (ps : PortState) (s : State) : (setPort p ps s).rateDue = s.rateDue := by cases p <;> rfl
@[simp] theorem setPort_drive (p : Port) (ps : PortState) (s : State) : (setPort p ps s).drive = s.drive := by cases p <;> rfl
@[simp] theorem setPort_groups (p : Port) (ps : PortState) (s : State) : (setPort p ps s).groups = s.groups := by cases p <;> rfl
@[simp] theorem setPort_replies (p : Port) (ps : PortState) (s : State) : (setPort p ps s).replies = s.replies := by cases p <;> rfl
@[simp] theorem setPort_holdSeq (p : Port) (ps : PortState) (s : State) : (setPort p ps s).holdSeq = s.holdSeq := by cases p <;> rfl
@[simp] theorem setPort_switches (p : Port) (ps : PortState) (s : State) : (setPort p ps s).switches = s.switches := by cases p <;> rfl
@[simp] theorem setPort_outputs (p : Port) (ps : PortState) (s : State) : (setPort p ps s).outputs = s.outputs := by cases p <;> rfl
@[simp] theorem setPort_trips (p : Port) (ps : PortState) (s : State) : (setPort p ps s).trips = s.trips := by cases p <;> rfl
@[simp] theorem setPort_lightDemand (p : Port) (ps : PortState) (s : State) : (setPort p ps s).lightDemand = s.lightDemand := by cases p <;> rfl
@[simp] theorem setPort_sound (p : Port) (ps : PortState) (s : State) : (setPort p ps s).sound = s.sound := by cases p <;> rfl
@[simp] theorem setPort_voiceRam (p : Port) (ps : PortState) (s : State) : (setPort p ps s).voiceRam = s.voiceRam := by cases p <;> rfl
@[simp] theorem setPort_smoke (p : Port) (ps : PortState) (s : State) : (setPort p ps s).smoke = s.smoke := by cases p <;> rfl
@[simp] theorem setPort_supply (p : Port) (ps : PortState) (s : State) : (setPort p ps s).supply = s.supply := by cases p <;> rfl
@[simp] theorem setPort_beacon (p : Port) (ps : PortState) (s : State) : (setPort p ps s).beacon = s.beacon := by cases p <;> rfl
@[simp] theorem setPort_settings (p : Port) (ps : PortState) (s : State) : (setPort p ps s).settings = s.settings := by cases p <;> rfl
@[simp] theorem setPort_unsaved (p : Port) (ps : PortState) (s : State) : (setPort p ps s).unsaved = s.unsaved := by cases p <;> rfl
@[simp] theorem setPort_changedSinceCopy (p : Port) (ps : PortState) (s : State) : (setPort p ps s).changedSinceCopy = s.changedSinceCopy := by cases p <;> rfl
@[simp] theorem setPort_txn (p : Port) (ps : PortState) (s : State) : (setPort p ps s).txn = s.txn := by cases p <;> rfl
@[simp] theorem setPort_job (p : Port) (ps : PortState) (s : State) : (setPort p ps s).job = s.job := by cases p <;> rfl
@[simp] theorem setPort_image (p : Port) (ps : PortState) (s : State) : (setPort p ps s).image = s.image := by cases p <;> rfl
@[simp] theorem setPort_port (p : Port) (ps : PortState) (s : State) : (setPort p ps s).port = s.port := by cases p <;> rfl
@[simp] theorem setPort_flash (p : Port) (ps : PortState) (s : State) : (setPort p ps s).flash = s.flash := by cases p <;> rfl
@[simp] theorem setPort_faults (p : Port) (ps : PortState) (s : State) : (setPort p ps s).faults = s.faults := by cases p <;> rfl
@[simp] theorem setPort_freeCount (p : Port) (ps : PortState) (s : State) : (setPort p ps s).freeCount = s.freeCount := by cases p <;> rfl
@[simp] theorem setPort_pending (p : Port) (ps : PortState) (s : State) : (setPort p ps s).pending = s.pending := by cases p <;> rfl

/-! ### popIntake -/

@[simp] theorem popIntake_partTime (p : Port) (s : State) : (popIntake p s).partTime = s.partTime := by cases p <;> rfl
@[simp] theorem popIntake_phase (p : Port) (s : State) : (popIntake p s).phase = s.phase := by cases p <;> rfl
@[simp] theorem popIntake_resetWait (p : Port) (s : State) : (popIntake p s).resetWait = s.resetWait := by cases p <;> rfl
@[simp] theorem popIntake_motor (p : Port) (s : State) : (popIntake p s).motor = s.motor := by cases p <;> rfl
@[simp] theorem popIntake_pub (p : Port) (s : State) : (popIntake p s).pub = s.pub := by cases p <;> rfl
@[simp] theorem popIntake_demand (p : Port) (s : State) : (popIntake p s).demand = s.demand := by cases p <;> rfl
@[simp] theorem popIntake_holds (p : Port) (s : State) : (popIntake p s).holds = s.holds := by cases p <;> rfl
@[simp] theorem popIntake_throttles (p : Port) (s : State) : (popIntake p s).throttles = s.throttles := by cases p <;> rfl
@[simp] theorem popIntake_refusedLearns (p : Port) (s : State) : (popIntake p s).refusedLearns = s.refusedLearns := by cases p <;> rfl
@[simp] theorem popIntake_rateDue (p : Port) (s : State) : (popIntake p s).rateDue = s.rateDue := by cases p <;> rfl
@[simp] theorem popIntake_drive (p : Port) (s : State) : (popIntake p s).drive = s.drive := by cases p <;> rfl
@[simp] theorem popIntake_groups (p : Port) (s : State) : (popIntake p s).groups = s.groups := by cases p <;> rfl
@[simp] theorem popIntake_replies (p : Port) (s : State) : (popIntake p s).replies = s.replies := by cases p <;> rfl
@[simp] theorem popIntake_holdSeq (p : Port) (s : State) : (popIntake p s).holdSeq = s.holdSeq := by cases p <;> rfl
@[simp] theorem popIntake_switches (p : Port) (s : State) : (popIntake p s).switches = s.switches := by cases p <;> rfl
@[simp] theorem popIntake_outputs (p : Port) (s : State) : (popIntake p s).outputs = s.outputs := by cases p <;> rfl
@[simp] theorem popIntake_trips (p : Port) (s : State) : (popIntake p s).trips = s.trips := by cases p <;> rfl
@[simp] theorem popIntake_lightDemand (p : Port) (s : State) : (popIntake p s).lightDemand = s.lightDemand := by cases p <;> rfl
@[simp] theorem popIntake_sound (p : Port) (s : State) : (popIntake p s).sound = s.sound := by cases p <;> rfl
@[simp] theorem popIntake_voiceRam (p : Port) (s : State) : (popIntake p s).voiceRam = s.voiceRam := by cases p <;> rfl
@[simp] theorem popIntake_smoke (p : Port) (s : State) : (popIntake p s).smoke = s.smoke := by cases p <;> rfl
@[simp] theorem popIntake_supply (p : Port) (s : State) : (popIntake p s).supply = s.supply := by cases p <;> rfl
@[simp] theorem popIntake_beacon (p : Port) (s : State) : (popIntake p s).beacon = s.beacon := by cases p <;> rfl
@[simp] theorem popIntake_settings (p : Port) (s : State) : (popIntake p s).settings = s.settings := by cases p <;> rfl
@[simp] theorem popIntake_unsaved (p : Port) (s : State) : (popIntake p s).unsaved = s.unsaved := by cases p <;> rfl
@[simp] theorem popIntake_changedSinceCopy (p : Port) (s : State) : (popIntake p s).changedSinceCopy = s.changedSinceCopy := by cases p <;> rfl
@[simp] theorem popIntake_txn (p : Port) (s : State) : (popIntake p s).txn = s.txn := by cases p <;> rfl
@[simp] theorem popIntake_job (p : Port) (s : State) : (popIntake p s).job = s.job := by cases p <;> rfl
@[simp] theorem popIntake_image (p : Port) (s : State) : (popIntake p s).image = s.image := by cases p <;> rfl
@[simp] theorem popIntake_port (p : Port) (s : State) : (popIntake p s).port = s.port := by cases p <;> rfl
@[simp] theorem popIntake_flash (p : Port) (s : State) : (popIntake p s).flash = s.flash := by cases p <;> rfl
@[simp] theorem popIntake_faults (p : Port) (s : State) : (popIntake p s).faults = s.faults := by cases p <;> rfl
@[simp] theorem popIntake_freeCount (p : Port) (s : State) : (popIntake p s).freeCount = s.freeCount := by cases p <;> rfl
@[simp] theorem popIntake_pending (p : Port) (s : State) : (popIntake p s).pending = s.pending := by cases p <;> rfl

/-! ### requestFlash -/

@[simp] theorem requestFlash_partTime (w : Requester) (op : FlashOp) (s : State) : (requestFlash w op s).partTime = s.partTime := by unfold requestFlash; dsimp only; split <;> rfl
@[simp] theorem requestFlash_phase (w : Requester) (op : FlashOp) (s : State) : (requestFlash w op s).phase = s.phase := by unfold requestFlash; dsimp only; split <;> rfl
@[simp] theorem requestFlash_resetWait (w : Requester) (op : FlashOp) (s : State) : (requestFlash w op s).resetWait = s.resetWait := by unfold requestFlash; dsimp only; split <;> rfl
@[simp] theorem requestFlash_motor (w : Requester) (op : FlashOp) (s : State) : (requestFlash w op s).motor = s.motor := by unfold requestFlash; dsimp only; split <;> rfl
@[simp] theorem requestFlash_pub (w : Requester) (op : FlashOp) (s : State) : (requestFlash w op s).pub = s.pub := by unfold requestFlash; dsimp only; split <;> rfl
@[simp] theorem requestFlash_demand (w : Requester) (op : FlashOp) (s : State) : (requestFlash w op s).demand = s.demand := by unfold requestFlash; dsimp only; split <;> rfl
@[simp] theorem requestFlash_holds (w : Requester) (op : FlashOp) (s : State) : (requestFlash w op s).holds = s.holds := by unfold requestFlash; dsimp only; split <;> rfl
@[simp] theorem requestFlash_throttles (w : Requester) (op : FlashOp) (s : State) : (requestFlash w op s).throttles = s.throttles := by unfold requestFlash; dsimp only; split <;> rfl
@[simp] theorem requestFlash_refusedLearns (w : Requester) (op : FlashOp) (s : State) : (requestFlash w op s).refusedLearns = s.refusedLearns := by unfold requestFlash; dsimp only; split <;> rfl
@[simp] theorem requestFlash_rateDue (w : Requester) (op : FlashOp) (s : State) : (requestFlash w op s).rateDue = s.rateDue := by unfold requestFlash; dsimp only; split <;> rfl
@[simp] theorem requestFlash_drive (w : Requester) (op : FlashOp) (s : State) : (requestFlash w op s).drive = s.drive := by unfold requestFlash; dsimp only; split <;> rfl
@[simp] theorem requestFlash_groups (w : Requester) (op : FlashOp) (s : State) : (requestFlash w op s).groups = s.groups := by unfold requestFlash; dsimp only; split <;> rfl
@[simp] theorem requestFlash_radio (w : Requester) (op : FlashOp) (s : State) : (requestFlash w op s).radio = s.radio := by unfold requestFlash; dsimp only; split <;> rfl
@[simp] theorem requestFlash_localLine (w : Requester) (op : FlashOp) (s : State) : (requestFlash w op s).localLine = s.localLine := by unfold requestFlash; dsimp only; split <;> rfl
@[simp] theorem requestFlash_replies (w : Requester) (op : FlashOp) (s : State) : (requestFlash w op s).replies = s.replies := by unfold requestFlash; dsimp only; split <;> rfl
@[simp] theorem requestFlash_holdSeq (w : Requester) (op : FlashOp) (s : State) : (requestFlash w op s).holdSeq = s.holdSeq := by unfold requestFlash; dsimp only; split <;> rfl
@[simp] theorem requestFlash_switches (w : Requester) (op : FlashOp) (s : State) : (requestFlash w op s).switches = s.switches := by unfold requestFlash; dsimp only; split <;> rfl
@[simp] theorem requestFlash_outputs (w : Requester) (op : FlashOp) (s : State) : (requestFlash w op s).outputs = s.outputs := by unfold requestFlash; dsimp only; split <;> rfl
@[simp] theorem requestFlash_trips (w : Requester) (op : FlashOp) (s : State) : (requestFlash w op s).trips = s.trips := by unfold requestFlash; dsimp only; split <;> rfl
@[simp] theorem requestFlash_lightDemand (w : Requester) (op : FlashOp) (s : State) : (requestFlash w op s).lightDemand = s.lightDemand := by unfold requestFlash; dsimp only; split <;> rfl
@[simp] theorem requestFlash_sound (w : Requester) (op : FlashOp) (s : State) : (requestFlash w op s).sound = s.sound := by unfold requestFlash; dsimp only; split <;> rfl
@[simp] theorem requestFlash_voiceRam (w : Requester) (op : FlashOp) (s : State) : (requestFlash w op s).voiceRam = s.voiceRam := by unfold requestFlash; dsimp only; split <;> rfl
@[simp] theorem requestFlash_smoke (w : Requester) (op : FlashOp) (s : State) : (requestFlash w op s).smoke = s.smoke := by unfold requestFlash; dsimp only; split <;> rfl
@[simp] theorem requestFlash_supply (w : Requester) (op : FlashOp) (s : State) : (requestFlash w op s).supply = s.supply := by unfold requestFlash; dsimp only; split <;> rfl
@[simp] theorem requestFlash_beacon (w : Requester) (op : FlashOp) (s : State) : (requestFlash w op s).beacon = s.beacon := by unfold requestFlash; dsimp only; split <;> rfl
@[simp] theorem requestFlash_settings (w : Requester) (op : FlashOp) (s : State) : (requestFlash w op s).settings = s.settings := by unfold requestFlash; dsimp only; split <;> rfl
@[simp] theorem requestFlash_unsaved (w : Requester) (op : FlashOp) (s : State) : (requestFlash w op s).unsaved = s.unsaved := by unfold requestFlash; dsimp only; split <;> rfl
@[simp] theorem requestFlash_changedSinceCopy (w : Requester) (op : FlashOp) (s : State) : (requestFlash w op s).changedSinceCopy = s.changedSinceCopy := by unfold requestFlash; dsimp only; split <;> rfl
@[simp] theorem requestFlash_txn (w : Requester) (op : FlashOp) (s : State) : (requestFlash w op s).txn = s.txn := by unfold requestFlash; dsimp only; split <;> rfl
@[simp] theorem requestFlash_job (w : Requester) (op : FlashOp) (s : State) : (requestFlash w op s).job = s.job := by unfold requestFlash; dsimp only; split <;> rfl
@[simp] theorem requestFlash_image (w : Requester) (op : FlashOp) (s : State) : (requestFlash w op s).image = s.image := by unfold requestFlash; dsimp only; split <;> rfl
@[simp] theorem requestFlash_flash (w : Requester) (op : FlashOp) (s : State) : (requestFlash w op s).flash = s.flash := by unfold requestFlash; dsimp only; split <;> rfl
@[simp] theorem requestFlash_faults (w : Requester) (op : FlashOp) (s : State) : (requestFlash w op s).faults = s.faults := by unfold requestFlash; dsimp only; split <;> rfl
@[simp] theorem requestFlash_freeCount (w : Requester) (op : FlashOp) (s : State) : (requestFlash w op s).freeCount = s.freeCount := by unfold requestFlash; dsimp only; split <;> rfl
@[simp] theorem requestFlash_pending (w : Requester) (op : FlashOp) (s : State) : (requestFlash w op s).pending = s.pending := by unfold requestFlash; dsimp only; split <;> rfl

theorem portState_setPort_same (p : Port) (ps : PortState) (s : State) : portState (setPort p ps s) p = ps := by
  cases p <;> rfl

theorem portState_setPort_other (p q : Port) (ps : PortState) (s : State) (h : q ≠ p) :
    portState (setPort p ps s) q = portState s q := by
  cases p <;> cases q <;> first | rfl | exact absurd rfl h

end Sys2Proof.Machine
end

