-- ==== Sys2Proof/Laws/Requests.lean ====
section
/-! SUPPORT. A request that has reached dispatch: what its row answers, as one equation. -/

namespace Sys2Proof.Machine

theorem nextTaken_port {s : State} {which : Port} {f : Frame} (h : nextTaken s = some (which, f)) :
    (portState s which).intake.head? = some f := by
  unfold nextTaken at h
  split at h
  · cases h
  · split at h
    · cases h; rename_i hl; simp only [portState, hl, List.head?_cons]
    · cases h; rename_i _ hr; simp only [portState, hr, List.head?_cons]
    · cases h

theorem frontRequest_eq {s : State} {which : Port} {f : Frame} {m : Mark} (hn : nextTaken s = some (which, f))
    (hs : screen s which f = .matched m) (wanted : Frame → Bool) (hw : wanted f = true) :
    frontRequest wanted s = some (which, f, m) := by
  unfold frontRequest
  rw [hn]
  dsimp only
  rw [hs]
  dsimp only
  rw [if_pos hw]

/-- A dispatched request is decided by its owner in the state the Throttle Table left, and answered. -/
theorem takeRequest_dispatched {s t : State} {f : Frame} {m : Mark} {src : Source} (h : Dispatched s f m src t)
    (wanted : Frame → Bool) (act : Asked → State → Answer × State) (hw : wanted f = true) :
    takeRequest wanted act s = replied s f m src (act { frame := f, mark := m, src := src } t) := by
  obtain ⟨which, hn, hs, h⟩ := h
  unfold takeRequest
  rw [frontRequest_eq hn hs wanted hw]
  cases which with
  | localLine =>
    obtain ⟨rfl, rfl⟩ := h
    rfl
  | radio =>
    obtain ⟨_, i, rfl, hp⟩ := h
    unfold handle
    dsimp only
    rw [hp]
    rfl

/-- A frame that is not all-called and was matched on a port marks its sender's address. -/
theorem screen_local_mark {s : State} {f : Frame} {m : Mark} (h : screen s .localLine f = .matched m) : m ≠ .allCall := by
  unfold screen at h
  split at h
  · cases h
  · split at h
    · cases h
    · split at h
      · cases h
      · split at h
        · rename_i hm
          cases h
          unfold matchMark at hm
          split at hm
          · cases hm; decide
          · split at hm
            · cases hm; decide
            · split at hm
              · cases hm; decide
              · cases hm
        · cases h

/-- A reply touches the reply queue and the counters of the two ports, and nothing else. -/
theorem queueReply_sameButReplies (f : OutFrame) (s : State) : sameButReplies s (queueReply f s) := by
  unfold queueReply sameButReplies
  split
  · rfl
  · cases f.port <;> rfl

theorem replied_sameButReplies (s : State) (f : Frame) (m : Mark) (src : Source) (r : Answer × State) :
    sameButReplies r.2 (replied s f m src r) := by
  unfold replied replyIf
  split
  · exact queueReply_sameButReplies _ _
  · rfl

end Sys2Proof.Machine
end

