-- ==== Sys2Proof/WellFormed.lean ====
section
/-! DEFINITION. Which commands are commands of this part: sensor readings in the ranges their rules give,
indices that name something the part has. -/

namespace Sys2Proof

/-- Readings of a control period: C lies in 0..8190 mA and M in 0..4095 su (R3). -/
def controlReadings (current backEmf : Nat) : Bool := current ≤ 8190 && backEmf ≤ 4095

/-- Readings of a budget period: Vt lies in 0..30000 mV and Vs in 0..20000 mV (R144). -/
def supplyReadings (trackMv storeMv : Nat) : Bool := trackMv ≤ 30000 && storeMv ≤ 20000

/-- A command the part can be given. -/
def Instr.wellFormed : Instr → Bool
  | .settingsLoadComplete _ vt vs => supplyReadings vt vs
  | .frameReceived _ body _ => body.length < 256
  | .silenceLimit i => i < 16
  | .forgetTime i => i < 16
  | .reservationExpiry i => i < 16
  | .controlPeriod c m => controlReadings c m
  | .checkComplete c m => controlReadings c m
  | .motorShort c => 7500 ≤ c && c ≤ 8190
  | .motorStall c m => controlReadings c m
  | .motorOpen c m => controlReadings c m
  | .capDistanceExpiry c m => controlReadings c m
  | .budgetPeriod vt vs => supplyReadings vt vs
  | .rideLimit vt vs => supplyReadings vt vs
  | .restore vt vs => supplyReadings vt vs
  | .park vt vs => supplyReadings vt vs
  | .groupRetry g => g < 2
  | .momentaryExpiry sw => sw < 32
  | .envelopeStep v => v < 6
  | .powerOnReset | .softReset | .byteGapTimeout _ | .claim | .release | .drive | .func | .stop
  | .resume | .consist | .cfgOpen | .cfgData | .cfgClose | .cfgTimeout | .save | .saveEraseComplete _
  | .saveWriteComplete _ | .bankWriteComplete _ | .queryStatus | .queryThrottles | .queryCounters
  | .queryFaults | .queryCheckResult | .queryLearnResult | .querySound | .queryFunctions | .check
  | .clearFaults | .presence | .learn | .outputLocal | .reset | .consistHold | .replySendStart _
  | .replySent _ | .rateInterval | .faultRetry | .camInputChange _ | .camChuff | .dwellExpiry
  | .outputPeriod _ _ | .sampleEvent | .volumeStep | .voiceReadComplete _ | .directoryReadComplete _
  | .flashRequestStart | .smokePeriod _ | .puffEnd | .fanStop | .burstBegin _ | .burstEnd _
  | .captureQuiet _ | .learnExpiry | .byteArrival _ _ | .discardedFrame | .unknownKind
  | .runFinished _ => true

end Sys2Proof
end

