-- ==== Sys2Proof/Tests/Slice0.lean ====
section
/-! SUPPORT. Tests: the checks of WellFormed, the spec's worked values, and for each obligation with
hypotheses a state and operands that meet them, clause by clause. -/

namespace Sys2Proof.Tests

open Sys2Proof Sys2Proof.Machine

set_option Elab.async false

/-! ### Ill-formed commands -/

theorem test_wf_load_track : Instr.wellFormed (.settingsLoadComplete true 30001 0) = false := by decide
theorem test_wf_load_store : Instr.wellFormed (.settingsLoadComplete true 0 20001) = false := by decide
theorem test_wf_frame : Instr.wellFormed (.frameReceived .radio (List.replicate 256 0) 0) = false := by decide +kernel
theorem test_wf_silence : Instr.wellFormed (.silenceLimit 16) = false := by decide
theorem test_wf_forget : Instr.wellFormed (.forgetTime 16) = false := by decide
theorem test_wf_reservation : Instr.wellFormed (.reservationExpiry 16) = false := by decide
theorem test_wf_control_current : Instr.wellFormed (.controlPeriod 8191 0) = false := by decide
theorem test_wf_control_emf : Instr.wellFormed (.controlPeriod 0 4096) = false := by decide
theorem test_wf_check_complete : Instr.wellFormed (.checkComplete 8191 0) = false := by decide
theorem test_wf_short_low : Instr.wellFormed (.motorShort 7499) = false := by decide
theorem test_wf_short_high : Instr.wellFormed (.motorShort 8191) = false := by decide
theorem test_wf_stall : Instr.wellFormed (.motorStall 0 4096) = false := by decide
theorem test_wf_open : Instr.wellFormed (.motorOpen 8191 0) = false := by decide
theorem test_wf_cap : Instr.wellFormed (.capDistanceExpiry 0 4096) = false := by decide
theorem test_wf_budget : Instr.wellFormed (.budgetPeriod 30001 0) = false := by decide
theorem test_wf_ride : Instr.wellFormed (.rideLimit 0 20001) = false := by decide
theorem test_wf_restore : Instr.wellFormed (.restore 30001 0) = false := by decide
theorem test_wf_park : Instr.wellFormed (.park 0 20001) = false := by decide
theorem test_wf_group : Instr.wellFormed (.groupRetry 2) = false := by decide
theorem test_wf_switch : Instr.wellFormed (.momentaryExpiry 32) = false := by decide
theorem test_wf_voice : Instr.wellFormed (.envelopeStep 6) = false := by decide
theorem test_wf_edges : (Instr.wellFormed (.controlPeriod 8190 4095) && Instr.wellFormed (.budgetPeriod 30000 20000)
    && Instr.wellFormed (.motorShort 7500) && Instr.wellFormed (.silenceLimit 15) && Instr.wellFormed (.envelopeStep 5)) = true := by
  decide

/-! ### Helpers -/

/-- A running part with factory settings, an idle Flash Port and its directory read done. -/
def base : State :=
  { State.reset with
    phase := .running, port := { waiting := [], busy := none },
    sound := { resetSound with mode := .normal, dirPending := false } }

/-- The state a command leaves. -/
def after (c : Instr) (s : State) : State :=
  match exec c s with
  | .next t => t
  | _ => s

/-- A command answers a next state, the one it leaves. -/
def answers (c : Instr) (s : State) : Bool :=
  match exec c s with
  | .next _ => true
  | _ => false

theorem exec_of_answers {c : Instr} {s : State} (h : answers c s = true) : exec c s = .next (after c s) := by
  unfold answers after at *
  split at h <;> simp_all

/-- A queue of commands run in order. -/
def run (cs : List Instr) (s : State) : State := cs.foldl (fun s c => after c s) s

def bytes (l : List Nat) : List Byte := l.map (BitVec.ofNat 8)

/-- Lay bytes over the live settings. -/
def withSettings (i : Nat) (l : List Nat) (s : State) : State := { s with settings := overlay s.settings i (bytes l) }

/-- A request frame of throttle id 7, layout 255, path 0, sequence 1. -/
def request (dest kind : Nat) (payload : List Nat) : Frame :=
  { body := sealBody (bytes [255, 0] ++ le2 dest ++ le4 7 ++ bytes [1, kind] ++ bytes payload), quality := 200 }

def onLocal (f : Frame) (s : State) : State := { s with localLine := { s.localLine with intake := [f] } }
def onRadio (f : Frame) (s : State) : State := { s with radio := { s.radio with intake := [f] } }

/-- An own-addressed request from throttle 7, and one from the local master. -/
def air (kind : Nat) (payload : List Nat) (s : State) : State := onRadio (request 3 kind payload) s
def wired (kind : Nat) (payload : List Nat) (s : State) : State := onLocal (request 3 kind payload) s

/-- An ACTIVE throttle entry. -/
def someThrottle (id : ThrottleId) : ThrottleEntry :=
  { id := id, lostSince := none, lastSeq := 0, lastHeard := 0, path := 0, quality := 200, intervalCount := 0, dropCount := 0 }

/-- Throttle 7 is entry 0; throttle 8 is entry 1. -/
def known : State := { base with throttles := (base.throttles.set 0 (some (someThrottle 7))).set 1 (some (someThrottle 8)) }

/-- A DRIVE claim with given mode and holders. -/
def claimed (m : DriveMode) (hs : List HolderItem) (s : State) : State :=
  { s with drive := { mode := m, holders := hs, generation := 40 } }

/-- Throttle 7 holds DRIVE EXCLUSIVE. -/
def held : State := claimed .exclusive [activeItem (.throttle 0)] known

/-- LOCAL holds DRIVE EXCLUSIVE. -/
def heldLocal : State := claimed .exclusive [activeItem .localMaster] known

/-- The result code of the STATUS at the end of the reply queue. -/
def resultCode (s : State) : Nat :=
  match s.replies.getLast? with
  | some f => byteAt f.body 10
  | none => 999

/-- A BEACON STOP entry in a phase. -/
def beaconStop (ph : StopPhase) (e : Expiry) (rev : Bool) : Hold :=
  { plainStop .beacon (.rate 405) with phase := some ph, expiry := e, dwell := some 30, reverseAtEnd := rev, origin := some .own }

/-- A BEACON CAP entry. -/
def beaconCap (v : Nat) (e : Expiry) : Hold :=
  { plainStop .beacon .normal with kind := .cap, capValue := v, expiry := e, origin := some .own }

/-- The speed table and trim of the worked case of section 1.10, target step 137. -/
def chapter1 : State :=
  let s := withSettings 54 [140] (withSettings 32 ((List.range 11).flatMap (fun k => [300 * k % 256, 300 * k / 256])) base)
  { s with demand := { s.demand with step := 137 } }

/-- The state of the worked case of section 1.10. -/
def rolling : State :=
  { chapter1 with
    motor := { resetMotor with R := 1798, Mf := 1750, I := 5120, Da := 400, state := .running }
    pub := { resetPublished with R := 1798, Mf := 1750, Da := 400, phase := .cruising, motorState := .running } }

/-! ### Worked values of the spec -/

/-- R80: the check value of the CRC. -/
theorem test_crc : crc (bytes [0x31, 0x32, 0x33, 0x34, 0x35, 0x36, 0x37, 0x38, 0x39]) = 0x29B1#16 := by decide +kernel

/-- R4's two examples, and a segment that falls. -/
theorem test_step_speed : stepSpeed chapter1 137 = 1644 ∧ stepSpeed (withSettings 44 [1190 % 256, 1190 / 256] chapter1) 137 = 1352 := by
  decide +kernel

/-- Section 1.10, every quantity of the table. -/
theorem test_control_period :
    (let t := after (.controlPeriod 900 1750) rolling
     sEff rolling = 1798 ∧ t.motor.R = 1798 ∧ t.motor.Mf = 1750 ∧ t.motor.I = 5504 ∧ t.motor.Da = 471 ∧ t.motor.labour = 33 ∧
       t.motor.cap = 1023 ∧ t.pub.phase = .cruising ∧ t.motor.chuffAcc = 1750 ∧ t.motor.odometer = 1750) := by
  decide +kernel

/-- Section 1.10: the accumulator runs 1750, 3500, then 1250 with a chuff. -/
theorem test_chuff_step : chuffStep 4000 3500 1750 = (1250, true) ∧ chuffStep 4000 1750 1750 = (3500, false) := by decide

/-- R22: with span 100 and Mf 250 the accumulator is left at 99. -/
theorem test_chuff_floor : chuffStep 100 0 250 = (99, true) := by decide

/-- Section 1.5's ramp: R of periods 1 to 3, and of the braked periods 241 to 243. -/
theorem test_ramp :
    (let m := rampUp 600 250 { resetMotor with R := 0 }
     let m2 := rampUp 600 250 m
     (m.R, m.rising) = (2, 50) ∧ (m2.R, m2.rising) = (5, 0) ∧ (rampUp 600 250 m2).R = 7) ∧
    (let m := rampDown 0 1500 { resetMotor with R := 600 }
     let m2 := rampDown 0 1500 m
     m.R = 585 ∧ m2.R = 570 ∧ (rampDown 0 400 m2).R = 566) := by decide

/-- Section 1.7: the third short within 10 s latches, and one at 60100 would not. -/
theorem test_shorts :
    (let s (now : Time) : State := { base with partTime := now, motor := { resetMotor with Da := 300, state := .running, shorts := [50000, 51300] } }
     ((after (.motorShort 7500) (s 52450)).motor.fault = some { kind := .motorShort, retry := none }) ∧
     ((after (.motorShort 7500) (s 60100)).motor.fault = some { kind := .motorShort, retry := some 61100 })) := by
  decide +kernel

/-- Section 1.8's check: 1402, 1398 and 1410 mA at 18000 mV give 321. -/
theorem test_check_estimate : checkEstimate 18000 [1402, 1398, 1410] = 321 := by decide

/-- R38: δ = 405 from R = 1798 and d = 400000; the shuttle's 29160 is clamped to 4000. -/
theorem test_stop_decel : stopDecel 1798 400000 = .rate 405 ∧ stopDecel 1080 2000 = .rate 4000 ∧ stopDecel 0 400000 = .instant := by
  decide

/-- Section 7.6: two voices into the output. -/
theorem test_mix : contribution 12000 200 230 256 = 8422 ∧ contribution (-9000) 255 255 128 = -4464 ∧ mixed 3958 192 = 2968 ∧
    mixed 60000 192 = 32767 := by decide

/-- Section 8.8: a chuff at part time 400000 with L = 33, and at 400200 with L = 120. -/
theorem test_puff :
    (let s (now : Time) (l : Int) : State := { base with partTime := now, pub := { resetPublished with L := l }, smoke := { resetSmoke with state := .ready } }
     (smokeChuff (s 400000 33)).smoke.puffEnd = some 400079 ∧ (smokeChuff (s 400200 120)).smoke.puffEnd = some 400320) := by
  decide +kernel

/-- Section 9.6: the grants of the rows 499990, 500000 and 501500. -/
theorem test_grants :
    (let s (st : SupplyState) (c hd : Nat) : State :=
       { base with supply := { resetSupply with state := st, vt := 15000, vs := 14200 }, lightDemand := 220, pub := { resetPublished with C := c }, smoke := { resetSmoke with demand := hd } }
     computeGrants (s .track 2400 320) = { lights := 220, sound := 225, heater := 250, charging := 1000, dim := 256, volumeCap := 255, heaterCap := 1023, charge := 1000 } ∧
     computeGrants (s .ride 2400 0) = { lights := 220, sound := 225, heater := 0, charging := 0, dim := 128, volumeCap := 128, heaterCap := 0, charge := 0 } ∧
     computeGrants (s .ride 2900 0) = { lights := 100, sound := 0, heater := 0, charging := 0, dim := 116, volumeCap := 0, heaterCap := 0, charge := 0 }) := by
  decide +kernel

/-- A run of the envelope line, in eighths. -/
def lineOf (runs : List (Level × Nat)) : List Level := runs.flatMap (fun r => List.replicate r.2 r.1)

/-- R156: one eighth of the other level is absorbed into the run on either side of it, and two end the run. -/
theorem test_one_eighth :
    (let s := after (.runFinished (lineOf [(.low, 4), (.high, 240), (.low, 1), (.high, 39)])) base
     let t := after (.runFinished (lineOf [(.low, 2)])) s
     (s.beacon.runLevel, s.beacon.runLen, s.beacon.capture.length) = (.high, 280, 0) ∧ t.beacon.capture = [{ level := .high, width := 35 }]) := by
  decide +kernel

/-- Section 10.7: the widths of the teaching pattern and of burst 1, and a glitch of 4 eighths. -/
theorem test_widths : [240, 80, 40, 251, 85, 44, 4].map entryWidth = [30, 10, 5, 31, 11, 6, 0] := by decide

/-- Section 4.6's hand-over, row by row: B is refused, A's claim changes nothing, A releases, B joins. -/
theorem test_hand_over :
    (let a := claimed .exclusive [activeItem (.throttle 2)] base
     let free := (releaseTaken 0 (.throttle 2) a).2
     let shared := (claimTaken 0 1 false false (.throttle 2) free).2
     let both := (claimTaken 0 1 false false (.throttle 6) shared).2
     (claimTaken 0 1 false false (.throttle 6) a).1 = .claimHeld ∧ (claimTaken 0 1 false false (.throttle 2) a).2.drive = a.drive ∧
       (free.drive.mode, free.drive.generation) = (.free, 41) ∧ (shared.drive.mode, shared.drive.generation) = (.shared, 42) ∧
       both.drive.holders.map (·.source) = [.throttle 2, .throttle 6] ∧ both.drive.generation = 43 ∧
       (driveTaken .own 43 60 0 (.throttle 6) both).2.drive.generation = 44 ∧
       (driveTaken .own 43 110 0 (.throttle 2) (driveTaken .own 43 60 0 (.throttle 6) both).2).1 = .stale) := by
  decide +kernel

/-- Section 3.7: silence, and the reservation's end, which forgets the entry. -/
theorem test_silence :
    (let s := withSettings 11 [30] (withSettings 12 [3] held)
     let lost := after (.silenceLimit 0) { s with partTime := 8000 }
     let gone := after (.reservationExpiry 0) { lost with partTime := 38000 }
     lost.drive.holders = [{ source := .throttle 0, until_ := some 38000 }] ∧ lost.holds.map (·.source) = [.radioLoss] ∧
       after (.forgetTime 0) { lost with partTime := 30000 } = { lost with partTime := 30000 } ∧
       gone.drive.mode = .free ∧ entry gone 0 = none ∧ gone.holds.map (·.source) = [.radioLoss]) := by
  decide +kernel

/-- Section 3.2: with a full table the LOST entry heard longest ago that no claim names is evicted. -/
theorem test_eviction :
    (let lost (t : Time) : Option ThrottleEntry := some { someThrottle 1 with lostSince := some t, lastHeard := t }
     let s : State := { base with partTime := 90000, throttles := (((List.replicate 16 (some (someThrottle 1))).set 4 (lost 50000)).set 9 (lost 62000)).set 12 (lost 71000),
                                  groups := base.groups.set 1 (some { source := .throttle 4, until_ := some 95000 }) }
     evictionChoice s = some 9) := by
  decide +kernel

/-- Section 11.2: the clamped write of P[6] = 4200 changes two bytes, and is answered CLAMPED. -/
theorem test_close_clamped :
    (let s := { held with txn := { resetTxn with state := .openWrite, opener := .throttle 0, start := 42, count := 4,
                                                 staged := (bytes [0xDC, 0x05, 0x68, 0x10]).map some } }
     let t := after .cfgClose (air 0x12 [] s)
     resultCode t = 1 ∧ speedPoint t 5 = 1500 ∧ speedPoint t 6 = 4000 ∧ t.unsaved = true ∧ t.txn.state = .closed ∧
       (t.replies.map (fun f => byteAt f.body 28)) = [2]) := by
  decide +kernel

/-- Section 5.9: the local frame is taken first, a repeat draws no reply, a corrupted frame is counted. -/
theorem test_both_ports :
    (let a := request 3 3 [40, 0, 60, 0]
     let s := { held with radio := { resetPort with intake := [a, a, { a with body := a.body.set 3 9 }] }, localLine := { resetPort with intake := [request 0 0x20 [2, 0]] } }
     let q := after .queryCounters s
     let d := run [.drive, .drive] q
     let c := after .discardedFrame d
     (q.localLine.intake, q.replies.length) = ([], 1) ∧ (d.replies.length, d.drive.generation, d.radio.intake.length) = (2, 41, 1) ∧
       (c.radio.intake, c.radio.counters.crcErrors) = ([], 1)) := by
  decide +kernel

/-- Section 6.5: a fading headlight after 1 and after 20 output periods, and the light demand of 120 mA. -/
theorem test_headlight :
    (let s := withSettings 160 [3, 200, 1 + 16 + 64, 20, 12, 10, 96, 40] { base with supply := { resetSupply with grants := { resetSupply.grants with dim := 256 } } }
     let one := after (.outputPeriod 0 0) s
     let all := run (List.replicate 20 (.outputPeriod 0 0)) s
     (one.outputs.map (·.final)).head? = some 10 ∧ one.lightDemand = 120 ∧ (all.outputs.map (·.final)).head? = some 200) := by
  decide +kernel

/-- R178: a part whose start-up read fails starts with two reports, QUIET until the directory read. -/
theorem test_start_up :
    (let t := after (.settingsLoadComplete false 15000 15000) State.reset
     t.unsaved = true ∧ activeFaults t = 128 + 256 ∧ t.supply.state = .track ∧ t.sound.mode = .quiet ∧
       (after (.directoryReadComplete true) t).sound.dirPending = false) := by
  decide +kernel

/-! ### Hypotheses met: the machine -/

/-- The frame in front of the intake queues. -/
def front (s : State) : Frame :=
  match nextTaken s with
  | some (_, f) => f
  | none => { body := [], quality := 0 }

/-- The state in which the owner of the front request decides it. -/
def decided (s : State) : State :=
  match nextTaken s with
  | some (.radio, f) => (present f (popIntake .radio s)).2
  | _ => popIntake .localLine s

/-- The front request has mark `m` and comes from `src`. -/
def arrived (s : State) (m : Mark) (src : Source) : Bool :=
  match nextTaken s, src with
  | some (.localLine, f), .localMaster => screen s .localLine f == .matched m
  | some (.radio, f), .throttle i =>
    screen s .radio f == .matched m && m != .allCall && (present f (popIntake .radio s)).1 == .taken i
  | _, _ => false

theorem dispatched_of_arrived {s : State} {m : Mark} {src : Source} (h : arrived s m src = true) :
    Dispatched s (front s) m src (decided s) := by
  unfold arrived at h
  split at h
  · rename_i f hn
    refine ⟨.localLine, ?_, ?_, rfl, ?_⟩
    · simp [front, hn]
    · simpa [front, hn] using h
    · simp [decided, hn]
  · rename_i f i hn
    simp only [Bool.and_eq_true, beq_iff_eq, bne_iff_ne] at h
    refine ⟨.radio, ?_, ?_, h.1.2, i, rfl, ?_⟩
    · simp [front, hn]
    · simpa [front, hn] using h.1.1
    · simp only [front, decided, hn]
      exact Prod.ext h.2 rfl
  · cases h

/-- A request from `src` has arrived, and its frame and the state that decides it satisfy `P`. -/
def Meets (s : State) (m : Mark) (src : Source) (P : Frame → State → Prop) : Prop :=
  Dispatched s (front s) m src (decided s) ∧ P (front s) (decided s)

theorem meets {s : State} {m : Mark} {src : Source} {P : Frame → State → Prop} (h : arrived s m src = true)
    (hp : P (front s) (decided s)) : Meets s m src P := ⟨dispatched_of_arrived h, hp⟩

/-- A part in use: a claim, a hold, a staged byte, a listed flash cell, a frame that waits, a command queued. -/
def busy : State :=
  { wired 1 [0, 0, 0] held with
    holds := [plainStop .emergency .instant, beaconCap 50 .absent]
    flash := [(0, 0#8), (4096, 1#8)]
    txn := { resetTxn with state := .openWrite, opener := .throttle 0, start := 700, count := 2, staged := [some 1, none] }
    pending := [.controlPeriod 900 40]
    motor := { resetMotor with R := 300, Da := 100, state := .running } }

theorem test_meets_StepKeepsClaimsSound : ClaimsSound busy ∧ ∃ t, step busy = .next t :=
  ⟨{ shape := by decide +kernel, distinct := by decide +kernel, generation := by decide +kernel,
     present := by
       intro i h
       have hd : busy.drive.holders = [activeItem (.throttle 0)] := rfl
       have hg : busy.groups = [none, none, none, none] := rfl
       have hi : 0 = i := by simpa [namedByClaim, hd, hg, activeItem] using h
       subst hi; decide +kernel
     table := by decide +kernel, groups := by decide +kernel }, _, rfl⟩

theorem test_meets_StepKeepsMemoriesAndSettings : (MemoriesCanonical busy ∧ SettingsSound busy) ∧ ∃ t, step busy = .next t :=
  ⟨⟨⟨by decide +kernel, by decide +kernel⟩,
    ⟨by decide +kernel, by decide +kernel, by decide +kernel, by decide +kernel⟩⟩, _, rfl⟩

theorem test_meets_StepKeepsQueuesSound : QueuesSound busy ∧ ∃ t, step busy = .next t :=
  ⟨⟨by decide +kernel, by decide +kernel, by decide +kernel, by decide +kernel, by decide +kernel,
    by unfold ReceiverSound; decide +kernel, by unfold ReceiverSound; decide +kernel, by decide +kernel⟩, _, rfl⟩

/-- A page write in progress for a BANK job, with a voice's request behind it. -/
def writingPage : State :=
  { base with
    job := .bank, sound := { base.sound with mode := .quiet }
    port := { busy := some ({ who := .store, op := .writePage 3 [1], entered := 0 }, false)
              waiting := [{ who := .voice 2, op := .read 9000 200, entered := 0 }] }
    pending := [.bankWriteComplete true] }

theorem test_port_busy : PortSound busy :=
  ⟨by decide +kernel, by decide +kernel, by decide +kernel, by decide +kernel, by decide +kernel, by decide +kernel⟩

theorem test_port_writing : PortSound writingPage :=
  ⟨by decide +kernel, by decide +kernel, by decide +kernel, by decide +kernel, by decide +kernel, by decide +kernel⟩

theorem test_port_reset : PortSound State.reset :=
  ⟨by decide +kernel, by decide +kernel, by decide +kernel, by decide +kernel, by decide +kernel, by decide +kernel⟩

theorem test_meets_StepKeepsMotionSound : MotionSound busy ∧ SettingsSound busy ∧ PortSound busy ∧ ∃ t, step busy = .next t :=
  ⟨⟨by unfold HoldsDistinct; decide +kernel, by unfold IsMember; decide +kernel, by unfold IsMember; decide +kernel,
    by decide +kernel, by decide +kernel⟩,
    ⟨by decide +kernel, by decide +kernel, by decide +kernel, by decide +kernel⟩, test_port_busy, _, rfl⟩

theorem test_meets_StepKeepsMotorSound : MotorSound busy ∧ ∃ t, step busy = .next t :=
  ⟨⟨by decide +kernel, by decide +kernel, by decide +kernel, by decide +kernel, by decide +kernel, by decide +kernel, by decide +kernel,
    by decide +kernel⟩, _, rfl⟩

/-! Voices on their partitions. -/

/-- Two voices that are not IDLE lie on partitions apart. -/
def partitionsApart (s : State) : Bool :=
  (List.range 6).all (fun v => (List.range 6).all (fun w =>
    v == w || (match (voice s v).part, (voice s w).part with
      | some p, some q => (voice s v).state == .idle || (voice s w).state == .idle
          || decide (p.start + p.size ≤ q.start) || decide (q.start + q.size ≤ p.start)
      | _, _ => true)))

theorem voicesSound_of {s : State} (six : s.sound.voices.length = 6)
    (idle : ∀ vo ∈ s.sound.voices, vo.state = .idle → vo.part = none) (apart : partitionsApart s = true)
    (mode : s.sound.mode = .quiet ↔ s.supply.state = .parked ∨ s.supply.state = .dark ∨
      (s.txn.state ≠ .closed ∧ s.txn.target = .bank) ∨ s.job ≠ .none ∨ s.sound.dirPending = true) : VoicesSound s where
  six := six
  idle := idle
  mode := mode
  disjoint := by
    intro v w a b p q hvw ha hb hai hbi hp hq
    have hv : v < 6 := six ▸ (List.getElem?_eq_some_iff.mp ha).1
    have hw : w < 6 := six ▸ (List.getElem?_eq_some_iff.mp hb).1
    have h := List.all_eq_true.mp (List.all_eq_true.mp apart v (List.mem_range.mpr hv)) w (List.mem_range.mpr hw)
    have eva : voice s v = a := by simp [voice, ha]
    have ewb : voice s w = b := by simp [voice, hb]
    simp only [eva, ewb, hp, hq] at h
    simpa [hvw, hai, hbi, or_assoc] using h

/-- A short clip, a long one that loops, and a looping one that fits a single buffer. -/
def hiss : Clip := { id := 1, addr := 4500, len := 2, gain := 255, loop := none, variant := 0 }
def rumble : Clip := { id := 2, addr := 100000, len := 4000, gain := 255, loop := some (0, 3000), variant := 0 }
def chime : Clip := { id := 3, addr := 9000, len := 200, gain := 255, loop := some (10, 100), variant := 0 }

/-- The factory partitions of voices 0 and 2. -/
def single : Partition := { start := 0, size := 12, dbl := false }
def double : Partition := { start := 24, size := 10, dbl := true }

/-- A voice that plays a clip for a cue. -/
def sounding (st : VoiceState) (c : Nat) (cl : Clip) (p : Partition) (pos : Nat) : Voice :=
  { resetVoice with state := st, cue := some c, clip := some cl, part := some p, pos := pos, env := 256, passes := 1 }

/-- A part with three clips; cue 4 is resumable, of priority 2, and loops clip 3. -/
def stage : State :=
  withSettings (256 + 24) [2 + 8, 255, 3, 3, 255, 3]
    { base with sound := { base.sound with directory := [hiss, rumble, chime], master := 256 } }

/-- Put a voice's record on the stage. -/
def withVoice (v : Nat) (vo : Voice) (s : State) : State := setVoice v vo s

/-- Voice 0 plays cue 4 and voice 2 cue 2 from a double buffer. -/
def playing : State :=
  withVoice 0 (sounding .loop 4 chime single 50)
    (withVoice 2 { sounding .loop 2 rumble double 100 with half0 := .full { start := 0, len := 320 }, nextRun := some 320 } stage)

theorem test_meets_StepKeepsVoicesSound :
    ((VoicesSound playing ∧ PortSound playing) ∧ ∃ t, step { playing with pending := [.sampleEvent] } = .next t) ∧
      (VoicesSound writingPage ∧ PortSound writingPage) ∧ ∃ t, step writingPage = .next t :=
  ⟨⟨⟨voicesSound_of (by decide +kernel) (by decide +kernel) (by decide +kernel) (by decide +kernel),
      ⟨by decide +kernel, by decide +kernel, by decide +kernel, by decide +kernel, by decide +kernel, by decide +kernel⟩⟩, _, rfl⟩,
    ⟨voicesSound_of (by decide +kernel) (by decide +kernel) (by decide +kernel) (by decide +kernel), test_port_writing⟩, _, rfl⟩

/-- A READY chamber in TRACK with a puff. -/
def puffing : State :=
  { base with
    smoke := { resetSmoke with state := .ready, temp := some 225, demand := 80, duty := 80, fan := .puff, puffEnd := some 70, fanLevel := 255 }
    supply := { base.supply with grants := { base.supply.grants with heaterCap := 1023 } } }

theorem test_meets_StepKeepsSmokeSound : SmokeSound puffing ∧ ∃ t, step { puffing with pending := [.puffEnd] } = .next t :=
  ⟨⟨by decide +kernel, by decide +kernel, by decide +kernel, by decide +kernel, by decide +kernel⟩, _, rfl⟩

/-- An empty queue, before the start-up and after it. -/
theorem test_meets_StepRunsTheFrontCommand : State.reset.pending = [] ∧ base.pending = [] := by decide +kernel

/-- A STOP entry stands, and R lies at or above the CAP value beside it. -/
theorem test_meets_ReferenceObeysTheHolds : (∃ t, step busy = .next t) ∧ stopHeld busy = true ∧
    (50 ∈ capValues busy ∧ 50 ≤ busy.motor.R) ∧ ReferenceInRange busy :=
  ⟨⟨_, rfl⟩, by decide +kernel, by decide +kernel, by unfold ReferenceInRange; decide +kernel⟩

/-! ### Hypotheses met: chapter 1 -/

/-- The ends of the table and of its last segment; a reference below, above and at its target. -/
theorem test_meets_SpeedTableAndRamps :
    ((250 : Nat) ≤ 250 ∧ (10 : Nat) ≤ 10 ∧ (250 : Nat) = 25 * 10) ∧ ((9 : Nat) < 10 ∧ 25 * 9 ≤ 249 ∧ 249 < 25 * (9 + 1)) ∧
      resetMotor.R < 1 ∧ 0 < busy.motor.R ∧ busy.motor.R = 300 := by decide +kernel

/-- One entry of each kind on a switch that is on; a STOP hold, a pending reversal, the brake, the yard, MOMENTUM_OFF;
INSTANT, NORMAL and rate holds. -/
theorem test_meets_TargetAndDecelerationFollowTheDemand :
    (let on (i : Nat) (s : State) : State := { s with switches := s.switches.set i { on := true, lastSetter := none, expiry := none } }
     let stop (d : Decel) : State := { rolling with holds := [plainStop .supply d, beaconCap 1000 .absent] }
     (asked (on 5 base) 42 = true ∧ asked (on 6 base) 43 = true ∧ asked (on 0 base) 1 = true ∧ asked (on 1 base) 2 = false) ∧
     ((∃ h ∈ (stop .normal).holds, h.kind = .stop) ∧ { base with demand := { base.demand with pending := true } }.demand.pending = true) ∧
     ((¬ ∃ h ∈ rolling.holds, h.kind = .stop) ∧ rolling.demand.pending = false ∧ asked rolling 42 = false ∧ asked rolling 44 = false) ∧
     (asked (withSettings 96 [44] (on 0 base)) 44 = true) ∧
     ((∃ h ∈ (stop .instant).holds, h.kind = .stop ∧ h.decel = .instant) ∧
       (∀ h ∈ (stop (.rate 405)).holds, h.kind = .stop → h.decel ≠ .instant) ∧
       sEff (on 6 rolling) = 899 ∧ decelInEffect (stop (.rate 405)) = .rate 405 ∧ decelInEffect (stop .normal) = .rate 400)) := by
  decide +kernel

/-- A standstill; the worked case; one whose raw drive goes beyond 1023; the period of a check's short. -/
theorem test_meets_ControlPeriodDrives :
    (let fast : State := { chapter1 with motor := { resetMotor with R := 1798, I := 261888, state := .running } }
     (∀ s ∈ [base, rolling, fast, { base with motor := { resetMotor with checkShorted := true } }], Drives s ∧ (8190 : Nat) ≤ 8190 ∧ s.motor.openCount + 1 < 100 ∧ s.motor.stallCount + 1 < set8 s 68 * 10) ∧
       ((after (.controlPeriod 0 0) base).motor.R = 0 ∧ sEff base = 0) ∧
       (after (.controlPeriod 900 1750) rolling).motor.I = 5504 ∧
       (after (.controlPeriod 900 0) fast).motor.I = 261888 ∧ (after (.controlPeriod 900 0) fast).motor.Da = 1023) := by
  unfold Drives; decide +kernel

/-- A part in FAULT; one in DARK, and in both. -/
theorem test_meets_ControlPeriodInFaultAndInDark :
    (let f : State := { rolling with motor := { rolling.motor with state := .fault, fault := some { kind := .motorOpen, retry := none }, Da := 0 } }
     let d : State := { rolling with supply := { rolling.supply with state := .dark } }
     ∀ s ∈ [f, d, { f with supply := d.supply }], s.phase = .running ∧ s.motor.state ≠ .check ∧
       s.motor.checkAccepted = false ∧ (s.motor.state = .fault ∨ s.supply.state = .dark) ∧ (8190 : Nat) ≤ 8190 ∧ (4095 : Nat) ≤ 4095) := by decide +kernel

/-- The least current, with a first short and with the third within 10 s, in a check and with one accepted; an open winding at its hundredth
period; a stall at its last period, the first one and one 59999 ms after another. -/
theorem test_meets_MotorFaultsAreTaken :
    (let s (l : List Time) : State := { base with motor := { resetMotor with Da := 1, shorts := l } }
     (∀ x ∈ [s [], s [0, 0]], 0 < x.motor.Da ∧ x.supply.state ≠ .dark ∧ x.motor.state ≠ .check ∧
       x.motor.checkAccepted = false ∧ x.motor.state ≠ .fault) ∧
     (let k : State := { base with motor := { resetMotor with Da := 256, state := .check, checkProgress := some 0 } }
      let a : State := { base with motor := { resetMotor with Da := 256, checkAccepted := true } }
      ∀ x ∈ [k, a], 0 < x.motor.Da ∧ x.supply.state ≠ .dark ∧ (x.motor.state = .check ∨ x.motor.checkAccepted = true))) ∧
    (let s (n o : Nat) (l : Option Time) : State := { withSettings 68 [30] base with
       partTime := 59999, demand := { base.demand with step := 250 }
       motor := { resetMotor with R := 4000, state := .running, stallCount := n, openCount := o, lastStall := l } }
     let hyp (x : State) := Drives x ∧ x.motor.openCount ≤ 99 ∧ x.motor.stallCount ≤ 999 ∧ set8 x 68 ≤ 100
     let stall (m : Motor) := 1000 ≤ m.Da ∧ m.Mf < m.R / 8
     (hyp (s 0 99 none) ∧ hyp (s 299 98 none) ∧ hyp (s 299 98 (some 0))) ∧
       (200 ≤ (drivenMotor 19 0 (s 0 99 none)).Da ∧ (drivenMotor 19 0 (s 0 99 none)).C < 20 ∧ (drivenMotor 19 0 (s 0 99 none)).Mf < 10) ∧
       stall (drivenMotor 19 0 (s 299 98 none)) ∧ set8 (s 299 98 none) 68 * 10 ≤ 299 + 1 ∧
       ageMs (59999 : Time) 0 < 60000) := by
  unfold Drives; decide +kernel

/-- A level that changes and one that does not; an edge with source CAM, in READY and outside it. -/
theorem test_meets_CamEdgeGivesOneChuff :
    (let s : State := { withSettings 71 [1] base with motor := { resetMotor with camLevel := .high, camStable := 5 } }
     base.phase = .running ∧ Level.high ≠ base.motor.camLevel ∧
       (s.phase = .running ∧ set8 s 71 = 1 ∧ s.motor.camLevel = .high ∧ 5 ≤ s.motor.camStable ∧ s.motor.camArmed = true) ∧
       s.smoke.state ≠ .ready ∧ { s with smoke := { s.smoke with state := .ready } }.smoke.state = .ready ∧
       set8 base 71 ≠ 1 ∧ { s with motor := { s.motor with camStable := 4 } }.motor.camStable < 5) := by decide +kernel

/-! ### Hypotheses met: chapter 2 -/

/-- An entry in the middle of the list, and a source with none; a dwell one ms before its end and at it, with and without
reverse-at-end; a cap's odometer expiry just reached. -/
theorem test_meets_HoldsAreInstalledRemovedAndExpire :
    (let s : State := { base with holds := [plainStop .emergency .instant, beaconCap 1 .absent, plainStop .localMaster .instant] }
     HoldsDistinct s ∧ s.holds = [plainStop .emergency .instant] ++ beaconCap 1 .absent :: [plainStop .localMaster .instant] ∧
       (beaconCap 1 .absent).source = (beaconStop .approach .absent false).source ∧
       ∀ x ∈ s.holds, x.source ≠ (plainStop .supply .normal).source) ∧
    (let s (rev : Bool) : State := { base with partTime := 30000, holds := [beaconStop .dwell (.atTime 30000) rev] }
     let late : State := { base with partTime := 29999, holds := [beaconStop .dwell (.atTime 30000) false] }
     let c : State := { rolling with holds := [beaconCap 4000 (.atOdometer 1750)] }
     (findHold (s true) .beacon = some (beaconStop .dwell (.atTime 30000) true) ∧ reached (s true).partTime 30000 = true ∧
       (beaconStop .dwell (.atTime 30000) true).reverseAtEnd = true) ∧
     (findHold (s false) .beacon = some (beaconStop .dwell (.atTime 30000) false) ∧ reached (s false).partTime 30000 = true) ∧
     (findHold late .beacon = some (beaconStop .dwell (.atTime 30000) false) ∧ reached late.partTime 30000 = false) ∧
     (Drives c ∧ HoldsDistinct c ∧ findHold c .beacon = some (beaconCap 4000 (.atOdometer 1750)) ∧
       (beaconCap 4000 (.atOdometer 1750)).kind = .cap ∧
       (c.motor.odometer + BitVec.ofNat 32 (filterSpeed c.motor.Mf 1750) - 1750).toNat < 2147483648)) := by
  unfold Drives HoldsDistinct; decide +kernel

theorem test_meets_StopsAndResumesAreTaken :
    (Meets (air 5 [] known) .own (.throttle 0) (fun f _ => f.kind = 5) ∧
      Meets (wired 5 [] known) .own .localMaster (fun f _ => f.kind = 5) ∧
      (let s := onRadio (request 0 5 []) known
       nextTaken s = some (.radio, front s) ∧ screen s .radio (front s) = .matched .allCall ∧ (front s).kind = 5)) ∧
    Meets (air 6 [] held) .own (.throttle 0) (fun f t => f.kind = 6 ∧ holdsDrive t (.throttle 0) = true) ∧
      Meets (air 6 [] known) .own (.throttle 0) (fun f t => f.kind = 6 ∧ holdsDrive t (.throttle 0) = false) ∧
      Meets (wired 6 [] heldLocal) .own .localMaster (fun f t => f.kind = 6 ∧ holdsDrive t .localMaster = true) ∧
      Meets (wired 6 [] held) .own .localMaster (fun f t => f.kind = 6 ∧ holdsDrive t .localMaster = false) :=
  ⟨⟨meets (by decide +kernel) (by decide +kernel), meets (by decide +kernel) (by decide +kernel), by decide +kernel⟩,
    meets (by decide +kernel) (by decide +kernel), meets (by decide +kernel) (by decide +kernel),
    meets (by decide +kernel) (by decide +kernel), meets (by decide +kernel) (by decide +kernel)⟩

/-! ### Hypotheses met: chapter 3 -/

/-- Throttle 7 LOST with a RESERVED item, and as it stands: the frame of sequence 1 is new to it, a repeat, a STOP, within
the rate limit of 16 and beyond it; a repeat that each row meets. -/
theorem test_meets_KnownSenderIsHeard :
    (let with_ (e : ThrottleEntry) (s : State) : State := { s with throttles := s.throttles.set 0 (some e) }
     let e := someThrottle 7
     let lost := { e with lostSince := some 5 }
     let f := request 3 3 [40, 0, 60, 0]
     let waiting := with_ lost (claimed .exclusive [{ source := .throttle 0, until_ := some 9 }] known)
     (known.throttles.length = 16 ∧ entry known 0 = some e ∧ e.id = f.sourceId ∧ ∀ j, j < 0 → entry known j = none) ∧
     (entry waiting 0 = some lost ∧ waiting.drive.holders.any (fun h => h.source == .throttle 0 && h.until_.isSome) = true) ∧
     (f.seqByte = { e with lastSeq := 1 }.lastSeq ∧ entry (with_ { e with lastSeq := 1 } known) 0 = some { e with lastSeq := 1 }) ∧
     (f.seqByte ≠ e.lastSeq ∧ (request 3 5 []).kind = 5 ∧ f.kind ≠ 5 ∧ { e with intervalCount := 15 }.intervalCount < set8 known 13 ∧
       set8 known 13 ≤ { e with intervalCount := 16 }.intervalCount) ∧
     (∀ x ∈ [(1, [0, 1, 0]), (2, [0]), (3, [40, 0, 60, 0]), (4, [0, 1, 1]), (5, []), (6, []), (7, [0, 0, 0, 0, 0, 0, 0]), (0x10, [0, 0, 0, 0, 1, 0]),
       (0x11, [0, 0]), (0x12, []), (0x13, []), (0x20, [0, 0]), (0x20, [7, 0]), (0x21, []), (0x22, []), (0x23, []), (0x30, [0]), (0x31, [0, 0, 0]),
       (0x32, []), (0x33, [])],
       (let s := with_ { e with lastSeq := 1 } (air x.1 x.2 known)
        nextTaken s = some (.radio, front s) ∧ screen s .radio (front s) = .matched .own ∧ (front s).kind = x.1 ∧ x.1 ≠ 0x40 ∧
          (present (front s) (popIntake .radio s)).1 = .dropped))) := by decide +kernel

/-- A free entry at index 2; a full table with candidates 9 and 12; a full one with none, and the rows that meet it. -/
theorem test_meets_UnknownSenderIsLearned :
    (let f := { request 3 3 [40, 0, 60, 0] with quality := 9 }
     let lost (t : Time) : Option ThrottleEntry := some { someThrottle 1 with lostSince := some t, lastHeard := t }
     let full : State := { base with partTime := 90000, throttles := List.replicate 16 (some (someThrottle 1)) }
     let old : State := { full with throttles := (full.throttles.set 9 (lost 62000)).set 12 (lost 71000) }
     let opened : State := { old with txn := { resetTxn with state := .openWrite, opener := .throttle 9 } }
     let free : State := { base with throttles := (base.throttles.set 0 (some (someThrottle 5))).set 1 (some (someThrottle 8)) }
     (∀ s ∈ [free, full, old, opened], s.throttles.length = 16 ∧ 0 < set8 s 13 ∧
       ∀ j, j < 16 → (entry s j).all (fun e => e.id != f.sourceId) = true) ∧
     (entry free 2 = none ∧ ∀ j, j < 2 → entry free j ≠ none) ∧
     (∀ s ∈ [old, opened], (∀ j, j < 16 → entry s j ≠ none) ∧ entry s 9 = lost 62000 ∧ namedByClaim s 9 = false ∧ entry s 12 = lost 71000 ∧
       (s.partTime - 71000).toNat < (s.partTime - 62000).toNat ∧ ∀ j, j < 16 → j ≠ 9 → j ≠ 12 → (entry s j).all (fun e => e.lostSince.isNone) = true) ∧
     (opened.txn.state ≠ .closed ∧ opened.txn.opener = .throttle 9) ∧
     ((∀ j, j < 16 → entry full j ≠ none) ∧ ∀ j, j < 16 → (entry full j).all (fun e => e.lostSince.isNone) = true) ∧
     (∀ x ∈ [(1, [0, 1, 0]), (2, [0]), (3, [40, 0, 60, 0]), (4, [0, 1, 1]), (5, []), (6, []), (7, [0, 0, 0, 0, 0, 0, 0]), (0x10, [0, 0, 0, 0, 1, 0]),
       (0x11, [0, 0]), (0x12, []), (0x13, []), (0x20, [0, 0]), (0x20, [7, 0]), (0x21, []), (0x22, []), (0x30, [0]), (0x31, [0, 0, 0]),
       (0x32, []), (0x33, [])],
       (let s := air x.1 x.2 full
        nextTaken s = some (.radio, front s) ∧ screen s .radio (front s) = .matched .own ∧ (front s).kind = x.1 ∧ x.1 ≠ 0x40 ∧
          (present (front s) (popIntake .radio s)).1 = .refused))) := by decide +kernel

/-- A rate interval due and not due; an entry at its silence limit and 1 ms before it, the last index, with a reclaim
window and with none; a LOST entry forgotten, with and without its open transaction, and one that is named; a RESERVED
item whose time has come. -/
theorem test_meets_ThrottleTimersAct :
    (({ base with partTime := 500 }.phase = .running ∧ reached { base with partTime := 500 }.partTime base.rateDue = true) ∧
      (base.phase = .running ∧ reached { base with partTime := 499 }.partTime base.rateDue = false)) ∧
    (let s (now : Time) : State := { withSettings 10 [80] (withSettings 11 [30] (withSettings 12 [3] base)) with
       partTime := now, throttles := base.throttles.set 15 (some (someThrottle 9)) }
     let gone : ThrottleEntry := { someThrottle 9 with lostSince := some 8000 }
     let f : State := { s 30000 with throttles := base.throttles.set 15 (some gone) }
     let named := claimed .exclusive [activeItem (.throttle 15)] f
     let opened : State := { f with txn := { resetTxn with state := .openRead, opener := .throttle 15 } }
     let item : HolderItem := { source := .throttle 15, until_ := some 29000 }
     let last := claimed .exclusive [item] opened
     let kept := claimed .shared [item] { s 30000 with groups := base.groups.set 3 (some item) }
     ((15 : Nat) < 16 ∧ (s 8000).throttles.length = 16 ∧ entry (s 8000) 15 = some (someThrottle 9) ∧ (someThrottle 9).lostSince = none) ∧
     (reached (8000 : Time) (0 + BitVec.ofNat 32 (set8 (s 8000) 10 * 100)) = true ∧ 0 < set8 (s 8000) 11 ∧
       reached (8000 : Time) (0 + BitVec.ofNat 32 (set8 (s 8000) 12 * 10000)) = false) ∧
     (set8 (withSettings 11 [0] (s 8000)) 11 = 0) ∧
     reached (7999 : Time) (0 + BitVec.ofNat 32 (set8 (s 7999) 10 * 100)) = false ∧
     (entry f 15 = some gone ∧ reached f.partTime (gone.lastHeard + BitVec.ofNat 32 (set8 f 12 * 10000)) = true ∧ namedByClaim f 15 = false ∧
       f.txn.state = .closed) ∧
     (opened.txn.state ≠ .closed ∧ opened.txn.opener = .throttle 15 ∧ namedByClaim opened 15 = false) ∧
     namedByClaim named 15 = true ∧
     (∀ q ∈ [last, kept], q.drive.holders = [item] ∧ reached q.partTime 29000 = true ∧
       namedByClaim (after (.reservationExpiry 15) q) 15 = false) ∧
     (entry last 15 = some gone ∧ (after (.reservationExpiry 15) last).throttles = last.throttles.set 15 none ∧
       last.txn.opener = .throttle 15 ∧ entry kept 15 = some (someThrottle 9) ∧ (someThrottle 9).lostSince = none)) := by decide +kernel

/-! ### Hypotheses met: chapter 4 -/

/-- An item of a throttle, RESERVED until part time 5. -/
def reserved (i : Nat) : HolderItem := { source := .throttle i, until_ := some 5 }

/-- A part in a consist of address 5 at a position. -/
def inConsist (pos : Nat) (s : State) : State := withSettings 3 [5, pos, 0, 255, 255, 255, 255] s

/-- What every clause about CLAIM DRIVE asks of the frame. -/
def asksDrive (f : Frame) (src : Source) : Prop :=
  f.kind = 1 ∧ 3 ≤ f.payload.length ∧ byteAt f.payload 0 = 0 ∧ byteAt f.payload 1 ≤ 1 ∧
    ¬ (byteAt f.payload 2 / 2 % 2 = 1 ∧ src = .localMaster)

/-- What every clause about CLAIM of a group asks of the frame. -/
def asksGroup (f : Frame) (src : Source) : Prop :=
  f.kind = 1 ∧ 3 ≤ f.payload.length ∧ 1 ≤ byteAt f.payload 0 ∧ byteAt f.payload 0 ≤ 4 ∧ byteAt f.payload 1 ≤ 1 ∧
    ¬ (byteAt f.payload 2 / 2 % 2 = 1 ∧ src = .localMaster)

/-- Resource 5 and mode 2, for DRIVE and for a group. DRIVE: a sender with an item; FREE; a steal; the third of a SHARED
claim; an EXCLUSIVE one; a full SHARED one. A group: an OPEN one, one's own, a RESERVED one stolen, and one without a steal. -/
theorem test_meets_ClaimIsJudged :
    (let g (h : HolderItem) : State := { known with groups := known.groups.set 3 (some h) }
     (∀ p ∈ [[5, 0, 0], [0, 2, 0], [1, 2, 0]], arrived (air 1 p known) .own (.throttle 0) = true ∧ (front (air 1 p known)).payload = bytes p) ∧
     Meets (air 1 [0, 1, 0] held) .own (.throttle 0) (fun f t => asksDrive f (.throttle 0) ∧ ∃ h ∈ t.drive.holders, h.source = .throttle 0) ∧
      Meets (air 1 [0, 1, 2] known) .own (.throttle 0) (fun f t => asksDrive f (.throttle 0) ∧ t.drive.mode = .free ∧ t.drive.holders = []) ∧
      Meets (air 1 [0, 0, 1] (claimed .shared [reserved 1, reserved 2] known)) .own (.throttle 0) (fun f t => asksDrive f (.throttle 0) ∧
        (¬ ∃ h ∈ t.drive.holders, h.source = .throttle 0) ∧ t.drive.mode ≠ .free ∧ byteAt f.payload 2 % 2 = 1 ∧
        ∀ h ∈ t.drive.holders, h.until_.isSome = true) ∧
      Meets (wired 1 [0, 1, 1] (claimed .shared [reserved 1, activeItem (.throttle 0)] known)) .own .localMaster (fun f t =>
        asksDrive f .localMaster ∧ (¬ ∀ h ∈ t.drive.holders, h.until_.isSome = true) ∧ t.drive.mode = .shared ∧ t.drive.holders.length < 3) ∧
      Meets (air 1 [0, 1, 0] (claimed .exclusive [activeItem (.throttle 1)] known)) .own (.throttle 0) (fun f t =>
        asksDrive f (.throttle 0) ∧ t.drive.mode = .exclusive ∧ byteAt f.payload 2 % 2 = 0) ∧
      Meets (air 1 [0, 1, 0] (claimed .shared [reserved 1, activeItem (.throttle 2), reserved 3] known)) .own (.throttle 0) (fun f t =>
        asksDrive f (.throttle 0) ∧ ¬ t.drive.holders.length < 3) ∧
      Meets (air 1 [1, 1, 0] known) .own (.throttle 0) (fun f t => asksGroup f (.throttle 0) ∧ t.groups.getD 0 none = none) ∧
      Meets (air 1 [4, 0, 2] (g (activeItem (.throttle 0)))) .own (.throttle 0) (fun f t => asksGroup f (.throttle 0) ∧
        t.groups.getD 3 none = some (activeItem (.throttle 0))) ∧
      Meets (air 1 [4, 0, 1] (g (reserved 1))) .own (.throttle 0) (fun f t => asksGroup f (.throttle 0) ∧ t.groups.getD 3 none = some (reserved 1) ∧
        byteAt f.payload 2 % 2 = 1 ∧ (reserved 1).until_.isSome = true) ∧
      Meets (wired 1 [4, 0, 0] (g (reserved 1))) .own .localMaster (fun f t => asksGroup f .localMaster ∧
        t.groups.getD 3 none = some (reserved 1) ∧ byteAt f.payload 2 % 2 = 0)) := by
  unfold asksDrive asksGroup
  refine ⟨by decide +kernel, ?_, ?_, ?_, ?_, ?_, ?_, ?_, ?_, ?_, ?_⟩ <;> exact meets (by decide +kernel) (by decide +kernel)

/-- An override of DRIVE beside another holder, and of GROUP3. A release of resource 5; of DRIVE without and with an item;
of GROUP3 by its holder, and of another's GROUP0. -/
theorem test_meets_OverridesAndReleasesAreTaken :
    (let g (n : Nat) (src : Source) : State := { known with groups := known.groups.set n (some (activeItem src)) }
     Meets (wired 1 [0, 1, 2] held) .own .localMaster (fun f t => f.kind = 1 ∧ 3 ≤ f.payload.length ∧ byteAt f.payload 1 ≤ 1 ∧
        byteAt f.payload 2 / 2 % 2 = 1 ∧ (t.drive.holders.map (·.source)).Nodup ∧ byteAt f.payload 0 = 0) ∧
      Meets (wired 1 [4, 0, 3] held) .own .localMaster (fun f t => f.kind = 1 ∧ 3 ≤ f.payload.length ∧ byteAt f.payload 1 ≤ 1 ∧
        byteAt f.payload 2 / 2 % 2 = 1 ∧ (t.drive.holders.map (·.source)).Nodup ∧ 1 ≤ byteAt f.payload 0 ∧ byteAt f.payload 0 ≤ 4) ∧
      Meets (air 2 [5] held) .own (.throttle 0) (fun f _ => f.kind = 2 ∧ 1 ≤ f.payload.length ∧ 4 < byteAt f.payload 0) ∧
      Meets (air 2 [0] known) .own (.throttle 0) (fun f t => f.kind = 2 ∧ byteAt f.payload 0 = 0 ∧ ¬ ∃ h ∈ t.drive.holders, h.source = .throttle 0) ∧
      Meets (air 2 [0] held) .own (.throttle 0) (fun f t => f.kind = 2 ∧ byteAt f.payload 0 = 0 ∧ ∃ h ∈ t.drive.holders, h.source = .throttle 0) ∧
      Meets (air 2 [4] (g 3 (.throttle 0))) .own (.throttle 0) (fun f t => f.kind = 2 ∧ byteAt f.payload 0 = 4 ∧
        t.groups.getD 3 none = some (activeItem (.throttle 0))) ∧
      Meets (air 2 [1] (g 0 .localMaster)) .own (.throttle 0) (fun f t => f.kind = 2 ∧ byteAt f.payload 0 = 1 ∧
        t.groups.getD 0 none = some (activeItem .localMaster))) := by
  refine ⟨?_, ?_, ?_, ?_, ?_, ?_, ?_⟩ <;> exact meets (by decide +kernel) (by decide +kernel)

/-- An own-addressed DRIVE in a consist; no holder; direction 2; a stale generation; generation 0 for an EXCLUSIVE
holder with direction 1; the current generation for a SHARED one at the LEAD. -/
theorem test_meets_DriveIsJudgedAndStored :
    Meets (air 3 [0, 0, 255, 0] (inConsist 1 held)) .own (.throttle 0) (fun f t => f.kind = 3 ∧ 4 ≤ f.payload.length ∧ consistSet t = true) ∧
      Meets (air 3 [0, 0, 255, 0] known) .own (.throttle 0) (fun f t => f.kind = 3 ∧ consistSet t = false ∧ holdsDrive t (.throttle 0) = false) ∧
      Meets (air 3 [0, 0, 255, 2] held) .own (.throttle 0) (fun f t => f.kind = 3 ∧ holdsDrive t (.throttle 0) = true ∧ 1 < byteAt f.payload 3) ∧
      Meets (air 3 [39, 0, 255, 1] held) .own (.throttle 0) (fun f t => f.kind = 3 ∧ holdsDrive t (.throttle 0) = true ∧
        halfAt f.payload 0 ≠ 0 ∧ halfAt f.payload 0 ≠ t.drive.generation) ∧
      Meets (air 3 [0, 0, 251, 1] held) .own (.throttle 0) (fun f t => f.kind = 3 ∧ 4 ≤ f.payload.length ∧ consistSet t = false ∧
        holdsDrive t (.throttle 0) = true ∧ byteAt f.payload 3 ≤ 1 ∧ t.drive.mode = .exclusive ∧ halfAt f.payload 0 = 0) ∧
      Meets (onRadio (request 0x8005 3 [40, 0, 0, 0]) (inConsist 1 (claimed .shared [activeItem (.throttle 0)] known))) .consist (.throttle 0)
        (fun f t => f.kind = 3 ∧ 4 ≤ f.payload.length ∧ holdsDrive t (.throttle 0) = true ∧ halfAt f.payload 0 = t.drive.generation) := by
  refine ⟨?_, ?_, ?_, ?_, ?_, ?_⟩ <;> exact meets (by decide +kernel) (by decide +kernel)

/-- Own-addressed in a consist; group 4; another's group; an OPEN group; a consist-addressed FUNC. -/
theorem test_meets_FuncSetsTheNamedSwitches :
    (let taken : State := { known with groups := known.groups.set 3 (some (reserved 1)) }
     let hyp (f : Frame) : Prop := f.kind = 4 ∧ 3 ≤ f.payload.length
     Meets (air 4 [0, 255, 255] (inConsist 3 held)) .own (.throttle 0) (fun f t => hyp f ∧ consistSet t = true) ∧
      Meets (air 4 [4, 255, 255] known) .own (.throttle 0) (fun f t => hyp f ∧ consistSet t = false ∧ 3 < byteAt f.payload 0) ∧
      Meets (air 4 [3, 255, 255] taken) .own (.throttle 0) (fun f t => hyp f ∧ byteAt f.payload 0 ≤ 3 ∧ t.groups.getD 3 none = some (reserved 1) ∧
        (reserved 1).source ≠ .throttle 0) ∧
      Meets (air 4 [3, 128, 255] { known with supply := { known.supply with state := .parked } }) .own (.throttle 0) (fun f t =>
        hyp f ∧ byteAt f.payload 0 ≤ 3 ∧ t.groups.getD 3 none = none ∧ t.supply.state = .parked) ∧
      Meets (air 4 [3, 128, 255] known) .own (.throttle 0) (fun f t => hyp f ∧ byteAt f.payload 0 ≤ 3 ∧ t.groups.getD 3 none = none) ∧
      Meets (onRadio (request 0x8005 4 [0, 255, 1]) (inConsist 2 known)) .consist (.throttle 0) (fun f t => hyp f ∧ t.groups.getD 0 none = none)) := by
  refine ⟨?_, ?_, ?_, ?_, ?_, ?_⟩ <;> exact meets (by decide +kernel) (by decide +kernel)

/-- A sender without DRIVE; a moving part; address 128; address 1 without a position; address 127 at TRAIL; address 0. -/
theorem test_meets_ConsistInstallsTheRecord :
    (let hyp (f : Frame) (t : State) : Prop := f.kind = 7 ∧ 7 ≤ f.payload.length ∧ t.settings.length = 776
     Meets (air 7 [0, 0, 0, 0, 0, 0, 0] known) .own (.throttle 0) (fun f t => hyp f t ∧ holdsDrive t (.throttle 0) = false) ∧
      Meets (air 7 [0, 0, 0, 0, 0, 0, 0] { held with pub := rolling.pub }) .own (.throttle 0) (fun f t => hyp f t ∧ holdsDrive t (.throttle 0) = true ∧ t.pub.R ≠ 0) ∧
      Meets (wired 7 [128, 1, 0, 0, 0, 0, 0] known) .own .localMaster (fun f t => hyp f t ∧ t.pub.R = 0 ∧ 127 < byteAt f.payload 0) ∧
      Meets (wired 7 [1, 0, 0, 0, 0, 0, 0] known) .own .localMaster (fun f t => hyp f t ∧ 1 ≤ byteAt f.payload 0 ∧ byteAt f.payload 1 = 0) ∧
      Meets (air 7 [127, 3, 1, 1, 2, 3, 4] held) .own (.throttle 0) (fun f t => hyp f t ∧ t.pub.R = 0 ∧ byteAt f.payload 0 = 127 ∧ byteAt f.payload 1 = 3) ∧
      Meets (air 7 [0, 3, 1, 1, 2, 3, 4] held) .own (.throttle 0) (fun f t => hyp f t ∧ t.pub.R = 0 ∧ byteAt f.payload 0 = 0)) := by
  refine ⟨?_, ?_, ?_, ?_, ?_, ?_⟩ <;> exact meets (by decide +kernel) (by decide +kernel)

/-! ### Hypotheses met: chapter 5 -/

theorem test_meets_CrcCatchesOneAlteredByte : (0 : Byte) ≠ 1 := by decide

/-- A receiver in a state with a body length and body bytes, after a gap. -/
def receiving (st : RxState) (len : Nat) (body : List Byte) (gap : Nat) : State :=
  { base with radio := { resetPort with rx := { state := st, len := len, body := body, gap := gap } } }

/-- HUNT; a length byte 5 ms after the start byte; a body byte before the last one, and the last one on either port; the
quality byte; a gap of 6 ms; a local queue with room for one more and a full one. -/
theorem test_meets_ReceiverTakesEachByte :
    (let b := List.replicate 11 (0 : Byte)
     let l (n : Nat) : State := { base with localLine := { (receiving .body 12 b 0).radio with intake := List.replicate n (request 3 5 []) } }
     base.radio.rx.state = .hunt ∧
       ((receiving .length 0 [] 5).radio.rx.state = .length ∧ (receiving .length 0 [] 5).radio.rx.gap ≤ 5 ∧ (36#8).toNat ≤ 36 ∧ 36 < (37#8).toNat) ∧
       ((receiving .body 13 b 5).radio.rx.state = .body ∧ (receiving .body 13 b 5).radio.rx.body.length + 1 < 13) ∧
       ((receiving .body 12 b 0).radio.rx.state = .body ∧ (receiving .body 12 b 0).radio.rx.body.length + 1 = 12) ∧
       ((l 3).localLine.rx.body.length + 1 = (l 3).localLine.rx.len ∧ (l 3).localLine.intake.length < 4 ∧ 4 ≤ (l 4).localLine.intake.length) ∧
       ((receiving .quality 12 (0 :: b) 5).radio.rx.state = .quality ∧ (receiving .quality 12 (0 :: b) 5).radio.rx.gap ≤ 5) ∧
       ((receiving .quality 12 b 6).radio.rx.state ≠ .hunt ∧ 5 < (receiving .quality 12 b 6).radio.rx.gap)) := by decide +kernel

/-- The shortest and the longest body; a local queue with room for one more and a full one. The start-up, a RESET that
waits, a local frame beside a radio one, a radio one alone, none. A bad CRC; a layout mismatch on the radio port; a frame
for another address on either port. -/
theorem test_meets_FramesAreQueuedTakenAndDiscarded :
    (let q (n : Nat) : State := { base with localLine := { resetPort with intake := List.replicate n (request 3 5 []) } }
     base.radio.rx.state = .hunt ∧ (request 3 5 []).body.length = 12 ∧ (request 3 5 (List.replicate 24 0)).body.length = 36 ∧
       (q 3).localLine.rx.state = .hunt ∧ (q 3).localLine.intake.length < 4 ∧ 4 ≤ (q 4).localLine.intake.length) ∧
    (let f := request 3 5 []
     State.reset.phase = .loading ∧ { base with resetWait := true }.resetWait = true ∧ base.phase = .running ∧ base.resetWait = false ∧
       (onLocal f (onRadio f base)).localLine.intake = [f] ∧ (onRadio f base).localLine.intake = [] ∧ (onRadio f base).radio.intake = [f] ∧
       base.radio.intake = []) ∧
    (let bad : Frame := { (request 3 5 []) with body := (request 3 5 []).body.set 9 6 }
     let s := withSettings 2 [7] base
     let other := request 4 5 []
     (nextTaken (onRadio bad base) = some (.radio, bad) ∧ bad.crcOk = false) ∧
     (nextTaken (onRadio other s) = some (.radio, other) ∧ other.crcOk = true ∧ set8 s 2 ≠ 255 ∧ other.layoutId ≠ set8 s 2) ∧
     (nextTaken (onLocal other s) = some (.localLine, other) ∧ other.dest ≠ 0 ∧ other.dest ≠ locoAddress s ∧ consistSet s = false) ∧
     (nextTaken (onRadio other base) = some (.radio, other) ∧ set8 base 2 = 255) ∧
     (∀ k ∈ [0x80, 0x82], nextTaken (onLocal (request 3 k []) base) = some (.localLine, request 3 k []) ∧
       (request 3 k []).crcOk = true ∧ (request 3 k []).kind = k) ∧
     (nextTaken (onRadio (request 0 3 []) base) = some (.radio, request 0 3 []) ∧ (request 0 3 []).crcOk = true ∧
       (request 0 3 []).dest = 0 ∧ (request 0 3 []).kind ≠ 5)) := by decide +kernel

/-- An unknown kind, each payload one byte short, and PRESENCE from both senders. -/
theorem test_meets_PresenceAndRefusalsChangeNothing :
    Meets (air 0x33 [] known) .own (.throttle 0) (fun f _ => f.kind ∉ requestKinds) ∧
      (∀ x ∈ [(1, 2), (2, 0), (3, 3), (4, 2), (7, 6), (0x10, 5), (0x11, 1), (0x11, 19), (0x20, 0), (0x30, 0), (0x31, 2)],
        arrived (air x.1 (List.replicate x.2 0) known) .own (.throttle 0) = true ∧
          (front (air x.1 (List.replicate x.2 0) known)).payload.length = x.2) ∧
      Meets (air 0x23 [] known) .own (.throttle 0) (fun f _ => f.kind = 0x23) ∧
      Meets (wired 0x23 [] known) .own .localMaster (fun f _ => f.kind = 0x23) :=
  ⟨meets (by decide +kernel) (by decide +kernel), by decide +kernel, meets (by decide +kernel) (by decide +kernel),
    meets (by decide +kernel) (by decide +kernel)⟩

/-- A reply drawn at the LEAD with a place left and with none; none drawn at a MID. A radio frame behind a local one,
before and after its start; a port with no frame. -/
theorem test_meets_RepliesAreQueuedAndSent :
    (let r : OutFrame := { port := .radio, body := [], isReset := false }
     (consistPosition (inConsist 1 base) = .lead ∧ (List.replicate 3 r).length < 4 ∧ 4 ≤ (List.replicate 4 r).length) ∧
     ¬ (Mark.consist = .own ∨ (Mark.consist = .consist ∧ consistPosition (inConsist 2 base) = .lead))) ∧
    (let r (p : Port) : OutFrame := { port := p, body := [], isReset := false }
     let s (b : Option (List Byte)) : State := { base with replies := [r .localLine, r .radio, r .radio], radio := { resetPort with sending := b } }
     (∀ b, (s b).replies = [r .localLine] ++ r .radio :: [r .radio]) ∧ (∀ x ∈ [r .localLine], x.port ≠ .radio) ∧
       (s (some [0x7E#8, 0])).radio.sending ≠ none ∧ (s none).radio.sending = none ∧
       (∀ x ∈ [r .localLine], x.port ≠ .radio)) := by
  refine ⟨by decide +kernel, fun b => rfl, by decide +kernel, by decide +kernel, by decide +kernel, by decide +kernel⟩

/-- Each what code with its last selector and with the next one, and what code 8; a check record with an estimate. The
fields of a held part with holds at the ends of their ranges. -/
theorem test_meets_QueriesReportTheState :
    ((∀ x ∈ [(0, 0), (0, 1), (0, 2), (1, 15), (1, 16), (2, 0), (2, 1), (2, 2), (3, 8), (3, 9), (4, 0), (4, 1), (5, 0), (5, 1), (6, 0),
        (6, 1), (7, 3), (7, 4), (8, 0)],
      (let s := air 0x20 [x.1, x.2] known
       arrived s .own (.throttle 0) = true ∧ (front s).kind = 0x20 ∧ 1 ≤ (front s).payload.length ∧
         byteAt (front s).payload 0 = x.1 ∧ byteAt (front s).payload 1 = x.2)) ∧
      known.faults[8]? = some clearFaultRecord ∧ known.motor.checkRecord.estimate = none ∧
      { result := .normal, estimate := some 321, time := 0 : CheckRecord }.estimate = some 321) ∧
    (let s := { held with demand := { held.demand with step := 250, lastWriter := some (.source (.throttle 15)) },
                          pub := { resetPublished with R := 4000, L := -32768 }, groups := held.groups.set 3 (some (reserved 15)) }
     s.drive.generation < 65536 ∧ s.demand.step < 256 ∧ s.pub.R ≤ 4000 ∧ -32768 ≤ s.pub.L ∧ s.motor.cap < 65536 ∧
       s.groups.getD 3 none = some (reserved 15) ∧ (reserved 15).source = .throttle 15 ∧ s.refusedLearns < 65536 ∧
       busy.holds[1]? = some (beaconCap 50 .absent) ∧ busy.holds.length < 256 ∧
       s.sound.voices[5]? = some resetVoice ∧ resetVoice.underruns < 65536 ∧
       s.switches.length = 32 ∧ s.switches[8 * 3 + 7]? = some { on := false, lastSetter := none, expiry := none } ∧
       entry s 1 = some (someThrottle 8) ∧ (∀ j, j < 16 → 1 < j → entry s j = none)) := by decide +kernel

/-- No DRIVE; a check that runs; a standing part; a moving one; a check accepted. A running check at the first period of a pulse, at the last
one, and at period 29 with three currents of 19 mA and with one of 20 mA; a back-EMF of 41 su in period 12; a demand. -/
theorem test_meets_CheckRunsAndEnds :
    (let runs (p : Nat) (cs : List Nat) (s : State) : State :=
       { s with motor := { resetMotor with state := .check, checkProgress := some p, checkC := cs } }
     (Meets (air 0x21 [] known) .own (.throttle 0) (fun f t => f.kind = 0x21 ∧ holdsDrive t (.throttle 0) = false) ∧
      Meets (air 0x21 [] (runs 3 [] held)) .own (.throttle 0) (fun f t => f.kind = 0x21 ∧ holdsDrive t (.throttle 0) = true ∧ t.motor.state = .check) ∧
      Meets (wired 0x21 [] { known with motor := { resetMotor with Mf := 19 } }) .own .localMaster (fun f t => f.kind = 0x21 ∧ t.motor.R = 0 ∧ t.motor.state = .stopped ∧ t.motor.Mf < 20 ∧
        t.supply.state = .track) ∧
      Meets (wired 0x21 [] { known with motor := { resetMotor with Mf := 20 } }) .own .localMaster (fun f t => f.kind = 0x21 ∧
        t.motor.state ≠ .check ∧ ¬ t.motor.Mf < 20)) ∧
     (∀ x ∈ [runs 0 [] base, runs 28 [19, 19, 19] base, runs 29 [19, 19, 19] base, runs 29 [19, 19, 20] base, runs 12 [7] base],
       x.phase = .running ∧ x.supply.state = .track ∧ x.motor.state = .check ∧ x.motor.checkAccepted = false ∧ x.motor.checkProgress.isSome = true ∧ sEff x = 0 ∧
         x.demand.pending = false ∧ findHold x .beacon = none) ∧
     ((12 % 10 = 2 ∧ (40 : Nat) < 41) ∧ ¬ (12 % 10 = 2 ∧ (40 : Nat) < 40)) ∧
     { base with motor := { resetMotor with Da := 256, checkAccepted := true } }.motor.checkAccepted = true ∧
     0 < sEff (runs 5 [] chapter1)) := by
  refine ⟨⟨?_, ?_, ?_, ?_⟩, by decide +kernel⟩ <;> exact meets (by decide +kernel) (by decide +kernel)

/-- At a TRAIL a stop, moving and standing, and a cap; an unknown kind; a LEAD; a short payload. -/
theorem test_meets_ConsistHoldIsInstalled :
    (let f (l : List Nat) := request 0x8005 0x40 l
     let at_ (pos : Nat) (pub : Published) (l : List Nat) := onRadio (f l) (inConsist pos { base with pub := pub })
     (∀ x ∈ [at_ 3 rolling.pub [0, 0, 0, 255, 0, 0, 0], at_ 3 resetPublished [0, 149, 1, 1, 0, 0, 0], at_ 2 rolling.pub [1, 160, 15, 0, 0, 1, 0],
         at_ 2 resetPublished [2, 0, 0, 0, 0, 0, 0], at_ 1 resetPublished [0, 0, 0, 0, 0, 0, 0], at_ 3 resetPublished [0, 0, 0, 0, 0, 0]],
       nextTaken x = some (.radio, front x) ∧ screen x .radio (front x) = .matched .consist ∧ (front x).kind = 0x40) ∧
       (f [0, 0, 0, 0, 0, 0, 0]).payload.length = 7 ∧ (f [0, 0, 0, 0, 0, 0]).payload.length < 7 ∧ rolling.pub.R ≠ 0 ∧
       HoldsDistinct base ∧ consistPosition (inConsist 3 base) = .trail ∧ consistPosition (inConsist 1 base) = .lead) := by
  unfold HoldsDistinct; decide +kernel

/-- Each request from a throttle, and from the local master at the last value that is taken and the next. -/
theorem test_meets_LocalMasterRequests :
    (∀ x ∈ [(0x30, [7]), (0x31, [7, 1, 0]), (0x32, []), (0x10, [1, 0, 0, 0, 1, 0])],
      arrived (air x.1 x.2 known) .own (.throttle 0) = true ∧ (front (air x.1 x.2 known)).payload = bytes x.2) ∧
    (∀ x ∈ [(0x30, [8]), (0x30, [7]), (0x31, [8, 0, 0]), (0x31, [0, 2, 0]), (0x31, [7, 1, 9]), (0x31, [7, 0, 9]), (0x32, [])],
      arrived (wired x.1 x.2 known) .own .localMaster = true ∧ (front (wired x.1 x.2 known)).payload = bytes x.2) ∧
    known.outputs[7]? = some (resetOutput 7) := by decide +kernel

/-! ### Hypotheses met: chapters 6 to 10 -/

/-- Each timer of DueTimersAct, one ms before it and at it. -/
theorem test_meets_DueTimersAct :
    (let at_ (now : Time) : State := { base with
       partTime := now
       motor := { resetMotor with state := .fault, fault := some { kind := .motorShort, retry := some 1000 } }
       trips := [none, some 1000]
       switches := base.switches.set 31 { on := true, lastSetter := some .beacon, expiry := some 1000 }
       smoke := { resetSmoke with state := .fault, fault := some (.sensor 1000), puffEnd := some 1000 }
       beacon := { resetBeacon with learnExpiry := some 1000 }
       txn := { resetTxn with state := .openRead, lastFrame := 4294966296 } }
     let s := at_ 1000
     s.motor.fault = some { kind := .motorShort, retry := some 1000 } ∧ s.trips[1]? = some (some 1000) ∧
       s.switches[31]? = some { on := true, lastSetter := some .beacon, expiry := some 1000 } ∧ s.smoke.puffEnd = some 1000 ∧
       s.smoke.fault = some (.sensor 1000) ∧ s.beacon.learnExpiry = some 1000 ∧ s.txn.state ≠ .closed ∧
       reached s.partTime 1000 = true ∧ reached (at_ 999).partTime 1000 = false ∧
       reached s.partTime (s.txn.lastFrame + 2000) = true ∧ reached (at_ 999).partTime ((at_ 999).txn.lastFrame + 2000) = false ∧
       { s with motor := { s.motor with fault := some { kind := .motorStall, retry := none } } }.motor.fault = some { kind := .motorStall, retry := none }) := by
  decide +kernel

/-- Both groups at 500 mA, and one above it; an output in LOCAL mode, one in FUNCTION mode; a group tripped; DARK. -/
theorem test_meets_OutputPeriodLightsTheLamps :
    (let s : State := { base with trips := [none, some 5], outputs := base.outputs.set 0 { resetOutput 0 with mode := .localLevel } }
     s.phase = .running ∧ s.outputs.length = 8 ∧ s.trips.length = 2 ∧ s.trips[0]? = some none ∧ (500 : Nat) < 501 ∧
       s.outputs[0]? = some { resetOutput 0 with mode := .localLevel } ∧ s.outputs[7]? = some (resetOutput 7) ∧ s.supply.state = .track ∧
       groupTripped (after (.outputPeriod 500 0) s) 0 = false ∧ groupTripped (after (.outputPeriod 500 0) s) 1 = true ∧
       outByte s 2 0 = 0 ∧ outByte s 2 2 = 0 ∧ { s with supply := { s.supply with state := .dark } }.supply.state = .dark) := by
  decide +kernel

/-- Every mode and effect: a steady HEAD lamp, a flickering one, a strobe, a fade, a firebox at a part that moves; a lead-only
lamp at a TRAIL; a blink with a latched fault; PARKED and DARK. -/
theorem test_meets_OutputEffectsFollowTheirSettings :
    (let lamps : State := withSettings 160
       [0, 255, 1 + 32, 20, 5, 10, 96, 32, 1, 200, 2, 20, 5, 10, 96, 32, 2, 200, 5, 20, 5, 10, 96, 32, 3, 200, 0, 20, 5, 10, 96, 32,
        4, 200, 64, 20, 5, 10, 96, 32, 0, 255, 8, 20, 5, 10, 96, 32] { rolling with faults := rolling.faults.map (fun r => { r with status := .latched }) }
     (∀ s ∈ [lamps, inConsist 3 lamps, { lamps with supply := { lamps.supply with state := .parked } },
         { lamps with supply := { lamps.supply with state := .dark } }, { lamps with trips := [some 5, none] }],
       s.phase = .running ∧ s.outputs.length = 8 ∧ s.trips.length = 2 ∧ answers (.outputPeriod 0 501) s = true) ∧
     ((after (.outputPeriod 0 501) lamps).outputs.length = 8 ∧ groupTripped (after (.outputPeriod 0 501) lamps) 0 = false ∧
       groupTripped (after (.outputPeriod 0 501) lamps) 1 = true ∧ lamps.outputs[0]? = some (resetOutput 0)) ∧
     (IsMember (inConsist 3 lamps) ∧ ∃ r ∈ lamps.faults, r.status = .latched)) := by
  unfold IsMember; decide +kernel

/-- A voice that is IDLE, and one whose envelope rises, falls from 17, falls from 16, stands. -/
theorem test_meets_SoundMixesAndGlides :
    (let v (d : EnvDir) (e : Nat) : Voice := { resetVoice with state := .loop, env := e, envDir := d }
     let s : State := { base with sound := { base.sound with voices := [resetVoice, v .rising 240, v .falling 17, v .falling 16, v .steady 256, resetVoice] } }
     s.phase = .running ∧ s.sound.voices[0]? = some resetVoice ∧ resetVoice.state = .idle ∧ s.sound.voices[1]? = some (v .rising 240) ∧
       s.sound.voices[2]? = some (v .falling 17) ∧ s.sound.voices[3]? = some (v .falling 16) ∧ s.sound.voices[4]? = some (v .steady 256) ∧
       (v .rising 240).state ≠ .idle) := by
  decide +kernel

/-- The clips of the stage, and the phases that have one. -/
theorem stage_clips : ∀ d ∈ stage.sound.directory, 0 < d.len := by decide +kernel

/-- Voices 1 to 5 have no partition. -/
def oneVoice : State := withSettings 461 [0, 0, 0, 0, 0, 0, 0, 0, 0, 0] stage

/-- Cue 1 with every voice free; with voice 0 playing it; with voice 0 alone and busy with the resumable cue 4 of lower
priority; with that voice at a higher one; with voice 1 free on a partition in use. Cue 9 has no clip; QUIET. -/
theorem test_meets_StartRequestsAreTaken :
    (VoicesSound stage ∧ VoicesSound (withVoice 0 (sounding .attack 1 hiss single 0) stage) ∧
      VoicesSound (withVoice 0 (sounding .loop 4 chime single 50) oneVoice) ∧
      VoicesSound (withVoice 0 (sounding .loop 4 chime single 50) (withSettings 461 [11, 3] oneVoice))) ∧
    (FirstPresent stage 1 .attack .attack hiss ∧ exhaustCue stage ≠ some 1 ∧ stage.sound.mode = .normal) ∧
    ((∀ w, w < 6 → (stage.sound.voices[w]?).all (fun x => x.state == .idle) = true) ∧ set8 stage 460 % 64 = 12) ∧
    (let low := withVoice 0 (sounding .loop 4 chime single 50) oneVoice
     chooseVoice low 1 = .displace 0 ∧ cueByte low 4 0 % 8 = 2 ∧ cueByte low 1 0 % 8 = 4 ∧ cueByte low 4 0 / 8 % 2 = 1 ∧
       chooseVoice (withSettings 256 [0] (withSettings 262 [1] low)) 1 = .priorityDrop ∧
       chooseVoice (withSettings 262 [1] (withVoice 0 (sounding .loop 4 chime single 50) (withSettings 461 [11, 3] oneVoice))) 1 = .overlapDrop) ∧
    (findClip stage 9 = none ∧ exhaustCue (withSettings 458 [1] stage) = some 1) := by
  refine ⟨⟨?_, ?_, ?_, ?_⟩, ⟨⟨⟨by decide +kernel, by decide +kernel⟩, .inl rfl, ?_⟩, by decide +kernel⟩, by decide +kernel,
    by decide +kernel, by decide +kernel⟩
  iterate 4 exact voicesSound_of (by decide +kernel) (by decide +kernel) (by decide +kernel) (by decide +kernel)
  intro q hq h
  cases q <;> simp [CuePhase.after] at h

/-- Voice 0 plays cue 4 with an empty stack, fading, with a next phase, with entries to resume in LOOP and beyond the clip. -/
theorem test_meets_CueEndsAndResumes :
    (let e : StackEntry := { cue := 4, phase := .loop, pos := 40, passes := 2 }
     let vo := { sounding .attack 1 hiss single 1 with stack := [e] }
     VoicesSound (withVoice 0 vo stage) ∧ (withVoice 0 vo stage).sound.voices[0]? = some vo ∧ vo.part = some single ∧ 0 < single.size ∧
       vo.state = CuePhase.attack.voiceState ∧ vo.envDir ≠ .falling ∧ vo.exhaust = false ∧
       (exhaustCue stage ≠ some e.cue ∧ HasClip stage e.cue e.phase chime ∧ SoundsIn single chime 200 100 ∧ e.pos < 200) ∧
       { e with cue := 1 }.phase ∈ CuePhase.attack.after ∧ findClip stage (cueByte stage 1 3) = none ∧
       HasClip stage 4 .loop chime ∧ CuePhase.loop ∈ CuePhase.attack.after ∧ { vo with envDir := .falling }.envDir = .falling ∧
       exhaustCue (withSettings 458 [4] stage) = some e.cue) := by
  refine ⟨voicesSound_of (by decide +kernel) (by decide +kernel) (by decide +kernel) (by decide +kernel), ?_⟩
  unfold HasClip SoundsIn
  decide +kernel

/-- A single buffer at its loop point, held, with passes left and with none, where the clip ends and where it goes on; a
double one at its loop point, at its half's end with the other half FULL and not, fading too, and at the clip's end. -/
theorem test_meets_VoicesStreamAndAdvance :
    (let loud (v : Nat) (vo : Voice) (s : State) := (withVoice v vo s).sound.voices[v]? = some vo
     let lone := sounding .loop 4 chime single 99
     let stream := { sounding .loop 2 rumble double 319 with half0 := .full { start := 0, len := 320 }, nextRun := some 640 }
     (loud 0 lone stage ∧ lone.part = some single ∧ lone.clip = some chime ∧ lone.cue = some 4 ∧ SoundsIn single chime 200 100 ∧
       lone.pos + 1 = 100 ∧ (100 : Nat) < 200 ∧ lone.passes = 1 ∧ 1 < { lone with passes := 2 }.passes) ∧
     (asked { stage with switches := stage.switches.set 2 { on := true, lastSetter := none, expiry := none } } (9 + 0) = true) ∧
     (SoundsIn single rumble 768 768 ∧ (768 : Nat) ≤ 768) ∧
     (loud 2 stream stage ∧ SoundsIn double rumble 4000 3000 ∧ stream.half stream.playing = .full { start := 0, len := 320 } ∧
       0 + 320 ≤ stream.pos + 1 ∧ stream.pos + 1 < 4000 ∧ stream.half (!stream.playing) = .empty ∧
       { stream with half1 := .full { start := 320, len := 320 } }.half true = .full { start := 320, len := 320 } ∧
       voiceOutstanding 2 stage = false) ∧
     ({ stream with pos := 2999 }.pos + 1 = 3000 ∧ { stream with pos := 3999, state := .release }.pos + 1 = 4000 ∧ 0 < double.size / 2 ∧
       { stream with pos := 2999 }.envDir ≠ .falling)) := by
  unfold SoundsIn
  decide +kernel

/-- A cause arises with voices in IDLE, PRIME and LOOP; the last one goes on TRACK and on RIDE; NORMAL stands with the
ambient cue absent and playing; QUIET stays. -/
theorem test_meets_QuietComesAndGoes :
    (let s := withVoice 1 { sounding .prime 1 hiss { start := 12, size := 12, dbl := false } 0 with nextPhase := some .attack } playing
     let quiet : State := { stage with sound := { stage.sound with mode := .quiet } }
     (∀ x ∈ [s, quiet], x.sound.voices.length = 6) ∧ (s.sound.mode = .normal ∧ { s with job := .save }.job ≠ .none) ∧
       (s.sound.voices.map (·.state)).take 4 = [.loop, .prime, .loop, .idle] ∧
       quietCause s = false ∧ quietCause quiet = false ∧ quiet.sound.mode = .quiet ∧ quiet.supply.state = .track ∧
       { quiet with supply := { quiet.supply with state := .ride } }.supply.state ≠ .track ∧ { quiet with job := .bank }.job ≠ .none ∧
       set8 (withSettings 457 [4] playing) 457 = 4 ∧ (∀ x ∈ stage.sound.voices, x.cue = none ∧ x.stack = []) ∧
       ∃ x ∈ playing.sound.voices, x.cue = some 4 ∧ x.state ≠ .idle ∧ x.envDir ≠ .falling) := by decide +kernel

/-- A single-buffered voice in PRIME whose read is in progress, up to the last byte of flash; a double-buffered one in
PRIME, one that underran, and one whose other half is being filled. -/
theorem test_meets_VoiceDataEntersItsPartition :
    (let cl : Clip := { id := 1, addr := 4198000, len := 200, gain := 255, loop := none, variant := 0 }
     let p : Partition := { start := 0, size := 1, dbl := false }
     let vo : Voice := { resetVoice with state := .prime, cue := some 1, nextPhase := some .attack, clip := some cl, part := some p }
     let s (d : Bool) : State := { base with
       sound := { base.sound with voices := base.sound.voices.set 0 vo }
       port := { waiting := [], busy := some ({ who := .voice 0, op := .read 4198000 400, entered := 0 }, d) } }
     (s false).phase = .running ∧ 4198000 + 400 ≤ flashEnd ∧ MemoriesCanonical (s false) ∧
       (s false).port.busy = some ({ who := .voice 0, op := .read 4198000 400, entered := 0 }, false) ∧
       (s true).port.busy = some ({ who := .voice 0, op := .read 4198000 400, entered := 0 }, true) ∧
       (s false).sound.voices[0]? = some vo ∧ vo.state = .prime ∧ vo.pos < playLen p cl) ∧
    (let r : Run := { start := 0, len := 320 }
     let vo := { sounding .prime 2 rumble double 0 with nextPhase := some .loop, half0 := .filling r, nextRun := some 320 }
     let late := { vo with state := .loop, nextPhase := none, wait := .underrun }
     let ahead := { late with half0 := .full r, half1 := .filling { start := 320, len := 320 }, playing := true }
     let s (x : Voice) : State := { withVoice 2 x stage with
       port := { waiting := [], busy := some ({ who := .voice 2, op := .read 100000 640, entered := 0 }, false) } }
     (∀ x ∈ [vo, late, ahead], (s x).sound.voices[2]? = some x ∧ x.part = some double ∧ double.dbl = true ∧ x.clip = some rumble) ∧
       (vo.half0 = .filling r ∧ vo.playing = false ∧ vo.half1 = .empty ∧ vo.state = .prime ∧ vo.nextPhase = some .loop) ∧
       (late.half0 = .filling r ∧ late.state = CuePhase.loop.voiceState ∧ late.nextRun = some 320 ∧ SoundsIn double rumble 4000 3000) ∧
       ahead.half0 = .full r ∧ ahead.half1 = .filling { start := 320, len := 320 } ∧ ahead.playing = true) := by
  unfold MemoriesCanonical SoundsIn; decide +kernel

/-- A directory of three entries: an empty one, one of the same id with loop points, and one of variant 4 whose loop ends
beyond it. -/
def catalogue : List Byte :=
  let entry := fun (id var gain flag addr len a b : Nat) =>
    bytes [id, var, gain, flag] ++ le4 (BitVec.ofNat 32 addr) ++ le4 (BitVec.ofNat 32 len) ++ le4 (BitVec.ofNat 32 a) ++ le4 (BitVec.ofNat 32 b)
  let es := entry 5 0 1 0 0 0 0 0 ++ entry 5 3 200 1 8192 300 10 300 ++ entry 9 4 1 1 9000 50 10 51
  le2 3 ++ crcBytes es ++ es

/-- Requests of the Store, voice 5 and voice 2; none of a voice; an operation in progress; a directory read that ends. -/
theorem test_meets_FlashPortServesInOrder :
    (let r (w : Requester) : FlashRequest := { who := w, op := .read 4096 1284, entered := 0 }
     let s (b : Option (FlashRequest × Bool)) (ws : List FlashRequest) : State := { base with port := { waiting := ws, busy := b } }
     ((s none [r .store, r (.voice 5), r (.voice 2)]).port.busy = none ∧ ∃ q ∈ [r .store, r (.voice 5), r (.voice 2)], q.who = .voice 5) ∧
       (∀ q ∈ [r .store, r .directory], ∀ v : Fin 6, q.who ≠ .voice v) ∧ (s (some (r .store, false)) []).port.busy ≠ none ∧
       (s (some (r .directory, false)) []).port.busy = some ({ who := .directory, op := .read 4096 1284, entered := 0 }, false) ∧
       base.phase = .running) ∧
    (halfAt catalogue 0 = 3 ∧ crcBytes ((catalogue.drop 4).take 60) = (catalogue.drop 2).take 2 ∧
      64 < halfAt (catalogue.set 0 65) 0 ∧ crcBytes (((catalogue.set 9 1).drop 4).take 60) ≠ ((catalogue.set 9 1).drop 2).take 2) := by
  decide +kernel

/-- R113: the copy leaves the empty entry out, takes the later one of its id, and drops loop points that lie beyond the
clip; a count of 65 and a CRC that does not match refuse the whole. -/
theorem test_directory :
    parseDirectory catalogue = some [{ id := 5, addr := 8192, len := 300, gain := 200, loop := some (10, 300), variant := 3 },
      { id := 9, addr := 9000, len := 50, gain := 1, loop := none, variant := 0 }] ∧
    parseDirectory (catalogue.set 0 65) = none ∧ parseDirectory (catalogue.set 9 1) = none := by decide +kernel

/-- The setpoint is 230: the first readings of a broken sensor, the overtemp limit, and the last below it; SMOKE asked; a
chamber in FAULT by either kind. -/
theorem test_meets_SmokePeriodDecides :
    (let s : State := { base with switches := base.switches.set 4 { on := true, lastSetter := none, expiry := none } }
     let f (k : SmokeFault) : State := { base with smoke := { resetSmoke with state := .fault, fault := some k, fan := .idle } }
     s.phase = .running ∧ SmokeSound s ∧ SmokeSound (f .overtemp) ∧ SmokeSound (f (.sensor 5)) ∧
       (s.smoke.state ≠ .fault ∧ asked s featSmoke = true ∧ s.smoke.limit = 290 ∧ (set16 s 224 : Int) + 60 = 290) ∧
       ((after (.smokePeriod 401) s).smoke.state = .fault ∧ (after (.smokePeriod (-41)) s).smoke.state = .fault ∧
         (after (.smokePeriod 290) s).smoke.fault = some .overtemp ∧ (after (.smokePeriod 289) s).smoke.state = .ready ∧
         (after (.smokePeriod 210) s).smoke.demand = 320 ∧ (after (.smokePeriod 209) s).smoke.state = .heating ∧
         (after (.smokePeriod (-40)) s).smoke.demand = 900) ∧
       ((f .overtemp).smoke.state = .fault ∧ (f .overtemp).smoke.fault = some .overtemp ∧ (f (.sensor 5)).smoke.fault = some (.sensor 5))) := by
  refine ⟨by decide +kernel, ⟨?_, ?_, ?_, ?_, ?_⟩, ⟨?_, ?_, ?_, ?_, ?_⟩, ⟨?_, ?_, ?_, ?_, ?_⟩, by decide +kernel, by decide +kernel, by decide +kernel⟩ <;>
    decide +kernel

/-- R140, R137: after CLEAR_FAULTS the chamber stays OFF through a lamp's FUNC, until the next smoke period. -/
theorem test_smoke_stays_off :
    (let s : State := { known with
       switches := known.switches.set 4 { on := true, lastSetter := none, expiry := none }
       smoke := { resetSmoke with state := .fault, fault := some .overtemp, temp := some 120 } }
     let t := after .func (air 4 [0, 1, 1] (after .clearFaults (wired 0x22 [] s)))
     t.smoke.state = .off ∧ (t.switches.map (·.on)).take 5 = [true, false, false, false, true] ∧ (after (.smokePeriod 120) t).smoke.state = .heating) := by
  decide +kernel

/-- A supply state with its restore and ride starts, at part time 5000. -/
def supplied (st : SupplyState) (restore ride : Option Time) : State :=
  { withSettings 14 [60] base with
    partTime := 600000, supply := { resetSupply with state := st, restoreStart := restore, rideStart := ride } }

/-- Each row of Table 9-3 at the voltages where it begins: good level 12000, cut level 6000, restore delay 100 ms. -/
theorem test_meets_BudgetPeriodDecidesAndGrants :
    ((after (.budgetPeriod 11999 6000) (supplied .track none none)).supply.state = .ride ∧
       (after (.budgetPeriod 12000 6000) (supplied .track none none)).supply.state = .parked ∧
       (after (.budgetPeriod 11999 6000) (supplied .parked none none)).supply.state = .ride ∧
       (after (.budgetPeriod 12000 6000) (supplied .parked none none)).supply.state = .parked ∧
       (after (.budgetPeriod 12000 6000) (supplied .ride (some 599900) (some 599000))).supply.state = .track ∧
       (after (.budgetPeriod 12000 6000) (supplied .ride (some 599901) (some 599000))).supply.state = .ride ∧
       (after (.budgetPeriod 12000 5999) (supplied .ride (some 599901) (some 599000))).supply.state = .dark ∧
       (after (.budgetPeriod 30000 20000) (supplied .dark none none)).supply.state = .dark ∧
       (after (.budgetPeriod 30000 20000) (supplied .dark (some 599900) none)).supply.state = .track) ∧
      set16 base 232 = 12000 ∧ set16 base 236 = 6000 ∧ (supplied .track none none).phase = .running := by decide +kernel

/-- PARKED and not; the ride limit of 5 s just reached, with a bad track and with a restore still to come, and 100 ms before
it; a restore and a park just due; each row's outcome that does not come. -/
theorem test_meets_ActivityAndSupplyOutcomes :
    (base.supply.state ≠ .parked ∧ { base with supply := { base.supply with state := .parked } }.supply.state = .parked) ∧
    (let r := supplied .ride none (some 595000)
     let w := supplied .ride (some 599901) (some 595000)
     let early := supplied .ride none (some 595001)
     (r.supply.state = .ride ∧ r.supply.holdFlag = false ∧ (11999 : Nat) < set16 r 232 ∧ set16 r 236 ≤ 9000 ∧ 0 < set8 r 242 ∧
       reached r.partTime (595000 + BitVec.ofNat 32 (set8 r 242 * 100)) = true) ∧
     (set16 w 232 ≤ 12000 ∧ reached w.partTime (599901 + 100) = false) ∧
     ((after (.budgetPeriod 11999 9000) early).supply.rideStart = some 595001 ∧
       reached early.partTime (595001 + BitVec.ofNat 32 (set8 early 242 * 100)) = false ∧
       after (.rideLimit 11999 9000) early = early ∧ (after (.rideLimit 12000 9000) w).supply.holdFlag = true) ∧
     (let q := supplied .dark (some 599900) none
      q.supply.state = .dark ∧ set16 q 232 ≤ 12000 ∧ reached q.partTime (599900 + 100) = true) ∧
     (let k := supplied .track none none
      k.supply.state = .track ∧ set8 k 14 ≠ 0 ∧ k.pub.phase = .stopped ∧ sEff k = 0 ∧
        reached k.partTime (k.supply.lastActivity + BitVec.ofNat 32 (set8 k 14 * 10000)) = true)) ∧
    (let t := after (.budgetPeriod 15000 9000) base
     answers (.budgetPeriod 15000 9000) base = true ∧ t.supply.state ≠ .parked ∧ base.supply.state = .track ∧ t.supply.state ≠ .ride) := by
  decide +kernel

/-- A receiver in a state, with a level, a run length and a capture list. -/
def hearing (st : BeaconState) (closed : Bool) (l : Level) (len : Nat) (c : List CaptureEntry) : State :=
  { base with beacon := { resetBeacon with state := st, closed := closed, runLevel := l, runLen := len, capture := c } }

/-- No burst at LOW and at HIGH, where a run goes on without a limit; a run that is appended as the 31st; one in a closed
list; the quiet that ends a capture at the sample limit. -/
theorem test_meets_RunsBuildTheCapture :
    (let e : CaptureEntry := { level := .high, width := 30 }
     (base.phase = .running ∧ base.beacon.unsettled = false ∧ base.beacon.runLen ≤ 65535 ∧ answers (.runFinished [.high, .high]) base = true) ∧
     ((hearing .idle false .low 9 []).beacon.state = .idle ∧ (hearing .idle false .low 9 []).beacon.runLevel = .low ∧
       (hearing .learnArmed false .high 9 []).beacon.runLevel = .high) ∧
       ((hearing .capture false .high 9 (List.replicate 30 e)).beacon.capture.length < 31 ∧
         (hearing .capture false .high 9 (List.replicate 30 e)).beacon.closed = false ∧ min 65535 (9 + 1590) < set16 base 707 * 8) ∧
       ((hearing .learnCapture true .low 1599 [e]).beacon.closed = true ∧ (hearing .learnCapture true .low 1599 [e]).beacon.runLevel = .low ∧
         1599 + 1 = set16 base 707 * 8 ∧ 1599 + 1 ≤ 65535)) := by decide +kernel

/-- A burst at the sample limit: held, short, learned, matched by no slot, repeated and taken; one that its 32nd entry ends. -/
theorem test_meets_BurstEndsOnce :
    (let e : CaptureEntry := { level := .high, width := 12 }
     let q (st : BeaconState) (l : Level) (c : List CaptureEntry) : State := hearing st false l 1599 c
     let m : State := withSettings 480 [4, 0, 0, 0, 0, 140, 140, 140, 140] (q .capture .low [e, e, e, e])
     let full := hearing .capture false .low 40 (List.replicate 31 e)
     (m.phase = .running ∧ m.beacon.closed = false ∧ m.beacon.state = .capture ∧ m.beacon.unsettled = false ∧ 1599 + 1 ≤ 65535 ∧
       1599 + 1 = set16 m 707 * 8) ∧
     ((q .capture .high [e]).beacon.runLevel = .high ∧ [e, e, e].length < set8 base 709 ∧
       ¬ [e, e, e, e].length < set8 base 709) ∧
     ((q .learnCapture .low [e, e, e, e]).beacon.learn.slot ≤ 7 ∧ base.settings.length = 776 ∧
       (q .learnCapture .low [e, e, e, e]).beacon.capture[0]? = some e ∧ e.width ≤ 127) ∧
     (matchedSlot (q .capture .low [e, e, e, e]) = none ∧ matchedSlot m = some 0 ∧ repeatedMatch m 0 = false ∧
       repeatedMatch { m with beacon := { m.beacon with lastMatch := some (0, 0) } } 0 = true) ∧
     (full.beacon.capture.length = 31 ∧ 40 + 20 < set16 full 707 * 8 ∧
       (after (.burstEnd (lineOf [(.low, 20), (.high, 2)])) full).beacon.closed = true)) := by decide +kernel

/-- An action's bytes in slot 7. -/
def action (b : List Nat) (s : State) : State := withSettings 768 b s

/-- A qualifier that fails; a stop of a moving part at d = 0 and d > 0, and of a standing one, with a dwell and with none;
a cap alone and at a LEAD, with a place for the frame and with none; a member; a sound; a switch, off and held on. -/
theorem test_meets_TakenMatchActs :
    (let fits (s : State) (q : Nat) : Prop := (q = 1 → s.demand.applied = .fwd) ∧ (q = 2 → s.demand.applied = .rev)
     (HoldsDistinct base ∧ HoldsDistinct rolling ∧ HoldsDistinct busy) ∧
     ¬ fits base (actionByte (action [128 + 1] base) 7 0 / 64) ∧
       (fits rolling (actionByte (action [64 + 1, 160, 15, 30, 1] rolling) 7 0 / 64) ∧ actionByte (action [64 + 1, 160, 15, 30, 1] rolling) 7 0 % 8 = 1 ∧
         consistPosition (action [64 + 1] rolling) = .none ∧ rolling.pub.R ≠ 0 ∧
         0 < (actionByte (action [1, 1, 0, 0, 0] rolling) 7 1 + 256 * actionByte (action [1, 1, 0, 0, 0] rolling) 7 2) * 100 ∧
         (actionByte (action [1, 0, 0, 0, 0] rolling) 7 1 + 256 * actionByte (action [1, 0, 0, 0, 0] rolling) 7 2) * 100 = 0) ∧
       (base.pub.R = 0 ∧ actionByte (action [1, 1, 0, 0, 3] base) 7 4 % 2 = 1 ∧ actionByte (action [1, 1, 0, 0, 3] base) 7 3 = 0 ∧
         actionByte (action [1, 1, 0, 0, 3] base) 7 4 / 2 % 2 = 1) ∧
       (actionByte (action [2, 250, 1, 0] base) 7 0 % 8 = 2 ∧ consistPosition (inConsist 1 base) = .lead ∧ base.replies.length < 4 ∧
         4 ≤ (List.replicate 4 ({ port := .radio, body := [], isReset := false } : OutFrame)).length) ∧
       (consistPosition (inConsist 2 base) = .mid ∧ actionByte base 7 0 % 8 = 0) ∧
       actionByte (action [3, 31] base) 7 0 % 8 = 3 ∧
       (actionByte (action [4, 31, 0] base) 7 0 % 8 = 4 ∧ actionByte (action [4, 31, 0] base) 7 1 ≤ 31 ∧
         base.switches[31]? = some { on := false, lastSetter := none, expiry := none } ∧
         { base with switches := base.switches.set 31 { on := true, lastSetter := none, expiry := none } }.switches[31]? =
           some { on := true, lastSetter := none, expiry := none })) := by
  unfold HoldsDistinct; decide +kernel

/-! ### Hypotheses met: chapter 11 -/

/-- A CFG_OPEN of a settings write: no DRIVE, moving, another's transaction, a range one byte beyond the last, the
last byte, one's own transaction, and the last page of the bank. A CFG_DATA with no transaction, with another's, of a
read, beyond the count, and up to it. -/
theorem test_meets_CfgOpenAndDataAreTaken :
    (let hyp (f : Frame) (src : Source) : Prop := f.kind = 0x10 ∧ 6 ≤ f.payload.length ∧ (byteAt f.payload 0 = 1 → src = .localMaster)
     let open_ (src : Source) (s : State) : State := { s with txn := { resetTxn with state := .openWrite, opener := src } }
     Meets (air 0x10 [0, 0, 7, 3, 1, 0] known) .own (.throttle 0) (fun f t => hyp f (.throttle 0) ∧ holdsDrive t (.throttle 0) = false) ∧
      Meets (air 0x10 [0, 0, 7, 3, 1, 0] { held with pub := rolling.pub }) .own (.throttle 0) (fun f t => hyp f (.throttle 0) ∧
        holdsDrive t (.throttle 0) = true ∧ t.pub.R ≠ 0) ∧
      Meets (air 0x10 [0, 0, 7, 3, 1, 0] (open_ .localMaster held)) .own (.throttle 0) (fun f t => hyp f (.throttle 0) ∧
        t.pub.R = 0 ∧ t.txn.state ≠ .closed ∧ t.txn.opener ≠ .throttle 0) ∧
      Meets (air 0x10 [0, 0, 7, 3, 2, 0] (open_ (.throttle 0) held)) .own (.throttle 0) (fun f t => hyp f (.throttle 0) ∧ t.job = .none ∧
        t.txn.opener = .throttle 0 ∧ ¬ halfAt f.payload 2 + halfAt f.payload 4 ≤ 776) ∧
      Meets (air 0x10 [0, 1, 200, 2, 64, 0] held) .own (.throttle 0) (fun f t => hyp f (.throttle 0) ∧ t.txn.state = .closed ∧ t.job = .none ∧
        byteAt f.payload 0 = 0 ∧ byteAt f.payload 1 ≤ 1 ∧ 1 ≤ halfAt f.payload 4 ∧ halfAt f.payload 4 = 64 ∧ halfAt f.payload 2 + halfAt f.payload 4 = 776) ∧
      Meets (wired 0x10 [1, 0, 255, 63, 0, 1] known) .own .localMaster (fun f t => hyp f .localMaster ∧ t.job = .none ∧ byteAt f.payload 0 = 1 ∧
        byteAt f.payload 1 = 0 ∧ halfAt f.payload 4 = 256 ∧ halfAt f.payload 2 = 16383)) ∧
    (let t_ (st : TxnState) (src : Source) (n : Nat) : State := { held with txn := { resetTxn with state := st, opener := src, start := 760, count := n, staged := List.replicate n none } }
     let hyp (f : Frame) : Prop := f.kind = 0x11 ∧ 2 ≤ f.payload.length ∧ f.payload.length ≤ 18
     let p : List Nat := [0, 0] ++ List.replicate 16 7
     Meets (air 0x11 p held) .own (.throttle 0) (fun f t => hyp f ∧ t.txn.state = .closed) ∧
      Meets (air 0x11 p (t_ .openWrite .localMaster 16)) .own (.throttle 0) (fun f t => hyp f ∧ t.txn.state ≠ .closed ∧ t.txn.opener ≠ .throttle 0) ∧
      Meets (air 0x11 p (t_ .openRead (.throttle 0) 16)) .own (.throttle 0) (fun f t => hyp f ∧ t.txn.opener = .throttle 0 ∧ t.txn.state = .openRead) ∧
      Meets (air 0x11 p (t_ .openWrite (.throttle 0) 15)) .own (.throttle 0) (fun f t => hyp f ∧ t.txn.state = .openWrite ∧
        1 ≤ (f.payload.drop 2).length ∧ t.txn.count < halfAt f.payload 0 + (f.payload.drop 2).length) ∧
      Meets (air 0x11 p (t_ .openWrite (.throttle 0) 16)) .own (.throttle 0) (fun f t => hyp f ∧ t.txn.opener = .throttle 0 ∧
        halfAt f.payload 0 + (f.payload.drop 2).length = t.txn.count ∧ t.txn.staged.length = t.txn.count) ∧
      Meets (air 0x11 [99, 0] (t_ .openWrite (.throttle 0) 16)) .own (.throttle 0) (fun f t => hyp f ∧ t.txn.opener = .throttle 0 ∧
        t.txn.state = .openWrite ∧ f.payload.drop 2 = [])) := by
  refine ⟨⟨?_, ?_, ?_, ?_, ?_, ?_⟩, ?_, ?_, ?_, ?_, ?_, ?_⟩ <;> exact meets (by decide +kernel) (by decide +kernel)

/-- A CFG_CLOSE with no transaction, with another's, of a read, of a short write, of a whole write and of a bank page, also
while a SAVE runs. -/
theorem test_meets_CfgCloseApplies :
    (let t_ (st : TxnState) (src : Source) (g : TxnTarget) (l : List (Option Byte)) : State :=
       { held with txn := { resetTxn with state := st, opener := src, target := g, start := 42, count := l.length, staged := l } }
     Meets (air 0x12 [] held) .own (.throttle 0) (fun f t => f.kind = 0x12 ∧ t.txn.state = .closed) ∧
      Meets (air 0x12 [] (t_ .openWrite .localMaster .settings [])) .own (.throttle 0) (fun f t => f.kind = 0x12 ∧ t.txn.state ≠ .closed ∧ t.txn.opener ≠ .throttle 0) ∧
      Meets (air 0x12 [] (t_ .openRead (.throttle 0) .settings [none])) .own (.throttle 0) (fun f t => f.kind = 0x12 ∧ t.txn.opener = .throttle 0 ∧ t.txn.state = .openRead) ∧
      Meets (air 0x12 [] (t_ .openWrite (.throttle 0) .settings [some 1, none])) .own (.throttle 0) (fun f t => f.kind = 0x12 ∧
        t.txn.opener = .throttle 0 ∧ t.txn.state = .openWrite ∧ ¬ ∀ x ∈ t.txn.staged, x.isSome = true) ∧
      Meets (air 0x12 [] (t_ .openWrite (.throttle 0) .settings [some 1, some 5])) .own (.throttle 0) (fun f t => f.kind = 0x12 ∧
        t.txn.opener = .throttle 0 ∧ t.txn.state = .openWrite ∧ (∀ x ∈ t.txn.staged, x.isSome = true) ∧ t.txn.target = .settings) ∧
      Meets (wired 0x12 [] (t_ .openWrite .localMaster .bank [some 1])) .own .localMaster (fun f t => f.kind = 0x12 ∧
        t.txn.opener = .localMaster ∧ (∀ x ∈ t.txn.staged, x.isSome = true) ∧ t.txn.target = .bank ∧ t.job ≠ .save) ∧
      Meets (wired 0x12 [] { t_ .openWrite .localMaster .bank [some 1] with job := .save }) .own .localMaster (fun f t => f.kind = 0x12 ∧
        t.txn.opener = .localMaster ∧ t.txn.state = .openWrite ∧ (∀ x ∈ t.txn.staged, x.isSome = true) ∧ t.txn.target = .bank ∧ t.job = .save)) := by
  refine ⟨?_, ?_, ?_, ?_, ?_, ?_, ?_⟩ <;> exact meets (by decide +kernel) (by decide +kernel)

/-- A SAVE without DRIVE, during a job and with none; each store operation in progress, a page of 256 bytes among them. -/
theorem test_meets_SaveAndBankReachTheFlash :
    (Meets (air 0x13 [] known) .own (.throttle 0) (fun f t => f.kind = 0x13 ∧ holdsDrive t (.throttle 0) = false) ∧
      Meets (air 0x13 [] { held with job := .bank }) .own (.throttle 0) (fun f t => f.kind = 0x13 ∧ holdsDrive t (.throttle 0) = true ∧ t.job ≠ .none) ∧
      Meets (wired 0x13 [] known) .own .localMaster (fun f t => f.kind = 0x13 ∧ t.job = .none)) ∧
    (∀ op ∈ [FlashOp.eraseSettings, .writeImage [1, 2], .writePage 16383 (List.replicate 256 1)],
      (let s : State := { busy with port := { waiting := [], busy := some ({ who := .store, op := op, entered := 0 }, false) } }
       (Mem.wf flashBlank s.flash = true ∧ Mem.wf ramBlank s.voiceRam = true) ∧ s.phase = .running ∧
         s.port.busy = some ({ who := .store, op := op, entered := 0 }, false))) ∧
    (∀ op ∈ [FlashOp.eraseSettings, .writeImage (List.replicate 778 1), .writePage 16383 (List.replicate 256 1)],
      ∀ ph ∈ [StartPhase.loading, .running],
      (let s : State := { busy with phase := ph, port := { waiting := [], busy := some ({ who := .store, op := op, entered := 0 }, true) } }
       (Mem.wf flashBlank s.flash = true ∧ Mem.wf ramBlank s.voiceRam = true) ∧
         s.port.busy = some ({ who := .store, op := op, entered := 0 }, true))) := by
  refine ⟨⟨?_, ?_, ?_⟩, by decide +kernel, by decide +kernel⟩ <;> exact meets (by decide +kernel) (by decide +kernel)

/-- An image whose consist record is set, one clear and one neither; a byte written and one not. -/
theorem test_meets_CheckedImageObeysTheRules :
    (let img (b : List Nat) : List Byte := overlay factorySettings 3 (bytes b)
     (∀ b ∈ [[5, 1, 0], [0, 0, 0], [5, 0, 0], [0, 1, 0]], (img b).length = 776) ∧
       (1 ≤ byteAt (img [5, 1, 0]) 3 ∧ byteAt (img [5, 1, 0]) 4 ≤ 3) ∧ (byteAt (img [0, 0, 0]) 3 = 0 ∧ wordAt (img [0, 0, 0]) 6 = 0) ∧
       (byteAt (img [5, 0, 0]) 3 = 5 ∧ byteAt (img [5, 0, 0]) 4 = 0) ∧ inRange 42 4 45 = true ∧ inRange 42 4 46 = false) := by decide +kernel

/-- A changed effect, chuff source, setpoint, sample period, silence limit and forget time; an image like the one before. -/
theorem test_meets_InstalledSettingsReachTheBlocks :
    (let img (i : Nat) (b : List Nat) : List Byte := overlay base.settings i (bytes b)
     let lay (i : Nat) (b : List Nat) : State := { base with settings := img i b }
     (∀ x ∈ [(160, [3]), (71, [1]), (224, [200]), (706, [2]), (10, [79]), (12, [11])], set8 (lay x.1 x.2) x.1 ≠ set8 base x.1) ∧
       set8 (lay 10 [79]) 10 < set8 base 10 ∧ set8 (lay 12 [11]) 12 < set8 base 12 ∧ base.throttles.length = 16 ∧
       (consistReversed (lay 224 [200]) = consistReversed base ∧ asked (lay 224 [200]) 41 = asked base 41) ∧
       base.outputs[7]? = some (resetOutput 7) ∧ set8 base (160 + 8 * 7) ≤ 4) := by decide +kernel

/-- R135, R168: a setpoint written while the chamber is READY changes no state before the next smoke period. -/
theorem test_setpoint_waits :
    (let s : State := { withSettings 224 [230, 0] base with
       switches := base.switches.set 4 { on := true, lastSetter := none, expiry := none }
       smoke := { resetSmoke with state := .ready, temp := some 215, demand := 240, fan := .puff, puffEnd := some 9 } }
     let t := settingsInstalled s { s with settings := overlay s.settings 224 (bytes [44, 1]) }
     (t.smoke.state, t.smoke.demand, t.smoke.fan, t.smoke.limit) = (.ready, 240, .puff, 360) ∧ (after (.smokePeriod 215) t).smoke.state = .heating) := by
  decide +kernel

/-- R173, R175: a SAVE begun while voice 0 alone waits for flash makes it IDLE, and the erase starts at once. -/
theorem test_save_starts_at_once :
    (let r : FlashRequest := { who := .voice 0, op := .read 4500 4, entered := 0 }
     let s := withVoice 0 { sounding .prime 1 hiss single 0 with nextPhase := some .attack } { stage with port := { waiting := [r], busy := none } }
     (after .save (wired 0x13 [] s)).port = { waiting := [], busy := some ({ who := .store, op := .eraseSettings, entered := 0 }, false) }) := by
  decide +kernel

theorem test_meets_ClearFaultsClears :
    ((known.faults[0]? = some clearFaultRecord ∧ clearFaultRecord.status = .clear) ∧
      { clearFaultRecord with status := .latched, count := 255 }.status = .latched) ∧
    Meets (air 0x22 [] known) .own (.throttle 0) (fun f t => f.kind = 0x22 ∧ holdsDrive t (.throttle 0) = false) ∧
      Meets (air 0x22 [] held) .own (.throttle 0) (fun f t => f.kind = 0x22 ∧ holdsDrive t (.throttle 0) = true) ∧
      Meets (wired 0x22 [] known) .own .localMaster (fun f _ => f.kind = 0x22) := by
  refine ⟨by decide +kernel, ?_, ?_, ?_⟩ <;> exact meets (by decide +kernel) (by decide +kernel)

/-- An idle port and a busy one; a reset due, one whose reply still waits, and none asked for. -/
theorem test_meets_ResetsKeepWhatTheyKeep :
    (let r (b : Bool) : OutFrame := { port := .localLine, body := [], isReset := b }
     let s (b : Bool) : State := { base with resetWait := true, replies := [r false, r b] }
     base.port.busy = none ∧ State.reset.port.busy = some (startUpRead 0, false) ∧ base.resetWait = false ∧ (s true).resetWait = true ∧
       (∀ x ∈ (s false).replies, x.isReset = false) ∧ (∃ x ∈ (s true).replies, x.isReset = true)) := by decide +kernel

/-- The start-up read in progress, at the good level and just below it. -/
theorem test_meets_StartUpLoadInstalls :
    State.reset.port.busy = some ({ who := .startUp, op := .read 0 778, entered := 0 }, false) ∧
      set16 (after (.settingsLoadComplete false 12000 0) State.reset) 232 ≤ 12000 ∧
      11999 < set16 (after (.settingsLoadComplete false 11999 0) State.reset) 232 := by decide +kernel

/-! ### Further commands -/

/-- Section 10.7: a burst of the station beacon is taught to slot 2. -/
theorem test_learn :
    (let armed := after .learn (wired 0x30 [2] base)
     let list : List CaptureEntry := [⟨.high, 30⟩, ⟨.low, 10⟩, ⟨.high, 10⟩, ⟨.low, 20⟩, ⟨.high, 5⟩]
     let s := { armed with beacon := { armed.beacon with state := .learnCapture, runLen := 1590, capture := list } }
     let heard := after (.burstEnd (lineOf [(.low, 10)])) s
     let quiet := { heard with beacon := { heard.beacon with runLen := 1590 } }
     (List.range 10).map (slotByte heard 2) = [5, 2, 0, 0, 0, 128 + 30, 10, 128 + 10, 20, 128 + 5] ∧ heard.unsaved = true ∧
       heard.beacon.learn.entries = 5 ∧ (after (.captureQuiet (lineOf [(.low, 10)])) quiet).beacon.state = .idle) := by decide +kernel

/-- Section 2.5's shuttle: the dwell ends with the direction reversed and BEACON as last writer. -/
theorem test_dwell :
    (let s : State := { base with partTime := 45000, holds := [beaconStop .dwell (.atTime 45000) true], demand := { base.demand with step := 90 } }
     let t := after .dwellExpiry s
     t.holds = [] ∧ t.demand = { step := 90, commanded := .rev, applied := .rev, pending := false, lastWriter := some .beacon }) := by
  decide +kernel

/-- R90: a RESET waits for its reply, takes no further frame, and the soft reset keeps the part time. -/
theorem test_reset :
    (let s := after .reset (wired 0x32 [] { base with partTime := 77 })
     s.resetWait = true ∧ after .softReset s = s ∧ nextTaken (onRadio (request 3 5 []) s) = none ∧
       (let t := run [.replySendStart .localLine, .replySent .localLine, .softReset] s
        t.partTime = 77 ∧ t.phase = .loading ∧ t.rateDue = 577)) := by decide +kernel

/-- R93: the transmitter sends the start byte, the length byte and the body, and no quality byte. -/
theorem test_sent_bytes :
    (let t := after (.replySendStart .radio) (after .presence (air 0x23 [] known))
     t.radio.sending.map (fun b => (b.take 2, b.length)) = some ([0x7E#8, 31#8], 33) ∧
       t.radio.sending.map (·.drop 2) = (t.replies[0]?).map (·.body) ∧ (after (.replySent .radio) t).radio.sending = none) := by decide +kernel

/-- R79: a frame byte by byte; a gap of 6 ms loses it. -/
theorem test_bytes :
    (let f := request 3 5 []
     let all := (lineBytes .radio f.body f.quality).foldl (fun s b => after (.byteArrival .radio b) s) base
     let cut := (List.range 6).foldl (fun s _ => tick s) (after (.byteArrival .radio 0x7E#8) base)
     all.radio.intake = [f] ∧ after (.frameReceived .radio f.body f.quality) base = all ∧
       (after (.byteGapTimeout .radio) cut).radio.counters.framing = 1) := by decide +kernel

/-- R121, R122, R127: a cue started from its switch plays the two samples of its clip. -/
theorem test_voice :
    (let cl : Clip := { id := 1, addr := 4500, len := 2, gain := 255, loop := none, variant := 0 }
     let s : State := { base with
       sound := { base.sound with directory := [cl], master := 256 }
       flash := [(4500, 0#8), (4501, 1#8), (4502, 0#8), (4503, 2#8)] }
     let t := momentaryStart (some 1) (withSettings (256 + 6) [4, 255, 1, 255, 255, 1] s)
     let p := after (.voiceReadComplete true) t
     (t.port.busy.map (fun b => b.1.op)) = some (.read 4500 4) ∧ (after .sampleEvent p).sound.sample = 254 ∧
       (run [.sampleEvent, .sampleEvent] p).sound.sample = 508) := by decide +kernel

/-- Section 8.9: the held overtemp limit, and the rise that follows it. -/
theorem test_overtemp :
    (let s : State := { withSettings 224 [200, 0] base with smoke := { resetSmoke with state := .ready, temp := some 295, limit := 360 }
                                                            switches := base.switches.set 4 { on := true, lastSetter := none, expiry := none } }
     (run [.smokePeriod 293, .smokePeriod 259] s).smoke.limit = 260 ∧ (run [.smokePeriod 293, .smokePeriod 259] s).smoke.state = .ready ∧
       (run [.smokePeriod 293, .smokePeriod 259, .smokePeriod 262] s).smoke.fault = some .overtemp) := by decide +kernel

/-- The tick: part time, a receiver's gap and the stable time of the cam go on (log 1). -/
theorem test_idle_step :
    (let t := tick (receiving .length 0 [] 4)
     t.partTime = 1 ∧ t.radio.rx.gap = 5 ∧ t.motor.camStable = 1 ∧ t.localLine = base.localLine) := by decide +kernel


/-- R24, R13: a period at a published standstill publishes RUNNING, the state of the period before, and is then STOPPED. -/
theorem test_published_state :
    (let s : State := { base with motor := { resetMotor with state := .running } }
     let t := after (.controlPeriod 0 0) s
     t.pub.motorState = .running ∧ t.motor.state = .stopped) := by decide +kernel

/-- R159: a slot entry of width 0 matches no captured width within the tolerance, unless its ignore bit is set. -/
theorem test_width_zero :
    (let e (w : Nat) : CaptureEntry := { level := .high, width := w }
     let s (mask : Nat) : State :=
       withSettings 480 [4, 2, mask, 0, 0, 140, 128, 140, 140] (hearing .capture true .low 0 [e 12, e 1, e 12, e 13])
     matchedSlot (s 0) = none ∧ matchedSlot (s 2) = some 0) := by decide +kernel

/-- R19, R20: the reply to an accepted CHECK shows STOPPED, with the first pulse set; the next control period is the check's
period 0, and publishes CHECK. -/
theorem test_check_starts :
    (let t := after .check (wired 0x21 [] known)
     let u := after (.controlPeriod 0 0) t
     (t.motor.state, t.motor.Da, t.motor.checkAccepted, t.motor.checkProgress) = (.stopped, 256, true, none) ∧
       (t.replies.map (fun f => byteAt f.body 27 / 4 % 8)) = [0] ∧
       (u.motor.state, u.motor.Da, u.motor.checkAccepted, u.motor.checkProgress, u.pub.motorState) = (.check, 256, false, some 1, .check)) := by
  decide +kernel

/-- R20: after a check's short with Mf at 20 or more the motor stays STOPPED in that period and is RUNNING after the next. -/
theorem test_check_short :
    (let s : State := { base with motor := { resetMotor with Da := 256, Mf := 400, state := .check, checkProgress := some 1 } }
     let t := after (.motorShort 7500) s
     let u := after (.controlPeriod 0 400) t
     (t.motor.state, t.motor.checkRecord.result) = (.stopped, .short) ∧ u.motor.state = .stopped ∧
       (after (.controlPeriod 0 400) u).motor.state = .running) := by decide +kernel

/-- The cues that voices play. -/
def cues (s : State) : List (Option Nat) := s.sound.voices.map (·.cue)

/-- A part whose switch 0 asks for cue 4, which a departure, a reversal and a chuff call for too. -/
def band : State := { withSettings 453 [4, 255, 4, 255, 255, 4] (withSettings 96 [9 + 4] stage) with throttles := known.throttles }

/-- R102, R116: a FUNC that asks for cue 4 starts it on a voice; the switch's expiry leaves it its last pass (R115). -/
theorem test_cue_begins :
    cues band = List.replicate 6 none ∧ cues (after .func (air 4 [0, 1, 1] band)) = some 4 :: List.replicate 5 none ∧
      (let s : State := setVoice 0 { sounding .loop 4 chime single 50 with passes := 9 } { band with
         partTime := 1000, switches := band.switches.set 0 { on := true, lastSetter := some .beacon, expiry := some 1000 } }
       (after (.momentaryExpiry 0) s).sound.voices.head?.map (·.passes) = some 1) := by decide +kernel

/-- R22, R23, R27, R117, R118: a departure, a reversal that begins, a cam chuff and a distance chuff each start cue 4; a
period with none of them starts nothing. -/
theorem test_events_sound :
    (let away : State := { band with demand := { band.demand with step := 137 } }
     let back : State := claimed .exclusive [activeItem (.throttle 0)] band
     let cam : State := { withSettings 71 [1] band with motor := { resetMotor with camLevel := .high, camStable := 5 } }
     let far : State := { band with motor := { resetMotor with Mf := 400, chuffAcc := 3900, state := .running } }
     let heard : List (Option Nat) := some 4 :: List.replicate 5 none
     cues (after (.controlPeriod 0 0) away) = heard ∧ cues (after .drive (air 3 [0, 0, 0, 1] back)) = heard ∧
       cues (after .camChuff cam) = heard ∧ cues (after (.controlPeriod 0 400) far) = heard ∧
       cues (after (.controlPeriod 0 0) band) = List.replicate 6 none) := by decide +kernel

end Sys2Proof.Tests
end

section
/-! STOP and RESUME (R31, R32): what each row makes of a request that has reached dispatch, and O19. -/

namespace Sys2Proof.Machine

/-! ### The rows STOP and RESUME -/

theorem exec_stop_eq (s : State) : exec .stop s = execStop s := rfl

theorem exec_resume_eq (s : State) : exec .resume s = execResume s := rfl

/-- An all-call never reaches dispatch: the radio port takes it apart, and the local line gives no such mark (R84, R85). -/
theorem Dispatched.mark_ne_allCall {s t : State} {f : Frame} {m : Mark} {src : Source} (h : Dispatched s f m src t) :
    m ≠ .allCall := by
  obtain ⟨which, _, hs, h⟩ := h
  cases which with
  | localLine => exact screen_local_mark hs
  | radio => exact h.1

theorem Dispatched.frontRequest_eq {s t : State} {f : Frame} {m : Mark} {src : Source} (h : Dispatched s f m src t)
    (wanted : Frame → Bool) (hw : wanted f = true) : ∃ which, frontRequest wanted s = some (which, f, m) := by
  obtain ⟨which, hn, hs, _⟩ := h
  exact ⟨which, Machine.frontRequest_eq hn hs wanted hw⟩

theorem ofKind_of_kind_eq {k : Nat} {f : Frame} (h : f.kind = k) : ofKind k f = true := beq_iff_eq.2 h

theorem exec_stop_dispatched {s t : State} {f : Frame} {m : Mark} {src : Source} (h : Dispatched s f m src t)
    (hk : f.kind = 5) : exec .stop s = .next (replied s f m src (.status .ok 0, stopTaken (some src) t)) := by
  have hw := ofKind_of_kind_eq hk
  obtain ⟨which, hf⟩ := h.frontRequest_eq (ofKind 5) hw
  have hm := h.mark_ne_allCall
  have htake : exec .stop s = .next (takeRequest (ofKind 5) actStop s) := by
    rw [exec_stop_eq, execStop, hf]
    cases m with
    | allCall => exact absurd rfl hm
    | own => rfl
    | consist => rfl
  rw [htake, takeRequest_dispatched h _ _ hw]
  rfl

theorem exec_stop_allCall {s : State} {which : Port} {f : Frame} (hn : nextTaken s = some (which, f))
    (hs : screen s which f = .matched .allCall) (hk : f.kind = 5) :
    exec .stop s = .next (stopTaken none (popIntake which s)) := by
  rw [exec_stop_eq, execStop, frontRequest_eq hn hs _ (ofKind_of_kind_eq hk)]
  rfl

theorem exec_resume_dispatched {s t : State} {f : Frame} {m : Mark} {src : Source} (h : Dispatched s f m src t)
    (hk : f.kind = 6) :
    exec .resume s = .next (replied s f m src (actResume { frame := f, mark := m, src := src } t)) := by
  rw [exec_resume_eq, execResume, takeRequest_dispatched h _ _ (ofKind_of_kind_eq hk)]

/-! ### What they do to the hold list -/

theorem stopTaken_some (src : Source) (s : State) : stopTaken (some src) s =
    installHold (plainStop (if src = .localMaster then .localMaster else .emergency) .instant) s := by
  cases src <;> rfl

/-- Removal requests for several sources leave the entries of every other source, in their order (R30). -/
theorem foldl_removeHold (srcs : List HoldSource) (s : State) :
    srcs.foldl (fun s x => removeHold x s) s = { s with holds := s.holds.filter (fun h => !srcs.contains h.source) } := by
  induction srcs generalizing s with
  | nil => simp
  | cons x xs ih =>
    have hp (h : Hold) : (!xs.contains h.source && h.source != x) = !(x :: xs).contains h.source := by
      rw [List.contains_cons, Bool.not_or, Bool.and_comm]; rfl
    rw [List.foldl_cons, ih]
    simp only [removeHold, List.filter_filter, hp]

theorem actResume_accepted {a : Asked} {s : State} {srcs : List HoldSource}
    (h : resumeRemoves (holdsDrive s a.src) a.src = some srcs) :
    actResume a s = (.status .ok 0, { s with holds := s.holds.filter (fun h => !srcs.contains h.source) }) := by
  unfold actResume
  rw [h]
  dsimp only
  rw [foldl_removeHold]

theorem actResume_refused {a : Asked} {s : State} (h : resumeRemoves (holdsDrive s a.src) a.src = none) :
    actResume a s = (.status .notHolder 0, s) := by
  unfold actResume
  rw [h]

theorem exec_resume_accepted {s t : State} {f : Frame} {m : Mark} {src : Source} {srcs : List HoldSource}
    (h : Dispatched s f m src t) (hk : f.kind = 6) (hr : resumeRemoves (holdsDrive t src) src = some srcs)
    (keeps : Hold → Bool) (hkeeps : ∀ x, keeps x = !srcs.contains x.source) :
    exec .resume s = .next (replied s f m src (.status .ok 0, { t with holds := t.holds.filter keeps })) := by
  rw [exec_resume_dispatched h hk, actResume_accepted hr, funext hkeeps]

/-! ### The statement -/

/-- Settles O19: STOP installs one hold and RESUME removes the sources of `resumeRemoves`, each in the state its
request was dispatched in; an all-call is matched before the Throttle Table. -/
theorem stopsAndResumesAreTaken : Obligations.StopsAndResumesAreTaken := by
  unfold Obligations.StopsAndResumesAreTaken
  refine ⟨fun s f hk => ⟨fun m src t hd => ?stop, fun hn hs => ?allCall⟩,
    fun s f m src t hd hk => ⟨fun i hsrc hh => ?driver, fun i hsrc hh => ?stranger, fun hsrc hh => ?localDriver,
      fun hsrc hh => ?localOnly⟩⟩
  case stop =>
    rw [exec_stop_dispatched hd hk, stopTaken_some]
    rfl
  case allCall =>
    rw [exec_stop_allCall hn hs hk]
    rfl
  case driver =>
    refine exec_resume_accepted hd hk (srcs := [.emergency, .beacon]) ?_ _ fun x => ?_
    · rw [hh, hsrc]; rfl
    · cases x.source <;> rfl
  case stranger =>
    have hr : resumeRemoves (holdsDrive t src) src = none := by rw [hh, hsrc]; rfl
    rw [exec_resume_dispatched hd hk, actResume_refused hr]
  case localDriver =>
    refine exec_resume_accepted hd hk (srcs := [.emergency, .beacon, .localMaster]) ?_ _ fun x => ?_
    · rw [hh, hsrc]; rfl
    · cases x.source <;> rfl
  case localOnly =>
    refine exec_resume_accepted hd hk (srcs := [.emergency, .localMaster]) ?_ _ fun x => ?_
    · rw [hh, hsrc]; rfl
    · cases x.source <;> rfl

end Sys2Proof.Machine
end

section
/-! DRIVE (R67, R26): what a start request of the Sound Engine reads, what the loads leave alone, what a comparison of
the two directions does (R27), and O25. -/

namespace Sys2Proof.Machine

/-! ### What a start request reads (R114 to R125) -/

/-- The surroundings `x` with the Sound Engine and the Flash Port of `s`, and with the settings, the published set and
the part time of `s`: all that a start request reads. -/
def soundIn (x s : State) : State :=
  { x with sound := s.sound, port := s.port, settings := s.settings, pub := s.pub, partTime := s.partTime }

theorem setVoice_soundIn (v : Nat) (vo : Voice) (x s : State) :
    setVoice v vo (soundIn x s) = soundIn x (setVoice v vo s) := rfl

theorem withdrawVoice_soundIn (v : Nat) (x s : State) :
    withdrawVoice v (soundIn x s) = soundIn x (withdrawVoice v s) := rfl

theorem unstack_soundIn (c : Nat) (x s : State) : unstack c (soundIn x s) = soundIn x (unstack c s) := rfl

theorem voice_soundIn (v : Nat) (x s : State) : voice (soundIn x s) v = voice s v := rfl

theorem exhaustCue_soundIn (x s : State) : exhaustCue (soundIn x s) = exhaustCue s := rfl

theorem pickPhase_soundIn (x s : State) (vo : Voice) (c : Nat) (ex : Option (Option Clip)) (l : List (CuePhase × Nat)) :
    pickPhase (soundIn x s) vo c ex l = pickPhase s vo c ex l := by
  induction l with
  | nil => rfl
  | cons a l ih =>
    unfold pickPhase
    rw [ih]
    rfl

theorem chooseVoice_soundIn (x s : State) (c : Nat) : chooseVoice (soundIn x s) c = chooseVoice s c := rfl

theorem requestFlash_soundIn (w : Requester) (op : FlashOp) (x s : State) :
    requestFlash w op (soundIn x s) = soundIn x (requestFlash w op s) := by
  have hp : (soundIn x s).port = s.port := rfl
  unfold requestFlash
  rw [hp]
  dsimp only
  split <;> rfl

theorem askRun_soundIn (v : Nat) (x s : State) : askRun v (soundIn x s) = soundIn x (askRun v s) := by
  unfold askRun
  rw [voice_soundIn]
  dsimp only
  split
  · have hv : voiceOutstanding v (soundIn x s) = voiceOutstanding v s := rfl
    rw [hv, setVoice_soundIn, requestFlash_soundIn]
    exact (apply_ite (soundIn x) _ _ _).symm
  · rfl

theorem primeVoice_soundIn (v : Nat) (ph : CuePhase) (c : Clip) (pos : Nat) (x s : State) :
    primeVoice v ph c pos (soundIn x s) = soundIn x (primeVoice v ph c pos s) := by
  unfold primeVoice
  simp only [withdrawVoice_soundIn, voice_soundIn]
  split
  · rfl
  · simp only [setVoice_soundIn, askRun_soundIn, requestFlash_soundIn, apply_ite (soundIn x)]

theorem chooseExhaust_soundIn (c : Nat) (x s : State) :
    chooseExhaust c (soundIn x s) = ((chooseExhaust c s).1, soundIn x (chooseExhaust c s).2) := by
  have hr (k : Nat) : rotateVariant (soundIn x s) k = rotateVariant s k := rfl
  have hv : exhaustVariant (soundIn x s) = exhaustVariant s := rfl
  unfold chooseExhaust
  rw [hv, hr, hr]
  split
  · rfl
  · split <;> rfl

theorem resumeFrom_soundIn (v : Nat) (stack : List StackEntry) (x s : State) :
    resumeFrom v stack (soundIn x s) = soundIn x (resumeFrom v stack s) := by
  induction stack generalizing s with
  | nil => rfl
  | cons e rest ih =>
    unfold resumeFrom
    by_cases he : (exhaustCue s == some e.cue) = true
    · simp only [exhaustCue_soundIn, he, if_true, chooseExhaust_soundIn, voice_soundIn, setVoice_soundIn,
        pickPhase_soundIn]
      split
      · exact primeVoice_soundIn _ _ _ _ _ _
      · exact ih _
    · simp only [exhaustCue_soundIn, he, Bool.false_eq_true, if_false, voice_soundIn, setVoice_soundIn, pickPhase_soundIn]
      split
      · exact primeVoice_soundIn _ _ _ _ _ _
      · exact ih _

theorem cueEnd_soundIn (v : Nat) (x s : State) : cueEnd v (soundIn x s) = soundIn x (cueEnd v s) :=
  resumeFrom_soundIn _ _ _ _

theorem startOn_soundIn (v c : Nat) (held : Bool) (ex : Option (Option Clip)) (x s : State) :
    startOn v c held ex (soundIn x s) = soundIn x (startOn v c held ex s) := by
  have hp : startPasses (soundIn x s) c held = startPasses s c held := rfl
  unfold startOn
  simp only [voice_soundIn, hp, setVoice_soundIn, pickPhase_soundIn]
  split
  · exact primeVoice_soundIn _ _ _ _ _ _
  · exact cueEnd_soundIn _ _ _

theorem freshOn_soundIn (v c : Nat) (held : Bool) (ex : Option (Option Clip)) (stack : List StackEntry) (x s : State) :
    freshOn v c held ex stack (soundIn x s) = soundIn x (freshOn v c held ex stack s) := by
  unfold freshOn
  dsimp only
  rw [← startOn_soundIn]
  rfl

theorem freshStart_soundIn (c : Nat) (held : Bool) (ex : Option (Option Clip)) (x s : State) :
    freshStart c held ex (soundIn x s) = soundIn x (freshStart c held ex s) := by
  unfold freshStart
  rw [chooseVoice_soundIn]
  split
  · exact freshOn_soundIn _ _ _ _ _ _ _
  · exact freshOn_soundIn _ _ _ _ _ _ _
  · rfl
  · rfl

theorem takeStart_soundIn (c : Nat) (held : Bool) (ex : Option (Option Clip)) (x s : State) :
    takeStart c held ex (soundIn x s) = soundIn x (takeStart c held ex s) := by
  unfold takeStart
  simp only [voice_soundIn, unstack_soundIn]
  split
  · exact startOn_soundIn _ _ _ _ _ _
  · exact freshStart_soundIn _ _ _ _ _

theorem startRequest_soundIn (c : Nat) (held : Bool) (x s : State) :
    startRequest c held (soundIn x s) = soundIn x (startRequest c held s) := by
  have hm : (soundIn x s).sound.mode = s.sound.mode := rfl
  have hp : playable (soundIn x s) c = playable s c := rfl
  unfold startRequest
  simp only [hm, hp, exhaustCue_soundIn, chooseExhaust_soundIn]
  split
  · rfl
  · split
    · split
      · exact takeStart_soundIn _ _ _ _ _
      · rfl
    · exact takeStart_soundIn _ _ _ _ _

/-- A start request reads nothing but what `soundIn` takes over. -/
theorem momentaryStart_soundIn (c : Option Nat) (x s : State) :
    momentaryStart c (soundIn x s) = soundIn x (momentaryStart c s) := by
  cases c with
  | none => rfl
  | some c => exact startRequest_soundIn c false x s

theorem eq_soundIn_trans {b s r : State} (hr : r = soundIn r s) (hs : s = soundIn s b) : r = soundIn r b := by
  rw [hs] at hr
  exact hr

theorem momentaryStart_heard (c : Option Nat) {b s : State} (hs : s = soundIn s b) :
    (momentaryStart c s).sound = (momentaryStart c b).sound ∧ (momentaryStart c s).port = (momentaryStart c b).port := by
  rw [hs, momentaryStart_soundIn]
  exact ⟨rfl, rfl⟩

theorem momentaryStart_supply (c : Option Nat) (s : State) : (momentaryStart c s).supply = s.supply :=
  (congrArg State.supply (momentaryStart_offSound c s) :)

/-! ### What the loads do when the features or the supply state change -/

/-- The state with the Sound Engine, the Flash Port, the Smoke Controller, the Supply Supervisor and the free-value
counter blanked: all that a change of the features (R102) or a wake (R152) touches outside the Motion Controller and
the Motor Loop. -/
def State.offLoads (s : State) : State :=
  { s with
    sound := resetSound, port := { waiting := [], busy := none }, smoke := resetSmoke, supply := resetSupply,
    freeCount := 0 }

theorem offLoads_of_offSound {s t : State} (h : s.offSound = t.offSound) : s.offLoads = t.offLoads := by
  have := congrArg State.offLoads h
  exact this

theorem asked_of_offLoads {s t : State} (h : s.offLoads = t.offLoads) : asked s = asked t := by
  have := congrArg asked h
  exact this

theorem fanOnEntry_offLoads (st : SmokeState) (s : State) : (fanOnEntry st s).offLoads = s.offLoads := by
  unfold fanOnEntry
  split
  · rfl
  · rfl
  · rfl
  · split <;> rfl
  · split <;> rfl

theorem enterSmoke_offLoads (st : SmokeState) (s : State) : (enterSmoke st s).offLoads = s.offLoads := by
  have h : ∀ u : State, State.offLoads (applyHeater { u with
      smoke := { u.smoke with demand := heaterDemand u st }
      freeCount := if u.smoke.temp.isNone then u.freeCount + 1 else u.freeCount }) = u.offLoads := fun _ => rfl
  unfold enterSmoke
  dsimp only
  rw [h]
  split
  · rfl
  · exact fanOnEntry_offLoads st _

theorem smokeDecide_offLoads (s : State) : (smokeDecide s).offLoads = s.offLoads := by
  unfold smokeDecide
  dsimp only
  split
  · rfl
  · split
    · rfl
    · exact enterSmoke_offLoads _ _

theorem cueChange_offLoads (was is : Bool) (c : Nat) (s : State) : (cueChange was is c s).offLoads = s.offLoads := by
  unfold cueChange
  split
  · exact offLoads_of_offSound (triggerEnd_offSound _ _)
  · split
    · exact offLoads_of_offSound (startRequest_offSound _ _ _)
    · rfl

/-- What a change of the features from `old` to `s` does to the demand: a brake that goes on sets the step to 0 (R37). -/
def braked (old s : State) : State :=
  if asked old 42 = false ∧ asked s 42 = true then { s with demand := { s.demand with step := 0 } } else s

theorem featureEvents_offLoads (old s : State) : (featureEvents old s).offLoads = (braked old s).offLoads := by
  have hcues (was is : Bool) (l : List Nat) (u : State) :
      (l.foldl (fun s c => cueChange was is c s) u).offLoads = u.offLoads :=
    foldl_keeps State.offLoads _ (fun a c => cueChange_offLoads was is c a) l u
  have hsmoke (b : Bool) (u : State) : State.offLoads (if b = true then smokeDecide u else u) = u.offLoads := by
    split
    · exact smokeDecide_offLoads u
    · rfl
  have hbrake (u : State) : (brakeOn u).offLoads = { u.offLoads with demand := { u.offLoads.demand with step := 0 } } :=
    offLoads_of_offSound (momentaryStart_offSound _ _)
  unfold featureEvents braked
  dsimp only
  rw [hsmoke]
  by_cases hb : asked old 42 = false ∧ asked s 42 = true
  · have hb' : (!asked old featBrake && asked s featBrake) = true := by
      simpa [featBrake] using hb
    rw [if_pos hb, if_pos hb', hbrake, hcues, hcues]
    rfl
  · have hb' : ¬ (!asked old featBrake && asked s featBrake) = true := by
      simpa [featBrake] using hb
    rw [if_neg hb, if_neg hb', hcues, hcues]

/-- No feature changes, so no event is given (R102). -/
theorem featureEvents_same {old s : State} (h : asked s = asked old) : featureEvents old s = s := by
  unfold featureEvents
  simp [h]

theorem soundSupplyChange_offLoads (s : State) : (soundSupplyChange s).offLoads = s.offLoads :=
  offLoads_of_offSound (soundSupplyChange_offSound s)

/-- A wake (R152) leaves the Motion Controller and the Motor Loop alone. -/
theorem activity_offLoads (s : State) : (activity s).offLoads = s.offLoads := by
  unfold activity
  dsimp only
  split
  next hp =>
    simp only [changeSupply, hp, supplyEntry, loadsReact, if_true, reduceCtorEq, if_false, false_and,
      soundSupplyChange_offLoads, smokeDecide_offLoads]
    rfl
  next => rfl

theorem activity_awake {s : State} (h : s.supply.state ≠ .parked) :
    activity s = { s with supply := { s.supply with lastActivity := s.partTime } } := by
  unfold activity
  exact if_neg h

/-! ### The wanted and the applied direction (R27) -/

/-- A flip to `d` before the features follow it: what R12 and R21 ask of the demand and of the Motor Loop. -/
def turned (d : Dir) (s : State) : State :=
  abandonCheck { s with
    demand := { s.demand with applied := d, pending := false }
    motor := { s.motor with I := 0, rising := 0, falling := 0 } }

theorem flipApplied_eq (d : Dir) (s : State) : flipApplied d s = featureEvents s (turned d s) := rfl

theorem turned_eq (d : Dir) (s : State) : ∃ m : Motor,
    turned d s = { s with demand := { s.demand with applied := d, pending := false }, motor := m } ∧
      m.I = 0 ∧ m.rising = 0 ∧ m.falling = 0 ∧ m.state ≠ .check := by
  unfold turned abandonCheck
  split
  next => exact ⟨_, rfl, rfl, rfl, rfl, nofun⟩
  next hc =>
    refine ⟨_, rfl, rfl, rfl, rfl, fun h => hc ?_⟩
    exact Bool.or_eq_true_iff.2 (.inl (beq_iff_eq.2 h))

theorem pubStands_iff (s : State) : pubStands s = true ↔ s.pub.R = 0 ∧ s.pub.Mf < 20 := by
  simp [pubStands]

/-- What a comparison of the two directions makes of `s` (R27), up to the loads: the wanted direction is applied at a
published standstill and is pending else, while the two differ. -/
structure Reconciled (s u : State) : Prop where
  commanded : u.demand.commanded = s.demand.commanded
  lastWriter : u.demand.lastWriter = s.demand.lastWriter
  applied : u.demand.applied = if s.pub.R = 0 ∧ s.pub.Mf < 20 then wantedDir s else s.demand.applied
  pending : u.demand.pending = true ↔ wantedDir s ≠ u.demand.applied
  step : u.demand.step = if asked s 42 = false ∧ asked u 42 = true then 0 else s.demand.step
  kept : u.demand.applied = s.demand.applied → u.motor = s.motor
  cleared : u.demand.applied ≠ s.demand.applied →
    u.motor.I = 0 ∧ u.motor.rising = 0 ∧ u.motor.falling = 0 ∧ u.motor.state ≠ .check
  holds : u.holds = s.holds
  switches : u.switches = s.switches
  settings : u.settings = s.settings

theorem Reconciled.of_offLoads {s u v : State} (h : Reconciled s u) (hv : v.offLoads = u.offLoads) : Reconciled s v := by
  have hd : v.demand = u.demand := (congrArg State.demand hv :)
  have hm : v.motor = u.motor := (congrArg State.motor hv :)
  have ha : asked v = asked u := asked_of_offLoads hv
  refine ⟨?_, ?_, ?_, ?_, ?_, ?_, ?_, (congrArg State.holds hv :).trans h.holds,
    (congrArg State.switches hv :).trans h.switches, (congrArg State.settings hv :).trans h.settings⟩
  all_goals rw [hd]
  · exact h.commanded
  · exact h.lastWriter
  · exact h.applied
  · exact h.pending
  · rw [ha]; exact h.step
  · rw [hm]; exact h.kept
  · rw [hm]; exact h.cleared

/-- No turn: the applied direction stands, whether the wanted one agrees or has to wait. -/
theorem reconciled_unturned {s : State} {p : Bool} (hp : p = true ↔ wantedDir s ≠ s.demand.applied)
    (hw : s.pub.R = 0 ∧ s.pub.Mf < 20 → wantedDir s = s.demand.applied) :
    Reconciled s { s with demand := { s.demand with pending := p } } where
  commanded := rfl
  lastWriter := rfl
  applied := by
    split
    next h => exact (hw h).symm
    next => rfl
  pending := hp
  step := by
    have hn : ¬ (asked s 42 = false ∧ asked s 42 = true) := by simp
    exact (if_neg hn).symm
  kept := fun _ => rfl
  cleared := fun h => absurd rfl h
  holds := rfl
  switches := rfl
  settings := rfl

theorem reconciled_braked_turned {s : State} (hs : s.pub.R = 0 ∧ s.pub.Mf < 20) (hw : wantedDir s ≠ s.demand.applied) :
    Reconciled s (braked s (turned (wantedDir s) s)) := by
  obtain ⟨m, ht, hm⟩ := turned_eq (wantedDir s) s
  rw [ht]
  unfold braked
  split
  next hb =>
    exact ⟨rfl, rfl, (if_pos hs).symm, by simp, (if_pos hb).symm, fun h => absurd h hw, fun _ => hm, rfl, rfl, rfl⟩
  next hb =>
    exact ⟨rfl, rfl, (if_pos hs).symm, by simp, (if_neg hb).symm, fun h => absurd h hw, fun _ => hm, rfl, rfl, rfl⟩

/-- The reversal's motion event is given to the Sound Engine alone (R117). -/
theorem reversalEvent_offLoads (agreed : Bool) (c : Option Nat) (s : State) :
    State.offLoads (if agreed = true then momentaryStart c s else s) = s.offLoads := by
  split
  · exact offLoads_of_offSound (momentaryStart_offSound c s)
  · rfl

/-- What `reconcile` does first where the directions differ: a flip, or a reversal that waits (R27). -/
def turnedOrWaiting (s : State) : State :=
  if pubStands s = true then flipApplied (wantedDir s) s else { s with demand := { s.demand with pending := true } }

theorem reconcile_agrees {s : State} (agreed : Bool) (hw : wantedDir s = s.demand.applied) :
    reconcile agreed s = { s with demand := { s.demand with pending := false } } := if_pos hw

theorem reconcile_differs {s : State} (agreed : Bool) (hw : wantedDir s ≠ s.demand.applied) :
    reconcile agreed s =
      if agreed = true then momentaryStart (namedCue (set8 s 455)) (turnedOrWaiting s) else turnedOrWaiting s :=
  if_neg hw

theorem reconcile_reconciled (agreed : Bool) (s : State) : Reconciled s (reconcile agreed s) := by
  by_cases hw : wantedDir s = s.demand.applied
  · rw [reconcile_agrees agreed hw]
    exact reconciled_unturned (by simp [hw]) fun _ => hw
  · rw [reconcile_differs agreed hw]
    refine Reconciled.of_offLoads ?_ (reversalEvent_offLoads agreed _ _)
    unfold turnedOrWaiting
    split
    next hs => exact (reconciled_braked_turned ((pubStands_iff s).1 hs) hw).of_offLoads (featureEvents_offLoads s _)
    next hs => exact reconciled_unturned (by simp [hw]) fun h => absurd ((pubStands_iff s).2 h) hs

/-- A flip that changes no feature gives no event. -/
theorem flipApplied_of_asked_same {d : Dir} {s : State} (h : asked (flipApplied d s) = asked s) :
    flipApplied d s = turned d s := by
  have hb : asked (braked s (turned d s)) = asked (turned d s) := by
    unfold braked
    split <;> rfl
  have hf : asked (flipApplied d s) = asked (turned d s) := (asked_of_offLoads (featureEvents_offLoads s _)).trans hb
  rw [flipApplied_eq, featureEvents_same (hf.symm.trans h)]

theorem turnedOrWaiting_of_asked_same {s : State} (h : asked (turnedOrWaiting s) = asked s) :
    turnedOrWaiting s = soundIn (turnedOrWaiting s) s ∧ (turnedOrWaiting s).supply = s.supply := by
  unfold turnedOrWaiting at h ⊢
  by_cases hs : pubStands s = true
  · rw [if_pos hs] at h ⊢
    obtain ⟨m, ht, -⟩ := turned_eq (wantedDir s) s
    rw [flipApplied_of_asked_same h, ht]
    exact ⟨rfl, rfl⟩
  · rw [if_neg hs]
    exact ⟨rfl, rfl⟩

/-- Where no feature changes, the Sound Engine takes the reversal that begins and nothing else (R117): what it takes is
read off any `b` that agrees with `s` in what a start request reads. -/
theorem reconcile_heard {agreed : Bool} {b s : State} (hb : s = soundIn s b)
    (h : asked (reconcile agreed s) = asked s) :
    (reconcile agreed s).supply = s.supply ∧
      (let x := if agreed = true ∧ wantedDir s ≠ s.demand.applied then momentaryStart (namedCue (set8 s 455)) b else b
       (reconcile agreed s).sound = x.sound ∧ (reconcile agreed s).port = x.port) := by
  by_cases hw : wantedDir s = s.demand.applied
  · rw [reconcile_agrees agreed hw, if_neg (not_and_of_not_right _ (not_not_intro hw))]
    exact ⟨rfl, (congrArg State.sound hb :), (congrArg State.port hb :)⟩
  · have hrec := reconcile_differs agreed hw
    rw [hrec, asked_of_offLoads (reversalEvent_offLoads agreed _ _)] at h
    obtain ⟨hsound, hsupply⟩ := turnedOrWaiting_of_asked_same h
    have hsound := eq_soundIn_trans hsound hb
    rw [hrec]
    cases agreed with
    | true =>
      rw [if_pos rfl, if_pos ⟨rfl, hw⟩]
      exact ⟨(momentaryStart_supply _ _).trans hsupply, momentaryStart_heard _ hsound⟩
    | false =>
      rw [if_neg Bool.false_ne_true, if_neg (not_and_of_not_left _ Bool.false_ne_true)]
      exact ⟨hsupply, (congrArg State.sound hsound :), (congrArg State.port hsound :)⟩

/-! ### An accepted DRIVE is stored (R26) -/

/-- The state a stored DRIVE leaves before its direction is compared with the applied one (R26). -/
def driveWritten (step : Nat) (d : Dir) (src : Source) (s : State) : State :=
  { s with
    demand := { s.demand with step := min 250 step, commanded := d, lastWriter := some (.source src) }
    holds := if step = 0 then s.holds.filter (fun h => h.source != .emergency) else s.holds }

theorem driveStored_eq (step : Nat) (d : Dir) (src : Source) (s : State) :
    driveStored step d src s = activity (reconcile (dirAgrees s) (driveWritten step d src s)) := by
  have h0 : min 250 step = 0 ↔ step = 0 := by omega
  unfold driveStored driveWritten
  simp only [h0]
  split <;> rfl

theorem driveStored_reconciled (step : Nat) (d : Dir) (src : Source) (s : State) :
    Reconciled (driveWritten step d src s) (driveStored step d src s) := by
  rw [driveStored_eq]
  exact (reconcile_reconciled _ _).of_offLoads (activity_offLoads _)

theorem Reconciled.wantedDir_eq {s u : State} (h : Reconciled s u) : wantedDir u = wantedDir s := by
  unfold wantedDir consistReversed set8
  rw [h.commanded, h.settings]

/-- A DRIVE that changes no feature and wakes no part gives the Sound Engine just the reversal that begins (R117). -/
theorem driveStored_heard {step : Nat} {d : Dir} {src : Source} {b s : State} (hb : s = soundIn s b)
    (hp : s.supply.state ≠ .parked) (ha : asked (driveStored step d src s) = asked s) :
    let x := if wantedDir s = s.demand.applied ∧ wantedDir (driveStored step d src s) ≠ s.demand.applied
      then momentaryStart (namedCue (set8 s 455)) b else b
    (driveStored step d src s).sound = x.sound ∧ (driveStored step d src s).port = x.port := by
  rw [(driveStored_reconciled step d src s).wantedDir_eq]
  rw [driveStored_eq] at ha ⊢
  rw [asked_of_offLoads (activity_offLoads _)] at ha
  have hw : driveWritten step d src s = soundIn (driveWritten step d src s) b := eq_soundIn_trans rfl hb
  obtain ⟨hsupply, hheard⟩ := reconcile_heard hw ha
  rw [activity_awake (by rw [hsupply]; exact hp)]
  simp only [dirAgrees, beq_iff_eq] at hheard
  exact hheard

/-! ### The row DRIVE (R67) -/

theorem exec_drive_eq (s : State) : exec .drive s = execDrive s := rfl

theorem exec_drive_dispatched {s t : State} {f : Frame} {m : Mark} {src : Source} (h : Dispatched s f m src t)
    (hk : f.kind = 3) (hl : 4 ≤ f.payload.length) :
    exec .drive s = .next (replied s f m src
      (plain (driveTaken m (halfAt f.payload 0) (byteAt f.payload 2) (byteAt f.payload 3) src t))) := by
  rw [exec_drive_eq, execDrive, takeRequest_dispatched h _ _ (ofKind_of_kind_eq hk), withPayload, if_neg (by simpa using hl)]
  rfl

theorem plain_mk (r : Result) (s : State) : plain (r, s) = (.status r 0, s) := rfl

theorem driveTaken_refused {m : Mark} {gen step dir : Nat} {src : Source} {s : State} {r : Result}
    (h : driveRefusal m gen dir src s = some r) : driveTaken m gen step dir src s = (r, s) := by
  unfold driveTaken
  rw [h]

theorem driveTaken_accepted {m : Mark} {gen step dir : Nat} {src : Source} {s : State}
    (h : driveRefusal m gen dir src s = none) :
    driveTaken m gen step dir src s =
      (if 250 < step then .clamped else .ok,
        driveStored step (if dir = 1 then .rev else .fwd) src
          { s with drive := { s.drive with generation := nextGeneration s.drive.generation } }) := by
  unfold driveTaken
  rw [h]

section
variable {m : Mark} {gen dir : Nat} {src : Source} {s : State}

theorem driveRefusal_wrongAddress (hw : consistSet s = true ∧ m = .own) :
    driveRefusal m gen dir src s = some .wrongAddress := by
  simp [driveRefusal, hw]

theorem driveRefusal_notHolder (hw : ¬ (consistSet s = true ∧ m = .own)) (hh : holdsDrive s src = false) :
    driveRefusal m gen dir src s = some .notHolder := by
  simp [driveRefusal, hw, hh]

theorem driveRefusal_range (hw : ¬ (consistSet s = true ∧ m = .own)) (hh : holdsDrive s src = true) (hd : 1 < dir) :
    driveRefusal m gen dir src s = some .range := by
  simp [driveRefusal, hw, hh, hd]

theorem driveRefusal_stale (hw : ¬ (consistSet s = true ∧ m = .own)) (hh : holdsDrive s src = true) (hd : dir ≤ 1)
    (hg : ¬ ((s.drive.mode = .exclusive ∧ gen = 0) ∨ gen = s.drive.generation)) :
    driveRefusal m gen dir src s = some .stale := by
  obtain ⟨hx, hc⟩ := not_or.1 hg
  simp [driveRefusal, hw, hh, Nat.not_lt.2 hd, hx, hc]

theorem driveRefusal_accepted (hw : ¬ (consistSet s = true ∧ m = .own)) (hh : holdsDrive s src = true) (hd : dir ≤ 1)
    (hg : (s.drive.mode = .exclusive ∧ gen = 0) ∨ gen = s.drive.generation) :
    driveRefusal m gen dir src s = none := by
  by_cases hx : s.drive.mode = .exclusive ∧ gen = 0
  · simp [driveRefusal, hw, hh, Nat.not_lt.2 hd, hx]
  · simp [driveRefusal, hw, hh, Nat.not_lt.2 hd, hg.resolve_left hx]

end

theorem exec_drive_refused {s t : State} {f : Frame} {m : Mark} {src : Source} {r : Result} (h : Dispatched s f m src t)
    (hk : f.kind = 3) (hl : 4 ≤ f.payload.length)
    (hr : driveRefusal m (halfAt f.payload 0) (byteAt f.payload 3) src t = some r) :
    exec .drive s = .next (replied s f m src (.status r 0, t)) := by
  rw [exec_drive_dispatched h hk hl, driveTaken_refused hr, plain_mk]

theorem exec_drive_accepted {s t : State} {f : Frame} {m : Mark} {src : Source} (h : Dispatched s f m src t)
    (hk : f.kind = 3) (hl : 4 ≤ f.payload.length)
    (hr : driveRefusal m (halfAt f.payload 0) (byteAt f.payload 3) src t = none) :
    exec .drive s = .next (replied s f m src (.status (if 250 < byteAt f.payload 2 then .clamped else .ok) 0,
      driveStored (byteAt f.payload 2) (if byteAt f.payload 3 = 1 then .rev else .fwd) src
        { t with drive := { t.drive with generation := nextGeneration t.drive.generation } })) := by
  rw [exec_drive_dispatched h hk hl, driveTaken_accepted hr, plain_mk]

/-! ### The statement -/

/-- Settles O25: the refusals by the branches of `driveRefusal`; an accepted DRIVE by what a stored DRIVE is
(`driveStored_reconciled`) and what the Sound Engine takes from it (`driveStored_heard`). -/
theorem driveIsJudgedAndStored : Obligations.DriveIsJudgedAndStored := by
  unfold Obligations.DriveIsJudgedAndStored
  intro s f m src t hd hk hl
  refine ⟨fun hw => ?wrong, fun hw hh => ?stranger, fun hw hh hdir => ?range, fun hw hh hdir hg => ?stale,
    fun hw hh hdir hg => ?accepted⟩
  case wrong => exact exec_drive_refused hd hk hl (driveRefusal_wrongAddress hw)
  case stranger => exact exec_drive_refused hd hk hl (driveRefusal_notHolder hw hh)
  case range => exact exec_drive_refused hd hk hl (driveRefusal_range hw hh hdir)
  case stale => exact exec_drive_refused hd hk hl (driveRefusal_stale hw hh hdir hg)
  case accepted =>
    have hexec := exec_drive_accepted hd hk hl (driveRefusal_accepted hw hh hdir hg)
    -- The state reached is kept opaque: what is said of it comes from the three lemmas about `driveStored` alone.
    generalize byteAt f.payload 2 = step at hexec ⊢
    generalize (if byteAt f.payload 3 = 1 then Dir.rev else Dir.fwd) = d at hexec ⊢
    generalize ht' : ({ t with drive := { t.drive with generation := nextGeneration t.drive.generation } } : State) = t'
      at hexec
    have hR := driveStored_reconciled step d src t'
    have hview := driveStored_offLoco step d src t'
    have hheard := driveStored_heard (step := step) (d := d) (src := src) (b := t) (s := t')
    generalize driveStored step d src t' = u at hexec hR hview hheard
    subst ht'
    have hwanted : wantedDir u = wantedDir _ := hR.wantedDir_eq
    refine ⟨u, hexec, (congrArg State.drive hview :), hR.step, hR.commanded, hR.lastWriter, ?pending, ?applied, hR.kept,
      hR.cleared, hR.holds, (congrArg State.groups hview :), (congrArg State.throttles hview :), hR.switches, hR.settings,
      ?sound, (congrArg State.flash hview :), (congrArg State.voiceRam hview :)⟩
    case pending => rw [hwanted]; exact hR.pending
    case applied => rw [hwanted]; exact hR.applied
    case sound =>
      intro hp hasked
      exact hheard rfl hp (funext hasked)

end Sys2Proof.Machine
end

section
/-! What a command can do: one inversion of `exec`, and what taking a request comes to. Every invariant below is
settled by a case split over `Effect`. -/

namespace Sys2Proof.Machine

/-! ### The owners that decide a request -/

/-- The decision of one request row, with the refusal of a short payload before it (R86, R87). The rows that read only
(PRESENCE, the QUERYs, an unknown kind) are one case. -/
inductive Row : (Asked → State → Answer × State) → Prop where
  | claim : Row (withPayload 3 actClaim)
  | release : Row (withPayload 1 actRelease)
  | drive : Row (withPayload 4 actDrive)
  | func : Row (withPayload 3 actFunc)
  | stop : Row actStop
  | resume : Row actResume
  | consist : Row (withPayload 7 actConsist)
  | cfgOpen : Row (withPayload 6 actCfgOpen)
  | cfgData : Row (withPayload 2 actCfgData)
  | cfgClose : Row actCfgClose
  | save : Row actSave
  | check : Row actCheck
  | clearFaults : Row actClearFaults
  | learn : Row (withPayload 1 actLearn)
  | outputLocal : Row (withPayload 3 actOutputLocal)
  | reset : Row actReset
  | reads {act : Asked → State → Answer × State} (h : ∀ a s, (act a s).2 = s ∨ (act a s).2 = spendFree s) : Row act

theorem actQuery_snd (last : Nat) (report : State → Nat → List Byte) (p : List Byte) (a : Asked) (s : State) :
    (actQuery last report p a s).2 = s := by
  unfold actQuery
  dsimp only
  split <;> rfl

theorem actQueryStatus_snd (p : List Byte) (a : Asked) (s : State) : (actQueryStatus p a s).2 = s := by
  unfold actQueryStatus
  split
  · rfl
  · exact actQuery_snd _ _ _ _ _

theorem actQueryCheck_snd (p : List Byte) (a : Asked) (s : State) :
    (actQueryCheck p a s).2 = s ∨ (actQueryCheck p a s).2 = spendFree s := by
  unfold actQueryCheck
  dsimp only
  split
  · exact .inr (congrArg spendFree (actQuery_snd _ _ _ _ _))
  · exact .inl (actQuery_snd _ _ _ _ _)

theorem Row.readsPayload {len : Nat} {act : List Byte → Asked → State → Answer × State}
    (h : ∀ p a s, (act p a s).2 = s ∨ (act p a s).2 = spendFree s) : Row (withPayload len act) :=
  .reads fun a s => by
    unfold withPayload
    split
    · exact .inl rfl
    · exact h _ _ _

theorem Row.query (last : Nat) (report : State → Nat → List Byte) : Row (withPayload 1 (actQuery last report)) :=
  .readsPayload fun _ _ _ => .inl (actQuery_snd _ _ _ _ _)

/-! ### The effects of the commands -/

/-- What a command can make of `s`. -/
inductive Effect (s : State) : State → Prop where
  | none : Effect s s
  | powerOn : Effect s (powerOn s)
  | softReset (h : softResetDue s = true) : Effect s (softReset s)
  | startUp (ok : Bool) (vt vs : Nat) (r : FlashRequest) (h : s.port.busy = some (r, false)) (hw : r.who = .startUp) :
      Effect s (startUpDone ok vt vs s)
  | freed (r : FlashRequest) (h : s.port.busy = some (r, true)) : Effect s (portFreed s)
  | frame (which : Port) (body : List Byte) (q : Byte) : Effect s (frameArrives which body q s)
  | byte (which : Port) (b : Byte) : Effect s (byteArrives which b s)
  | gap (which : Port) : Effect s (setPort which (portState s which).gapTimeout s)
  | request (act : Asked → State → Answer × State) (hrow : Row act) (wanted : Frame → Bool) (which : Port) (f : Frame)
      (m : Mark) (h : frontRequest wanted s = some (which, f, m)) : Effect s (handle act which f m s)
  | allCall (which : Port) : Effect s (allCallStop which s)
  | consistHold (which : Port) (f : Frame) (h : s.phase = .running) : Effect s (consistHoldTaken f.payload (popIntake which s))
  | popped (which : Port) : Effect s (popIntake which s)
  | discarded : Effect s (discardFrame s)
  | txnTimeout : Effect s (endTxn s)
  | store (ok : Bool) (r : FlashRequest) (d : Bool) (react : State → State) (h : s.port.busy = some (r, d))
      (hw : r.who = .store)
      (hr : (r.op = .eraseSettings ∧ react = eraseDone ok) ∨ ((∃ image, r.op = .writeImage image) ∧ react = imageWritten ok) ∨
        ((∃ page bytes, r.op = .writePage page bytes) ∧ react = pageWritten ok)) :
      Effect s (storeDone r.op d ok react s)
  | sendStart (which : Port) : Effect s (startSending which s)
  | sent (which : Port) : Effect s (finishSending which s)
  | rate : Effect s (rateExpires s)
  | silence (i : Nat) : Effect s (silenceIfDue i s)
  | forget (i : Nat) : Effect s (forgetIfDue i s)
  | reservation (i : Nat) : Effect s (reservationsExpire i s)
  | control (c m : Nat) (h : s.phase = .running) : Effect s (controlPeriod c m s)
  | short (c : Nat) : Effect s (shortSensed c s)
  | retry : Effect s (faultRetried s)
  | camInput (l : Level) : Effect s (camInput l s)
  | camChuff : Effect s (camChuffed s)
  | dwell : Effect s (dwellReached s)
  | budget (vt vs : Nat) (h : s.phase = .running) : Effect s (budgetPeriod vt vs s)
  | output (ma0 ma1 : Nat) : Effect s (outputPeriod ma0 ma1 s)
  | groupRetry (g : Nat) : Effect s (groupRetried g s)
  | momentary (i : Nat) : Effect s (switchExpires i s)
  | sample : Effect s (sampleEvent s)
  | volume (n : Nat) : Effect s { s with sound := { s.sound with master := n } }
  | envelope (v : Nat) (hv : v < 6) : Effect s (envelopeStep v s)
  | voiceRead (ok : Bool) (v addr len : Nat) (r : FlashRequest) (d : Bool) (h : s.port.busy = some (r, d))
      (hw : r.who = .voice v) (hop : r.op = .read addr len) : Effect s (voiceReadDone v addr len d ok s)
  | directory (ok : Bool) (r : FlashRequest) (h : s.port.busy = some (r, false)) (hw : r.who = .directory) :
      Effect s (directoryReadDone ok s)
  | flashStart : Effect s (startFlashRequest s)
  | smoke (t : Int) : Effect s (smokePeriod t s)
  | puff : Effect s (puffEnds s)
  | fan : Effect s (fanStops s)
  | line (l : List Level) (h : s.phase = .running) : Effect s (sampleEighths l s)
  | learn : Effect s (learnExpires s)

theorem Effect.ite {s t : State} {p : Prop} [Decidable p] (h : p → Effect s t) : Effect s (if p then t else s) := by
  split
  next hp => exact h hp
  next => exact .none

theorem Effect.takeRequest {act : Asked → State → Answer × State} (hrow : Row act) (wanted : Frame → Bool) (s : State) :
    Effect s (takeRequest wanted act s) := by
  unfold Machine.takeRequest
  split
  next which f m h => exact .request act hrow wanted which f m h
  next => exact .none

/-- A command answers a next state that is one of the effects. -/
def Runs (i : Instr) (s : State) : Prop := ∃ t, exec i s = .next t ∧ Effect s t

theorem runs_stop (s : State) : Runs .stop s := by
  refine ⟨_, rfl, ?_⟩
  split
  · exact .allCall _
  · exact .takeRequest .stop _ s

/-- A request is taken only after the start-up (R82, R178). -/
theorem frontRequest_running {wanted : Frame → Bool} {s : State} {which : Port} {f : Frame} {m : Mark}
    (h : frontRequest wanted s = some (which, f, m)) : s.phase = .running := by
  cases hp : s.phase with
  | running => rfl
  | loading => simp [frontRequest, nextTaken, hp] at h

theorem runs_consistHold (s : State) : Runs .consistHold s := by
  refine ⟨_, rfl, ?_⟩
  split
  next hf =>
    split
    · exact .popped _
    · exact .consistHold _ _ (frontRequest_running hf)
  · exact .none

/-! The operation in progress that a completion names decides what it does; any other changes nothing. -/

theorem runs_settingsLoadComplete (ok : Bool) (vt vs : Nat) (s : State) : Runs (.settingsLoadComplete ok vt vs) s := by
  refine ⟨_, rfl, ?_⟩
  split
  next d h =>
    cases d with
    | true => exact .freed _ h
    | false => exact .startUp ok vt vs _ h rfl
  next => exact .none

theorem runs_saveEraseComplete (ok : Bool) (s : State) : Runs (.saveEraseComplete ok) s := by
  refine ⟨_, rfl, ?_⟩
  split
  next h => exact .store ok _ _ _ h rfl (.inl ⟨rfl, rfl⟩)
  next => exact .none

theorem runs_saveWriteComplete (ok : Bool) (s : State) : Runs (.saveWriteComplete ok) s := by
  refine ⟨_, rfl, ?_⟩
  split
  next h => exact .store ok _ _ _ h rfl (.inr (.inl ⟨⟨_, rfl⟩, rfl⟩))
  next => exact .none

theorem runs_bankWriteComplete (ok : Bool) (s : State) : Runs (.bankWriteComplete ok) s := by
  refine ⟨_, rfl, ?_⟩
  split
  next h => exact .store ok _ _ _ h rfl (.inr (.inr ⟨⟨_, _, rfl⟩, rfl⟩))
  next => exact .none

theorem runs_voiceReadComplete (ok : Bool) (s : State) : Runs (.voiceReadComplete ok) s := by
  refine ⟨_, rfl, ?_⟩
  split
  next h => exact .voiceRead ok _ _ _ _ _ h rfl rfl
  next => exact .none

theorem runs_directoryReadComplete (ok : Bool) (s : State) : Runs (.directoryReadComplete ok) s := by
  refine ⟨_, rfl, ?_⟩
  split
  next d h =>
    cases d with
    | true => exact .freed _ h
    | false => exact .directory ok _ h rfl
  next => exact .none

theorem runs_capDistanceExpiry (c m : Nat) (s : State) : Runs (.capDistanceExpiry c m) s := by
  refine ⟨_, rfl, ?_⟩
  split
  · exact .ite fun h => .control c m h.1
  · exact .none

/-- Every command answers a next state, which is one of the effects. -/
theorem exec_effect (i : Instr) (s : State) : Runs i s := by
  cases i with
  | powerOnReset => exact ⟨_, rfl, .powerOn⟩
  | softReset => exact ⟨_, rfl, .ite .softReset⟩
  | settingsLoadComplete ok vt vs => exact runs_settingsLoadComplete ok vt vs s
  | frameReceived p body q => exact ⟨_, rfl, .ite fun _ => .frame p body q⟩
  | byteGapTimeout p => exact ⟨_, rfl, .gap p⟩
  | byteArrival p b => exact ⟨_, rfl, .byte p b⟩
  | claim => exact ⟨_, rfl, .takeRequest .claim _ s⟩
  | release => exact ⟨_, rfl, .takeRequest .release _ s⟩
  | drive => exact ⟨_, rfl, .takeRequest .drive _ s⟩
  | func => exact ⟨_, rfl, .takeRequest .func _ s⟩
  | stop => exact runs_stop s
  | resume => exact ⟨_, rfl, .takeRequest .resume _ s⟩
  | consist => exact ⟨_, rfl, .takeRequest .consist _ s⟩
  | cfgOpen => exact ⟨_, rfl, .takeRequest .cfgOpen _ s⟩
  | cfgData => exact ⟨_, rfl, .takeRequest .cfgData _ s⟩
  | cfgClose => exact ⟨_, rfl, .takeRequest .cfgClose _ s⟩
  | cfgTimeout => exact ⟨_, rfl, .ite fun _ => .txnTimeout⟩
  | save => exact ⟨_, rfl, .takeRequest .save _ s⟩
  | saveEraseComplete ok => exact runs_saveEraseComplete ok s
  | saveWriteComplete ok => exact runs_saveWriteComplete ok s
  | bankWriteComplete ok => exact runs_bankWriteComplete ok s
  | queryStatus => exact ⟨_, rfl, .takeRequest (.readsPayload fun p a s => .inl (actQueryStatus_snd p a s)) _ s⟩
  | queryThrottles => exact ⟨_, rfl, .takeRequest (.query _ _) _ s⟩
  | queryCounters => exact ⟨_, rfl, .takeRequest (.query _ _) _ s⟩
  | queryFaults => exact ⟨_, rfl, .takeRequest (.query _ _) _ s⟩
  | queryCheckResult => exact ⟨_, rfl, .takeRequest (.readsPayload actQueryCheck_snd) _ s⟩
  | queryLearnResult => exact ⟨_, rfl, .takeRequest (.query _ _) _ s⟩
  | querySound => exact ⟨_, rfl, .takeRequest (.query _ _) _ s⟩
  | queryFunctions => exact ⟨_, rfl, .takeRequest (.query _ _) _ s⟩
  | check => exact ⟨_, rfl, .takeRequest .check _ s⟩
  | clearFaults => exact ⟨_, rfl, .takeRequest .clearFaults _ s⟩
  | presence => exact ⟨_, rfl, .takeRequest (.reads fun _ _ => .inl rfl) _ s⟩
  | learn => exact ⟨_, rfl, .takeRequest .learn _ s⟩
  | outputLocal => exact ⟨_, rfl, .takeRequest .outputLocal _ s⟩
  | reset => exact ⟨_, rfl, .takeRequest .reset _ s⟩
  | consistHold => exact runs_consistHold s
  | discardedFrame => exact ⟨_, rfl, .discarded⟩
  | unknownKind => exact ⟨_, rfl, .takeRequest (.reads fun _ _ => .inl rfl) _ s⟩
  | replySendStart p => exact ⟨_, rfl, by split; exacts [.none, .sendStart p]⟩
  | replySent p => exact ⟨_, rfl, .ite fun _ => .sent p⟩
  | rateInterval => exact ⟨_, rfl, .ite fun _ => .rate⟩
  | silenceLimit n => exact ⟨_, rfl, .silence n⟩
  | forgetTime n => exact ⟨_, rfl, .forget n⟩
  | reservationExpiry n => exact ⟨_, rfl, .reservation n⟩
  | controlPeriod c m => exact ⟨_, rfl, .ite fun h => .control c m h⟩
  | checkComplete c m => exact ⟨_, rfl, .ite fun h => .control c m h.1⟩
  | motorShort c => exact ⟨_, rfl, .short c⟩
  | motorStall c m => exact ⟨_, rfl, .ite fun h => .control c m h.1⟩
  | motorOpen c m => exact ⟨_, rfl, .ite fun h => .control c m h.1⟩
  | faultRetry => exact ⟨_, rfl, .retry⟩
  | camInputChange l => exact ⟨_, rfl, .ite fun _ => .camInput l⟩
  | camChuff => exact ⟨_, rfl, .ite fun _ => .camChuff⟩
  | dwellExpiry => exact ⟨_, rfl, .dwell⟩
  | capDistanceExpiry c m => exact runs_capDistanceExpiry c m s
  | budgetPeriod vt vs => exact ⟨_, rfl, .ite fun h => .budget vt vs h⟩
  | rideLimit vt vs => exact ⟨_, rfl, .ite fun h => .budget vt vs h.1⟩
  | restore vt vs => exact ⟨_, rfl, .ite fun h => .budget vt vs h.1⟩
  | park vt vs => exact ⟨_, rfl, .ite fun h => .budget vt vs h.1⟩
  | outputPeriod a b => exact ⟨_, rfl, .ite fun _ => .output a b⟩
  | groupRetry g => exact ⟨_, rfl, .groupRetry g⟩
  | momentaryExpiry n => exact ⟨_, rfl, .momentary n⟩
  | sampleEvent => exact ⟨_, rfl, .ite fun _ => .sample⟩
  | volumeStep => exact ⟨_, rfl, .ite fun _ => .volume _⟩
  | envelopeStep v => exact ⟨_, rfl, .ite fun h => .envelope v h.2⟩
  | voiceReadComplete ok => exact runs_voiceReadComplete ok s
  | directoryReadComplete ok => exact runs_directoryReadComplete ok s
  | flashRequestStart => exact ⟨_, rfl, .flashStart⟩
  | smokePeriod t => exact ⟨_, rfl, .ite fun _ => .smoke t⟩
  | puffEnd => exact ⟨_, rfl, .puff⟩
  | fanStop => exact ⟨_, rfl, .fan⟩
  | burstBegin l => exact ⟨_, rfl, .ite fun h => .line l h⟩
  | burstEnd l => exact ⟨_, rfl, .ite fun h => .line l h⟩
  | captureQuiet l => exact ⟨_, rfl, .ite fun h => .line l h⟩
  | learnExpiry => exact ⟨_, rfl, .learn⟩
  | runFinished l => exact ⟨_, rfl, .ite fun h => .line l h⟩

/-- A step runs an effect of the command at the front of its queue, or lets one millisecond pass. -/
theorem step_effect {s t : State} (h : step s = .next t) :
    (s.pending = [] ∧ t = tick s) ∨ ∃ rest, Effect { s with pending := rest } t := by
  unfold step at h
  split at h
  next hp => exact .inl ⟨hp, (Host.Outcome.next.inj h).symm⟩
  next c rest hp =>
    obtain ⟨u, hu, he⟩ := exec_effect c { s with pending := rest }
    rw [hu] at h
    exact .inr ⟨rest, Host.Outcome.next.inj h ▸ he⟩

/-- An invariant that does not read the queue of commands is kept by every step when one millisecond and every effect
keep it. -/
theorem step_keeps {I : State → Prop} (hqueue : ∀ s rest, I s → I { s with pending := rest })
    (htick : ∀ s, I s → I (tick s)) (heffect : ∀ s t, I s → Effect s t → I t) {s t : State} (hs : I s)
    (h : step s = .next t) : I t := by
  obtain ⟨-, rfl⟩ | ⟨rest, he⟩ := step_effect h
  · exact htick s hs
  · exact heffect _ t (hqueue s rest hs) he

/-! ### A request is taken -/

/-- What a request goes through: it leaves its queue, passes the Throttle Table on the radio port, is decided by its
owner, and is answered. Whatever each of these keeps, taking the request keeps. -/
theorem handle_keeps {Q : State → State → Prop} (htrans : ∀ {a b c}, Q a b → Q b c → Q a c)
    (hpop : ∀ which s, Q s (popIntake which s)) (hpresent : ∀ f s, Q s (present f s).2)
    {act : Asked → State → Answer × State} (hact : ∀ a s, Q s (act a s).2)
    (hreply : ∀ draws which f path src r, Q r.2 (replyIf draws which f path src r))
    (which : Port) (f : Frame) (m : Mark) (s : State) : Q s (handle act which f m s) := by
  have hdecide (draws : Bool) (src : Source) (t : State) : Q t (decideRequest act which f m draws src t) :=
    htrans (hact ⟨f, m, src⟩ t) (hreply _ _ _ _ _ _)
  unfold handle
  cases which with
  | localLine => exact htrans (hpop .localLine s) (hdecide _ _ _)
  | radio =>
    have hp := htrans (hpop .radio s) (hpresent f _)
    dsimp only
    split
    · exact htrans hp (hdecide _ _ _)
    · exact htrans hp (hreply _ .radio f f.pathByte none (_, (present f _).2))
    · exact hp

end Sys2Proof.Machine
end

section
/-! Composite operations of the locomotive's blocks and of the two tables: whatever relation their parts keep, they
keep. A relation `Q s t` stands for "what is claimed of `s` carries over to `t`". -/

namespace Sys2Proof.Machine

/-! ### The locomotive's blocks -/

/-- All that follows a published set but R13's classification (log 12). -/
def beforeSettle (old : MotionPhase) (isChuff : Bool) (s : State) : State :=
  let s := expireCap (beginDwell (completeReversal s))
  motionEvent old (if isChuff then chuff s else s)

theorem afterPublish_eq (old : MotionPhase) (isChuff ended : Bool) (s : State) :
    afterPublish old isChuff ended s = settle ended (beforeSettle old isChuff s) := rfl

/-- A relation that the operations which turn the locomotive, and what they give to the loads, are built to keep. -/
structure TurnLaws (Q : State → State → Prop) : Prop where
  refl : ∀ s, Q s s
  trans : ∀ {a b c}, Q a b → Q b c → Q a c
  start : ∀ c held s, Q s (startRequest c held s)
  trigger : ∀ c s, Q s (triggerEnd c s)
  decide : ∀ s, Q s (smokeDecide s)
  chuffed : ∀ s, Q s (smokeChuff s)
  demand : ∀ d s, Q s { s with demand := d }
  holds : ∀ l s, Q s { s with holds := l }
  turn : ∀ d s, Q s (turned d s)

/-- A relation that the operations of the Motion Controller, the Function Table and the loads are built to keep. -/
structure LocoLaws (Q : State → State → Prop) : Prop extends TurnLaws Q where
  switches : ∀ l s, Q s { s with switches := l }
  activity : ∀ s, Q s (activity s)

namespace TurnLaws
variable {Q : State → State → Prop} (k : TurnLaws Q)
include k

theorem foldl {β : Type} {f : State → β → State} (hf : ∀ s b, Q s (f s b)) (l : List β) (s : State) :
    Q s (l.foldl f s) := by
  induction l generalizing s with
  | nil => exact k.refl s
  | cons b l ih => exact k.trans (hf s b) (ih _)

theorem ite {p : Prop} [Decidable p] {s t : State} (h : Q s t) : Q s (if p then t else s) := by
  split
  · exact h
  · exact k.refl s

theorem momentaryStart (c : Option Nat) (s : State) : Q s (momentaryStart c s) := by
  cases c with
  | none => exact k.refl s
  | some c => exact k.start c false s

theorem cueChange (was is : Bool) (c : Nat) (s : State) : Q s (cueChange was is c s) := by
  unfold Machine.cueChange
  split
  · exact k.trigger c s
  · exact k.ite (k.start c true s)

theorem featureEvents (old s : State) : Q s (featureEvents old s) := by
  have hfold (was is : Bool) (l : List Nat) (u : State) :
      Q u (l.foldl (fun s c => Machine.cueChange was is c s) u) := k.foldl (fun a c => k.cueChange was is c a) l u
  unfold Machine.featureEvents
  dsimp only
  refine k.trans (k.trans (hfold true false _ s) (hfold false true _ _)) (k.trans (k.ite ?_) (k.ite (k.decide _)))
  exact k.trans (k.demand _ _) (k.momentaryStart _ _)

theorem flipApplied (d : Dir) (s : State) : Q s (flipApplied d s) := k.trans (k.turn d s) (k.featureEvents _ _)

theorem reconcile (agreed : Bool) (s : State) : Q s (reconcile agreed s) := by
  by_cases hw : wantedDir s = s.demand.applied
  · rw [reconcile_agrees agreed hw]
    exact k.demand _ s
  · have hturn : Q s (turnedOrWaiting s) := by
      unfold turnedOrWaiting
      split
      · exact k.flipApplied _ s
      · exact k.demand _ s
    rw [reconcile_differs agreed hw]
    split
    · exact k.trans hturn (k.momentaryStart _ _)
    · exact hturn

theorem completeReversal (s : State) : Q s (completeReversal s) := k.ite (k.flipApplied _ s)

theorem installHold (h : Hold) (s : State) : Q s (installHold h s) := k.holds _ s

theorem removeHold (src : HoldSource) (s : State) : Q s (removeHold src s) := k.holds _ s

theorem dwellEnds (s : State) : Q s (dwellEnds s) := by
  unfold Machine.dwellEnds
  split
  · dsimp only
    split
    · exact k.trans (k.trans (k.removeHold .beacon s) (k.demand _ _)) (k.reconcile _ _)
    · exact k.removeHold _ s
  · exact k.refl s

theorem enterDwell (h : Hold) (s : State) : Q s (enterDwell h s) := by
  unfold Machine.enterDwell
  dsimp only
  split
  · exact k.trans (k.holds _ s) (k.dwellEnds _)
  · exact k.holds _ s

theorem beginDwell (s : State) : Q s (beginDwell s) := by
  unfold Machine.beginDwell
  split
  · exact k.ite (k.enterDwell _ s)
  · exact k.refl s

theorem expireCap (s : State) : Q s (expireCap s) := by
  unfold Machine.expireCap
  split
  · exact k.ite (k.removeHold _ s)
  · exact k.refl s

theorem installStop (decel : Decel) (dwell : Option Nat) (rev : Bool) (o : Origin) (s : State) :
    Q s (installStop decel dwell rev o s) := by
  refine k.ite ?_
  dsimp only
  split
  · exact k.trans (k.installHold _ s) (k.enterDwell _ _)
  · exact k.installHold _ s

theorem installCap (value limit : Nat) (o : Origin) (s : State) : Q s (installCap value limit o s) :=
  k.ite (k.installHold _ s)

theorem dwellReached (s : State) : Q s (dwellReached s) := by
  unfold Machine.dwellReached
  split
  · exact k.ite (k.dwellEnds s)
  · exact k.refl s

theorem consistTold (old s : State) : Q s (consistTold old s) := by
  have hgone : Q s (match findHold s .beacon with
      | some h =>
        let gone := match h.origin with
          | some .consist => !originTaken s .consist || consistAddress s != consistAddress old
          | _ => !originTaken s .own
        if gone then Machine.removeHold .beacon s else s
      | none => s) := by
    split
    · exact k.ite (k.removeHold _ s)
    · exact k.refl s
  unfold Machine.consistTold
  dsimp only
  split
  · exact hgone
  · exact k.trans hgone (k.reconcile _ _)

theorem stopTaken (src : Option Source) (s : State) : Q s (stopTaken src s) := by
  unfold Machine.stopTaken
  split
  · exact k.installHold _ s
  · exact k.installHold _ s

theorem resume (a : Asked) (s : State) : Q s (actResume a s).2 := by
  unfold actResume
  split
  · exact k.foldl (fun s x => k.removeHold x s) _ s
  · exact k.refl s

theorem consistHoldTaken (p : List Byte) (s : State) : Q s (consistHoldTaken p s) := by
  unfold Machine.consistHoldTaken
  dsimp only
  split
  · exact k.installStop _ _ _ _ s
  · exact k.ite (k.installCap _ _ _ s)

theorem chuff (s : State) : Q s (chuff s) := k.trans (k.momentaryStart _ s) (k.chuffed _)

theorem motionEvent (old : MotionPhase) (s : State) : Q s (motionEvent old s) := by
  unfold Machine.motionEvent
  split
  · exact k.momentaryStart _ s
  · exact k.ite (k.momentaryStart _ s)

theorem beforeSettle (old : MotionPhase) (isChuff : Bool) (s : State) : Q s (beforeSettle old isChuff s) := by
  have h := k.trans (k.trans (k.completeReversal s) (k.beginDwell _)) (k.expireCap _)
  exact k.trans (k.trans h (k.ite (k.chuff _))) (k.motionEvent _ _)

end TurnLaws

/-- A relation that holds wherever only the locomotive's own blocks differ keeps all of these. -/
theorem LocoLaws.of_offLoco {Q : State → State → Prop} (h : ∀ {s t}, t.offLoco = s.offLoco → Q s t)
    (htrans : ∀ {a b c}, Q a b → Q b c → Q a c) : LocoLaws Q where
  refl _ := h rfl
  trans := htrans
  start _ _ _ := h (offLoco_of_offSound (startRequest_offSound _ _ _))
  trigger _ _ := h (offLoco_of_offSound (triggerEnd_offSound _ _))
  decide _ := h (smokeDecide_offLoco _)
  chuffed _ := h (smokeChuff_offLoco _)
  demand _ _ := h rfl
  holds _ _ := h rfl
  switches _ _ := h rfl
  turn _ _ := h (abandonCheck_offLoco _)
  activity _ := h (activity_offLoco _)

namespace LocoLaws
variable {Q : State → State → Prop} (k : LocoLaws Q)
include k

theorem writeSwitches (g mask values : Nat) (src : Source) (s : State) : Q s (writeSwitches g mask values src s) :=
  k.trans (k.switches _ s) (k.featureEvents _ _)

theorem funcTaken (g mask values : Nat) (src : Source) (s : State) : Q s (funcTaken g mask values src s) :=
  k.trans (k.writeSwitches g mask values src s) (k.activity _)

theorem beaconFunction (i d : Nat) (s : State) : Q s (beaconFunction i d s) :=
  k.trans (k.switches _ s) (k.featureEvents _ _)

theorem switchExpires (i : Nat) (s : State) : Q s (switchExpires i s) := by
  unfold Machine.switchExpires
  split
  · exact k.ite (k.trans (k.switches _ s) (k.featureEvents _ _))
  · exact k.refl s

theorem driveStored (step : Nat) (d : Dir) (src : Source) (s : State) : Q s (driveStored step d src s) := by
  have hwritten : Q s (driveWritten step d src s) := 
    k.trans (k.demand (driveWritten step d src s).demand s) (k.holds (driveWritten step d src s).holds _)
  rw [driveStored_eq]
  exact k.trans (k.trans hwritten (k.reconcile _ _)) (k.activity _)

end LocoLaws

/-! ### The Claim Table and the Throttle Table -/

/-- A relation that the operations of the two tables are built to keep. -/
structure TableLaws (Q : State → State → Prop) : Prop where
  refl : ∀ s, Q s s
  trans : ∀ {a b c}, Q a b → Q b c → Q a c
  table : ∀ drive groups throttles refused s,
    Q s { s with drive := drive, groups := groups, throttles := throttles, refusedLearns := refused }
  endTxn : ∀ s, Q s (endTxn s)
  radioLoss : ∀ s, Q s (requestRadioLoss s)
  removeHold : ∀ src s, Q s (removeHold src s)
  activity : ∀ s, Q s (activity s)

theorem LocoLaws.tableLaws {Q : State → State → Prop} (k : LocoLaws Q)
    (table : ∀ drive groups throttles refused s,
      Q s { s with drive := drive, groups := groups, throttles := throttles, refusedLearns := refused })
    (endTxn : ∀ s, Q s (Machine.endTxn s)) : TableLaws Q where
  refl := k.refl
  trans := k.trans
  table := table
  endTxn := endTxn
  radioLoss := k.installHold _
  removeHold := k.removeHold
  activity := k.activity

namespace TableLaws
variable {Q : State → State → Prop} (k : TableLaws Q)
include k

theorem foldl {β : Type} {f : State → β → State} (hf : ∀ s b, Q s (f s b)) (l : List β) (s : State) :
    Q s (l.foldl f s) := by
  induction l generalizing s with
  | nil => exact k.refl s
  | cons b l ih => exact k.trans (hf s b) (ih _)

theorem ite {p : Prop} [Decidable p] {s t : State} (h : Q s t) : Q s (if p then t else s) := by
  split
  · exact h
  · exact k.refl s

theorem setEntry (i : Nat) (e : Option ThrottleEntry) (s : State) : Q s (setEntry i e s) := k.table _ _ _ _ s

theorem setGroups (l : List (Option HolderItem)) (s : State) : Q s { s with groups := l } := k.table _ _ _ _ s

theorem setDrive (d : DriveClaim) (s : State) : Q s { s with drive := d } := k.table _ _ _ _ s

theorem abortTxnOf (src : Source) (s : State) : Q s (abortTxnOf src s) := k.ite (k.endTxn s)

theorem removeEntry (i : Nat) (s : State) : Q s (removeEntry i s) := k.trans (k.setEntry i none s) (k.abortTxnOf _ _)

theorem forgetIfDue (i : Nat) (s : State) : Q s (forgetIfDue i s) := by
  unfold Machine.forgetIfDue
  split
  · exact k.ite (k.removeEntry i s)
  · exact k.refl s

theorem itemGone (src : Source) (s : State) : Q s (itemGone src s) := by
  unfold Machine.itemGone releaseNotice
  split
  · split
    · exact k.refl s
    · exact k.forgetIfDue _ s
  · exact k.refl s

theorem driveLost (src : Source) (s : State) : Q s (driveLost src s) := by
  unfold Machine.driveLost
  split
  · exact k.abortTxnOf _ s
  · exact k.refl s

theorem changeHolders (mode : DriveMode) (l : List HolderItem) (s : State) : Q s (changeHolders mode l s) :=
  k.trans (k.setDrive _ s) (k.foldl (fun _ x => k.trans (k.driveLost x _) (k.itemGone x _)) _ _)

theorem changeGroup (g : Nat) (item : Option HolderItem) (s : State) : Q s (changeGroup g item s) := by
  unfold Machine.changeGroup
  dsimp only
  split
  · exact k.trans (k.setGroups _ s) (k.itemGone _ _)
  · exact k.setGroups _ s

theorem grantDrive (mode : DriveMode) (l : List HolderItem) (s : State) : Q s (grantDrive mode l s) :=
  k.trans (k.changeHolders mode l s) (k.removeHold _ _)

theorem claimDrive {mode : DriveMode} {steal : Bool} {src : Source} {s t : State}
    (h : claimDrive mode steal src s = some t) : Q s t := by
  unfold Machine.claimDrive at h
  split at h
  · exact Option.some.inj h ▸ k.refl s
  · split at h
    · exact Option.some.inj h ▸ k.grantDrive _ _ s
    · split at h
      · exact Option.some.inj h ▸ k.grantDrive _ _ s
      · split at h
        · exact Option.some.inj h ▸ k.grantDrive _ _ s
        · cases h

theorem overrideDrive (mode : DriveMode) (s : State) : Q s (overrideDrive mode s) := by
  unfold Machine.overrideDrive
  dsimp only
  split
  · exact k.grantDrive _ _ s
  · split
    · exact k.setDrive _ s
    · exact k.changeHolders _ _ s

theorem claimGroup {g : Nat} {steal : Bool} {src : Source} {s t : State} (h : claimGroup g steal src s = some t) :
    Q s t := by
  unfold Machine.claimGroup at h
  split at h
  · exact Option.some.inj h ▸ k.changeGroup _ _ s
  · split at h
    · exact Option.some.inj h ▸ k.refl s
    · split at h
      · exact Option.some.inj h ▸ k.changeGroup _ _ s
      · cases h

theorem claimTaken (r m : Nat) (st ov : Bool) (src : Source) (s : State) : Q s (claimTaken r m st ov src s).2 := by
  unfold Machine.claimTaken
  split
  · exact k.refl s
  · dsimp only
    split
    next t ht =>
      refine k.trans ?_ (k.activity t)
      split at ht
      · split at ht
        · exact Option.some.inj ht ▸ k.overrideDrive _ s
        · exact k.claimDrive ht
      · split at ht
        · exact Option.some.inj ht ▸ k.changeGroup _ _ s
        · exact k.claimGroup ht
    next => exact k.refl s

theorem releaseTaken (r : Nat) (src : Source) (s : State) : Q s (releaseTaken r src s).2 := by
  have hdrive : Q s (releaseDrive src s) := by
    unfold releaseDrive
    dsimp only
    split
    · exact k.trans (k.changeHolders _ _ s) (k.radioLoss _)
    · exact k.changeHolders _ _ s
  unfold Machine.releaseTaken
  split
  · exact k.refl s
  · split
    · split
      · exact hdrive
      · exact k.refl s
    · split
      · split
        · exact k.changeGroup _ _ s
        · exact k.refl s
      · exact k.refl s

theorem removeItems (src : Source) (test : HolderItem → Bool) (s : State) : Q s (removeItems src test s) := by
  unfold Machine.removeItems
  dsimp only
  have hleave {p : Prop} [Decidable p] (l : List (Option HolderItem)) (mode : DriveMode) (left : List HolderItem) :
      Q s (if p then { s with groups := l } else Machine.changeHolders mode left { s with groups := l }) := by
    split
    · exact k.setGroups l s
    · exact k.trans (k.setGroups l s) (k.changeHolders _ _ _)
  split
  · exact k.trans (hleave _ _ _) (k.itemGone _ _)
  · exact hleave _ _ _

theorem lostNotice (i : Nat) (s : State) : Q s (lostNotice i s) := by
  have hitems : Q s (if set8 s 11 = 0 then Machine.removeItems (.throttle i) (fun _ => true) s
      else reserveItems i (later s.partTime (set8 s 11 * 1000)) s) := by
    split
    · exact k.removeItems _ _ s
    · exact k.table _ _ _ _ s
  unfold Machine.lostNotice
  exact k.trans hitems (k.ite (k.radioLoss _))

theorem heardNotice (i : Nat) (s : State) : Q s (heardNotice i s) := by
  unfold Machine.heardNotice
  dsimp only
  split
  · exact k.trans (k.table _ _ s.throttles s.refusedLearns s) (k.removeHold _ _)
  · exact k.table _ _ _ _ s

theorem reservationsExpire (i : Nat) (s : State) : Q s (reservationsExpire i s) := k.removeItems _ _ s

theorem loseEntry (i : Nat) (e : ThrottleEntry) (s : State) : Q s (loseEntry i e s) :=
  k.trans (k.trans (k.setEntry i _ s) (k.lostNotice i _)) (k.forgetIfDue i _)

theorem silenceIfDue (i : Nat) (s : State) : Q s (silenceIfDue i s) := by
  unfold Machine.silenceIfDue
  split
  · exact k.ite (k.loseEntry i _ s)
  · exact k.refl s

theorem rateCheck (i : Nat) (e : ThrottleEntry) (f : Frame) (s : State) : Q s (rateCheck i e f s).2 := by
  unfold Machine.rateCheck
  dsimp only
  split
  · exact k.setEntry _ _ s
  · split
    · exact k.setEntry _ _ s
    · exact k.setEntry _ _ s

theorem unknownId (f : Frame) (s : State) : Q s (unknownId f s).2 := by
  unfold Machine.unknownId
  split
  · exact k.rateCheck _ _ f s
  · split
    · exact k.trans (k.removeEntry _ s) (k.rateCheck _ _ f _)
    · exact k.table _ _ _ _ s

theorem heard (i : Nat) (e : ThrottleEntry) (f : Frame) (s : State) : Q s (heard i e f s) := by
  unfold Machine.heard
  dsimp only
  split
  · exact k.trans (k.setEntry i _ s) (k.heardNotice i _)
  · exact k.setEntry i _ s

theorem present (f : Frame) (s : State) : Q s (present f s).2 := by
  unfold Machine.present
  split
  · exact k.unknownId f s
  · split
    · exact k.unknownId f s
    · dsimp only
      split
      · exact k.heard _ _ f s
      · exact k.trans (k.heard _ _ f s) (k.rateCheck _ _ f _)

theorem throttleTimesChanged (old s : State) : Q s (throttleTimesChanged old s) := by
  unfold Machine.throttleTimesChanged
  dsimp only
  exact k.trans (k.ite (k.foldl (fun s i => k.silenceIfDue i s) _ s)) (k.ite (k.foldl (fun s i => k.forgetIfDue i s) _ _))

end TableLaws

/-! ### The sampled line (R156 to R165) -/

/-- A relation that the operations of the Beacon Receiver are built to keep. -/
structure LineLaws (Q : State → State → Prop) : Prop where
  refl : ∀ s, Q s s
  trans : ∀ {a b c}, Q a b → Q b c → Q a c
  beacon : ∀ {b : Beacon} {s : State}, b.learn.slot = s.beacon.learn.slot → Q s { s with beacon := b }
  send : ∀ p s, Q s (sendConsistHold p (spendFree s))
  learn : ∀ s, Q s (learnBurst s)
  activity : ∀ s, Q s (activity s)
  installStop : ∀ decel dwell rev o s, Q s (installStop decel dwell rev o s)
  installCap : ∀ value limit o s, Q s (installCap value limit o s)
  momentaryStart : ∀ c s, Q s (momentaryStart c s)
  beaconFunction : ∀ i d s, Q s (beaconFunction i d s)

namespace LineLaws
variable {Q : State → State → Prop} (k : LineLaws Q)
include k

theorem ite {p : Prop} [Decidable p] {s t : State} (h : Q s t) : Q s (if p then t else s) := by
  split
  · exact h
  · exact k.refl s

theorem carryOut (slot : Nat) (s : State) : Q s (carryOut slot s) := by
  have hstop : Q s (stopAt slot s) := by
    unfold stopAt
    dsimp only
    split
    · exact k.trans (k.installStop _ _ _ _ s) (k.send _ _)
    · exact k.installStop _ _ _ _ s
  have hslow : Q s (slowTo slot s) := by
    unfold slowTo
    dsimp only
    split
    · exact k.trans (k.installCap _ _ _ s) (k.send _ _)
    · exact k.installCap _ _ _ s
  unfold Machine.carryOut
  dsimp only
  split
  · exact k.refl s
  · split
    · exact k.ite hstop
    · split
      · exact k.ite hslow
      · split
        · exact k.momentaryStart _ s
        · exact k.ite (k.beaconFunction _ _ s)

theorem takeMatch (slot : Nat) (s : State) : Q s (takeMatch slot s) := by
  unfold Machine.takeMatch
  refine k.trans (k.trans ?_ (k.activity _)) (k.carryOut slot _)
  exact k.beacon rfl

theorem matchBurst (s : State) : Q s (matchBurst s) := by
  unfold Machine.matchBurst
  split
  · split
    · exact k.refl s
    · exact k.takeMatch _ s
  · exact k.refl s

theorem endBurst (held : Bool) (s : State) : Q s (endBurst held s) := by
  unfold Machine.endBurst
  dsimp only
  refine k.trans (k.beacon (b := { s.beacon with closed := true, runLen := 0 }) rfl) ?_
  split
  · exact k.refl _
  · split
    · exact k.ite (k.beacon rfl)
    · split
      · exact k.learn _
      · exact k.matchBurst _

theorem appendEntry (e : CaptureEntry) (s : State) : Q s (appendEntry e s) := by
  unfold Machine.appendEntry
  dsimp only
  refine k.trans (k.beacon (b := { s.beacon with capture := s.beacon.capture ++ [e] }) rfl) ?_
  exact k.ite (k.endBurst false _)

theorem finishRun (s : State) : Q s (finishRun s) := by
  unfold Machine.finishRun
  dsimp only
  refine k.trans (k.beacon (b := { s.beacon with
    runLevel := otherLevel s.beacon.runLevel, runLen := 2, unsettled := false }) rfl) ?_
  split
  · split
    · exact k.refl _
    · exact k.appendEntry _ _
  · exact k.ite (k.beacon rfl)

theorem judgeRun (s : State) : Q s (judgeRun s) := by
  unfold Machine.judgeRun
  split
  · exact k.ite (k.beacon rfl)
  · exact k.ite (k.endBurst _ s)

theorem sampleLine (s : State) (l : Level) : Q s (sampleLine s l) := by
  unfold Machine.sampleLine
  split
  · refine k.trans ?_ (k.judgeRun _)
    exact k.beacon rfl
  · split
    · exact k.finishRun s
    · exact k.beacon rfl

theorem sampleEighths (line : List Level) (s : State) : Q s (sampleEighths line s) := by
  unfold Machine.sampleEighths
  induction line generalizing s with
  | nil => exact k.refl s
  | cons l line ih => exact k.trans (k.sampleLine s l) (ih _)

end LineLaws

/-! ### Requests that are refused before they are decided (R86) -/

theorem withPayload_keeps {Q : State → State → Prop} (hrefl : ∀ s, Q s s) {len : Nat}
    {act : List Byte → Asked → State → Answer × State} (a : Asked) (s : State)
    (hact : len ≤ a.frame.payload.length → Q s (act a.frame.payload a s).2) : Q s (withPayload len act a s).2 := by
  unfold withPayload
  split
  · exact hrefl s
  · exact hact (by omega)

theorem localOnly_keeps {Q : State → State → Prop} (hrefl : ∀ s, Q s s) {act : State → Answer × State} (a : Asked)
    (s : State) (hact : Q s (act s).2) : Q s (localOnly act a s).2 := by
  unfold localOnly
  split
  · exact hact
  · exact hrefl s

end Sys2Proof.Machine
end

section
/-! The blocks outside the locomotive: the queue of commands, the byte memories, the settings with the transaction, and
the frame queues. One relation says what a change may do to all four, and every effect keeps it. -/

namespace Sys2Proof.Machine

/-! ### A port's queue and receiver (R79, R81) -/

/-- What `QueuesSound` says of one port. -/
structure IntakeSound (which : Port) (p : PortState) : Prop where
  capacity : p.intake.length ≤ intakeCapacity which
  frames : ∀ f ∈ p.intake, 12 ≤ f.body.length ∧ f.body.length ≤ 36
  rx : ReceiverSound p.rx
  quality : which = .localLine → p.rx.state ≠ .quality

theorem queuesSound_iff (s : State) :
    QueuesSound s ↔ IntakeSound .radio s.radio ∧ IntakeSound .localLine s.localLine ∧ s.replies.length ≤ 4 :=
  ⟨fun h => ⟨⟨h.radio, h.radioFrames, h.radioRx, nofun⟩, ⟨h.localLine, h.localFrames, h.localRx, fun _ => h.localQuality⟩,
    h.replies⟩,
   fun ⟨hr, hl, h⟩ => ⟨hr.capacity, hl.capacity, h, hr.frames, hl.frames, hr.rx, hl.rx, hl.quality rfl⟩⟩

theorem receiverSound_hunting : ReceiverSound hunting := ⟨nofun, nofun⟩

theorem IntakeSound.of_hunting {which : Port} {p q : PortState} (h : IntakeSound which p) (hi : q.intake = p.intake)
    (hr : q.rx = hunting) : IntakeSound which q :=
  ⟨hi ▸ h.capacity, hi ▸ h.frames, hr ▸ receiverSound_hunting, fun _ => by rw [hr]; nofun⟩

theorem IntakeSound.of_same {which : Port} {p q : PortState} (h : IntakeSound which p) (hi : q.intake = p.intake)
    (hr : q.rx = p.rx) : IntakeSound which q :=
  ⟨hi ▸ h.capacity, hi ▸ h.frames, hr ▸ h.rx, hr ▸ h.quality⟩

theorem IntakeSound.gapTimeout {which : Port} {p : PortState} (h : IntakeSound which p) :
    IntakeSound which p.gapTimeout := by
  unfold PortState.gapTimeout
  split
  · exact h.of_hunting rfl rfl
  · exact h

theorem IntakeSound.complete {which : Port} {p : PortState} (h : IntakeSound which p) {f : Frame}
    (hf : 12 ≤ f.body.length ∧ f.body.length ≤ 36) : IntakeSound which (p.complete (intakeCapacity which) f) := by
  unfold PortState.complete
  split
  next hc =>
    refine ⟨?_, fun g hg => ?_, receiverSound_hunting, nofun⟩
    · rw [List.length_append]; exact hc
    · obtain hg | hg := List.mem_append.1 hg
      · exact h.frames g hg
      · rw [List.mem_singleton.1 hg]; exact hf
  next => exact h.of_hunting rfl rfl

theorem IntakeSound.bodyByte {which : Port} {p : PortState} (h : IntakeSound which p) (hs : p.rx.state = .body) (b : Byte) :
    IntakeSound which (p.bodyByte which b) := by
  obtain ⟨hlo, hhi, hlt⟩ := h.rx.1 hs
  have hlen : (p.rx.body ++ [b]).length = p.rx.body.length + 1 := List.length_append
  unfold PortState.bodyByte
  dsimp only
  split
  next hmore => exact ⟨h.capacity, h.frames, ⟨fun _ => ⟨hlo, hhi, hmore⟩, fun hq => by simp [hs] at hq⟩, h.quality⟩
  next hfull =>
    have hexact : (p.rx.body ++ [b]).length = p.rx.len := by omega
    cases which with
    | radio => exact ⟨h.capacity, h.frames, ⟨nofun, fun _ => ⟨hlo, hhi, hexact⟩⟩, nofun⟩
    | localLine => exact h.complete (by dsimp only; omega)

theorem IntakeSound.takeByte {which : Port} {p : PortState} (h : IntakeSound which p) (b : Byte) :
    IntakeSound which (p.takeByte which b) := by
  have h := h.gapTimeout
  unfold PortState.takeByte
  generalize p.gapTimeout = q at h
  dsimp only
  split
  next hs =>
    split
    · exact ⟨h.capacity, h.frames, ⟨nofun, nofun⟩, nofun⟩
    · exact h
  next hs =>
    split
    next hb =>
      refine ⟨h.capacity, h.frames, ⟨fun _ => ⟨hb.1, hb.2, ?_⟩, nofun⟩, nofun⟩
      exact (show (0 : Nat) < 12 by decide).trans_le hb.1
    next => exact h.of_hunting rfl rfl
  next hs => exact h.bodyByte hs b
  next hs =>
    cases which with
    | radio =>
      obtain ⟨hlo, hhi, hlen⟩ := h.rx.2 hs
      exact h.complete (by dsimp only; omega)
    | localLine => exact absurd hs (h.quality rfl)

theorem IntakeSound.takeBytes {which : Port} {p : PortState} (h : IntakeSound which p) (bs : List Byte) :
    IntakeSound which (bs.foldl (PortState.takeByte which) p) := by
  induction bs generalizing p with
  | nil => exact h
  | cons b bs ih => exact ih (h.takeByte b)

theorem QueuesSound.portState {s : State} (h : QueuesSound s) (which : Port) :
    IntakeSound which (Machine.portState s which) := by
  obtain ⟨hr, hl, -⟩ := (queuesSound_iff s).1 h
  cases which with
  | radio => exact hr
  | localLine => exact hl

theorem QueuesSound.setPort {s : State} (h : QueuesSound s) {which : Port} {p : PortState} (hp : IntakeSound which p) :
    QueuesSound (Machine.setPort which p s) := by
  obtain ⟨hr, hl, hq⟩ := (queuesSound_iff s).1 h
  cases which with
  | radio => exact (queuesSound_iff _).2 ⟨hp, hl, hq⟩
  | localLine => exact (queuesSound_iff _).2 ⟨hr, hp, hq⟩

theorem QueuesSound.setReplies {s : State} (h : QueuesSound s) {l : List OutFrame} (hl : l.length ≤ 4) :
    QueuesSound { s with replies := l } :=
  ⟨h.radio, h.localLine, hl, h.radioFrames, h.localFrames, h.radioRx, h.localRx, h.localQuality⟩

/-! ### Parts of the store and of the reads -/

/-- An operation of the Flash Port changes the flash and at most spends a free value. -/
theorem flashEffect_frame (op : FlashOp) (ok : Bool) (s : State) :
    ∃ fl n, flashEffect op ok s = { s with flash := fl, freeCount := n } := by
  unfold flashEffect
  split
  · exact ⟨_, _, rfl⟩
  all_goals
    split
    · exact ⟨_, _, rfl⟩
    · exact ⟨_, _, rfl⟩

theorem voiceDataArrived_offSound (v : Nat) (s : State) : (voiceDataArrived v s).offSound = s.offSound := by
  unfold voiceDataArrived
  dsimp only
  split
  · split
    · rw [askRun_offSound, setVoice_offSound]
    · split
      · split
        · rw [phaseEnd_offSound, setVoice_offSound]
        · rfl
      · rfl
  · rfl

/-! ### The relation -/

/-- What every change from `s` to `t` does with the parts outside the locomotive: the waiting commands stand, and the
memories, the settings and the queues stay sound. -/
structure OuterKept (s t : State) : Prop where
  pending : t.pending = s.pending
  memories : MemoriesCanonical s → MemoriesCanonical t
  settings : SettingsSound s → SettingsSound t
  queues : QueuesSound s → QueuesSound t

namespace OuterKept

theorem refl (s : State) : OuterKept s s := ⟨rfl, id, id, id⟩

theorem trans {a b c : State} (h : OuterKept a b) (k : OuterKept b c) : OuterKept a c :=
  ⟨k.pending.trans h.pending, k.memories ∘ h.memories, k.settings ∘ h.settings, k.queues ∘ h.queues⟩

/-- What the relation reads of a state. -/
def view (s : State) : List Instr × Mem × Mem × List Byte × Txn × Nat × PortState × PortState × List OutFrame :=
  (s.pending, s.flash, s.voiceRam, s.settings, s.txn, s.beacon.learn.slot, s.radio, s.localLine, s.replies)

theorem of_view {s t : State} (h : view t = view s) : OuterKept s t := by
  simp only [view, Prod.mk.injEq] at h
  obtain ⟨hp, hf, hv, hs, ht, hb, hr, hl, hq⟩ := h
  refine ⟨hp, fun h => ?_, fun h => ?_, fun h => ?_⟩
  · exact ⟨hf ▸ h.1, hv ▸ h.2⟩
  · exact ⟨hs ▸ h.length, ht ▸ h.staged, ht ▸ h.inside, hb ▸ h.slot⟩
  · exact (queuesSound_iff t).2 (hr ▸ hl ▸ hq ▸ (queuesSound_iff s).1 h)

theorem of_offLoco {s t : State} (h : t.offLoco = s.offLoco) : OuterKept s t := of_view (congrArg view h :)

theorem setPort {which : Port} {p : PortState} {s : State}
    (h : IntakeSound which (portState s which) → IntakeSound which p) : OuterKept s (setPort which p s) where
  pending := setPort_pending _ _ _
  memories hm := by cases which <;> exact hm
  settings hs := by cases which <;> exact ⟨hs.length, hs.staged, hs.inside, hs.slot⟩
  queues hq := hq.setPort (h (hq.portState which))

theorem setReplies {s : State} {l : List OutFrame} (h : s.replies.length ≤ 4 → l.length ≤ 4) :
    OuterKept s { s with replies := l } where
  pending := rfl
  memories := id
  settings hs := ⟨hs.length, hs.staged, hs.inside, hs.slot⟩
  queues hq := hq.setReplies (h hq.replies)

theorem setMemories {s : State} {fl ram : Mem} (hf : Mem.wf flashBlank s.flash = true → Mem.wf flashBlank fl = true)
    (hr : Mem.wf ramBlank s.voiceRam = true → Mem.wf ramBlank ram = true) :
    OuterKept s { s with flash := fl, voiceRam := ram } where
  pending := rfl
  memories h := ⟨hf h.1, hr h.2⟩
  settings h := ⟨h.length, h.staged, h.inside, h.slot⟩
  queues h := (queuesSound_iff _).2 ((queuesSound_iff s).1 h)

/-- A change of the settings, the transaction or the learn record. -/
theorem setStore {s t : State} (hp : t.pending = s.pending) (hf : t.flash = s.flash) (hv : t.voiceRam = s.voiceRam)
    (hr : t.radio = s.radio) (hl : t.localLine = s.localLine) (hq : t.replies = s.replies)
    (hs : SettingsSound s → SettingsSound t) : OuterKept s t where
  pending := hp
  memories h := ⟨hf ▸ h.1, hv ▸ h.2⟩
  settings := hs
  queues h := (queuesSound_iff t).2 (hr ▸ hl ▸ hq ▸ (queuesSound_iff s).1 h)

theorem locoLaws : LocoLaws OuterKept := .of_offLoco of_offLoco trans

theorem updateMode (s : State) : OuterKept s (updateMode s) := of_offLoco (offLoco_of_offSound (updateMode_offSound s))

theorem endTxn (s : State) : OuterKept s (endTxn s) := by
  refine .trans (b := { s with txn := { s.txn with state := .closed, staged := [] } }) ?_ (updateMode _)
  exact setStore rfl rfl rfl rfl rfl rfl fun h => ⟨h.length, nofun, nofun, h.slot⟩

theorem tableLaws : TableLaws OuterKept := locoLaws.tableLaws (fun _ _ _ _ _ => of_view rfl) endTxn

/-! ### Frames and replies -/

theorem popIntake (which : Port) (s : State) : OuterKept s (popIntake which s) := by
  refine setPort fun h => ⟨?_, fun f hf => h.frames f (List.mem_of_mem_tail hf), h.rx, h.quality⟩
  rw [List.length_tail]
  exact (Nat.sub_le _ _).trans h.capacity

theorem queueReply (f : OutFrame) (s : State) : OuterKept s (queueReply f s) := by
  unfold Machine.queueReply
  split
  next hl =>
    refine setReplies fun _ => ?_
    rw [List.length_append]
    exact hl
  next => exact setPort fun h => h.of_same rfl rfl

theorem replyIf (draws : Bool) (which : Port) (f : Frame) (path : Byte) (src : Option Source) (r : Answer × State) :
    OuterKept r.2 (replyIf draws which f path src r) := by
  unfold Machine.replyIf
  split
  · exact queueReply _ _
  · exact refl _

theorem startSending (which : Port) (s : State) : OuterKept s (startSending which s) := by
  unfold Machine.startSending
  split
  · exact setPort fun h => h.of_same rfl rfl
  · exact refl s

theorem finishSending (which : Port) (s : State) : OuterKept s (finishSending which s) := by
  unfold Machine.finishSending
  dsimp only
  split
  next f _ =>
    refine trans (b := { s with replies := s.replies.erase f }) (setReplies fun h => ?_) ?_
    · exact (List.length_erase_le).trans h
    · refine setPort fun h => ?_
      cases which <;> exact h.of_same rfl rfl
  next => exact refl s

theorem discardFrame (s : State) : OuterKept s (discardFrame s) := by
  unfold Machine.discardFrame
  split
  · dsimp only
    split
    · exact trans (popIntake _ s) (setPort fun h => h.of_same rfl rfl)
    · exact trans (popIntake _ s) (setPort fun h => h.of_same rfl rfl)
    · exact popIntake _ s
    · exact refl s
  · exact refl s

/-! ### The Settings Store -/

theorem requestFlash (w : Requester) (op : FlashOp) (s : State) : OuterKept s (requestFlash w op s) :=
  of_offLoco (offLoco_of_offSound (requestFlash_offSound w op s))

theorem requestDirectory (s : State) : OuterKept s (requestDirectory s) :=
  of_offLoco (offLoco_of_offSound (requestDirectory_offSound s))

theorem portFreed (s : State) : OuterKept s (portFreed s) := of_offLoco rfl

theorem reportFault (k : FaultKind) (b : Bool) (s : State) : OuterKept s (reportFault k b s) := of_offLoco rfl

theorem ambientChanged (old : Option Nat) (s : State) : OuterKept s (ambientChanged old s) :=
  of_offLoco (offLoco_of_offSound (ambientChanged_offSound old s))

theorem chuffSourceChanged (old s : State) : OuterKept s (chuffSourceChanged old s) := by
  unfold Machine.chuffSourceChanged
  split
  · exact refl s
  · exact of_view rfl

theorem setpointChanged (old s : State) : OuterKept s (setpointChanged old s) := by
  unfold Machine.setpointChanged
  split
  · exact refl s
  · exact of_view rfl

theorem periodChanged (old s : State) : OuterKept s (periodChanged old s) := by
  unfold Machine.periodChanged
  split
  · exact refl s
  · exact of_view rfl

theorem effectsChanged (old s : State) : OuterKept s (effectsChanged old s) := of_view rfl

theorem settingsInstalled (old s : State) : OuterKept s (settingsInstalled old s) := by
  unfold Machine.settingsInstalled
  dsimp only
  refine trans ?_ (tableLaws.throttleTimesChanged old _)
  refine trans ?_ (ambientChanged _ _)
  refine trans ?_ (periodChanged old _)
  refine trans ?_ (setpointChanged old _)
  refine trans ?_ (chuffSourceChanged old _)
  refine trans ?_ (effectsChanged old _)
  exact trans (locoLaws.featureEvents old s) (locoLaws.consistTold old _)

/-- New settings of the same length, unsaved or not. -/
theorem setSettings {s : State} {img : List Byte} {u c : Bool} (h : SettingsSound s → img.length = 776) :
    OuterKept s { s with settings := img, unsaved := u, changedSinceCopy := c } :=
  setStore rfl rfl rfl rfl rfl rfl fun hs => ⟨h hs, hs.staged, hs.inside, hs.slot⟩

theorem applySettings {s : State} (hw : s.txn.state = .openWrite) (ht : s.txn.target = .settings) :
    OuterKept s (applySettings s.txn.start (stagedBytes s) s).2 := by
  unfold Machine.applySettings
  dsimp only
  refine trans (setSettings fun h => ?_) (settingsInstalled s _)
  have hfits : s.txn.start + (stagedBytes s).length ≤ s.settings.length := by
    rw [stagedBytes, List.length_map, h.staged hw, h.length]
    exact h.inside hw ht
  have hlen := (overlay_length s.settings (stagedBytes s) s.txn.start hfits).trans h.length
  rw [checkedImage_length _ _ (by omega), hlen]

theorem renewTxn (src : Source) (s : State) : OuterKept s (renewTxn src s) := by
  unfold Machine.renewTxn
  split
  · exact setStore rfl rfl rfl rfl rfl rfl fun h => ⟨h.length, h.staged, h.inside, h.slot⟩
  · exact refl s

theorem cfgOpenTaken (target dir start count : Nat) (src : Source) (s : State) :
    OuterKept s (cfgOpenTaken target dir start count src s).2 := by
  unfold Machine.cfgOpenTaken
  split
  next => exact renewTxn src s
  next hok =>
    have hrange : openInRange target dir start count = true := by
      unfold openRefusal at hok
      split at hok <;> [cases hok; split at hok] <;> [cases hok; split at hok] <;> [cases hok; split at hok]
      · cases hok
      next h => simpa using h
    refine trans ?_ (updateMode _)
    refine setStore rfl rfl rfl rfl rfl rfl fun h => ?_
    refine ⟨h.length, fun _ => List.length_replicate, fun _ ht => ?_, h.slot⟩
    by_cases h1 : target = 1
    · exact absurd ht (by simp [h1])
    · unfold openInRange at hrange
      split at hrange <;> simp_all

theorem cfgDataTaken (o : Nat) (bs : List Byte) (src : Source) (s : State) :
    OuterKept s (cfgDataTaken o bs src s).2 := by
  unfold Machine.cfgDataTaken
  split
  · exact refl s
  · refine trans (renewTxn src s) ?_
    generalize Machine.renewTxn src s = u
    dsimp only
    split
    · exact refl u
    · split
      · exact refl u
      · split
        · exact endTxn u
        next hfits =>
          refine setStore rfl rfl rfl rfl rfl rfl fun h => ⟨h.length, fun hw => ?_, h.inside, h.slot⟩
          have hcount := h.staged hw
          simp only [stage, List.length_append, List.length_take, List.length_map, List.length_drop]
          omega

theorem cfgCloseTaken (src : Source) (s : State) : OuterKept s (cfgCloseTaken src s).2.2 := by
  unfold Machine.cfgCloseTaken
  split
  · exact refl s
  next hopen =>
    have hstate : (Machine.renewTxn src s).txn.state ≠ .closed := by
      unfold txnRefusal at hopen
      unfold Machine.renewTxn
      split at hopen
      · cases hopen
      next h => split <;> exact h
    refine trans (renewTxn src s) ?_
    generalize Machine.renewTxn src s = u at hstate
    dsimp only
    split
    · exact endTxn u
    next hread =>
      have hw : u.txn.state = .openWrite := by
        revert hstate hread
        cases u.txn.state <;> simp
      split
      · exact endTxn u
      · split
        next ht =>
          unfold closeSettings
          exact trans (applySettings hw ht) (endTxn _)
        next =>
          split
          · exact refl u
          · unfold closeBank
            refine trans (trans ?_ (endTxn _)) (requestFlash _ _ _)
            exact of_view rfl

theorem saveTaken (src : Source) (s : State) : OuterKept s (saveTaken src s).2 := by
  unfold Machine.saveTaken
  split
  · exact refl s
  · split
    · exact refl s
    · unfold beginSave
      refine trans (trans ?_ (updateMode _)) (requestFlash _ _ _)
      exact of_view rfl

theorem consistRequest (addr pos flags : Nat) {mask : List Byte} (src : Source) (s : State) (hmask : 4 ≤ mask.length) :
    OuterKept s (consistRequest addr pos flags mask src s).2 := by
  unfold Machine.consistRequest
  split
  · exact refl s
  · split
    · exact refl s
    · split
      · exact refl s
      · refine trans (setSettings fun h => ?_) (locoLaws.consistTold s _)
        have hbytes : (consistBytes addr pos flags (mask.take 4)).length = 7 := by
          unfold consistBytes
          split
          · rfl
          · simp; omega
        rw [overlay_length _ _ _ (by rw [hbytes, h.length]; decide), h.length]

theorem flashEffect (op : FlashOp) (ok : Bool) (s : State) : OuterKept s (flashEffect op ok s) := by
  obtain ⟨fl, n, h⟩ := flashEffect_frame op ok s
  have hwf : Mem.wf flashBlank s.flash = true → Mem.wf flashBlank fl = true := fun hs => by
    have := flashEffect_wf op ok s hs
    rwa [h] at this
  rw [h]
  exact trans (setMemories (ram := s.voiceRam) hwf id) (of_view rfl)

theorem endSave (s : State) : OuterKept s (endSave s) := by
  unfold Machine.endSave
  refine trans ?_ (updateMode _)
  exact of_view rfl

theorem eraseDone (ok : Bool) (s : State) : OuterKept s (eraseDone ok s) := by
  unfold Machine.eraseDone
  split
  · exact requestFlash _ _ s
  · exact trans (reportFault _ _ s) (endSave _)

theorem imageWritten (ok : Bool) (s : State) : OuterKept s (imageWritten ok s) := by
  unfold Machine.imageWritten
  split
  · refine trans ?_ (endSave _)
    exact of_view rfl
  · exact trans (reportFault _ _ s) (endSave _)

theorem pageWritten (ok : Bool) (s : State) : OuterKept s (pageWritten ok s) := by
  unfold Machine.pageWritten
  refine trans ?_ (requestDirectory _)
  split <;> exact of_view rfl

theorem storeDone (op : FlashOp) (d ok : Bool) {react : State → State} (s : State) (h : ∀ u, OuterKept u (react u)) :
    OuterKept s (storeDone op d ok react s) := by
  have hfreed := trans (flashEffect op ok s) (portFreed _)
  unfold Machine.storeDone
  dsimp only
  split
  · exact hfreed
  · exact trans hfreed (h _)

/-! ### The Sound Engine's reads -/

theorem voiceReadDone (v addr len : Nat) (d ok : Bool) (s : State) : OuterKept s (voiceReadDone v addr len d ok s) := by
  have hfreed : OuterKept s (Machine.portFreed (if flashEnd < addr + len then spendFree s else s)) := by
    split
    · exact of_view rfl
    · exact portFreed s
  unfold Machine.voiceReadDone
  refine trans hfreed ?_
  generalize Machine.portFreed _ = u
  dsimp only
  split
  · exact refl u
  · split
    · exact trans (reportFault _ _ u) (of_offLoco (offLoco_of_offSound (cueEnd_offSound _ _)))
    · exact trans (setMemories (fl := u.flash) id (Mem.wf_writeBytes _ _ _ _))
        (of_offLoco (offLoco_of_offSound (voiceDataArrived_offSound _ _)))

end OuterKept

end Sys2Proof.Machine
end

section
/-! Every effect keeps the parts outside the locomotive: O2, O5 and O6. -/

namespace Sys2Proof.Machine
namespace OuterKept

/-! ### The Beacon Receiver -/

theorem setBeacon {b : Beacon} {s : State} (h : b.learn.slot = s.beacon.learn.slot) :
    OuterKept s { s with beacon := b } := of_view (by simp only [view, h])

theorem sendConsistHold (p : List Byte) (s : State) : OuterKept s (sendConsistHold p s) := by
  unfold Machine.sendConsistHold
  refine trans ?_ (queueReply _ _)
  exact of_view rfl

/-- The bytes a learn writes fit into their slot (R158, R165). -/
theorem learnBurst (s : State) : OuterKept s (learnBurst s) := by
  unfold Machine.learnBurst
  dsimp only
  refine setStore rfl rfl rfl rfl rfl rfl fun h => ⟨?_, h.staged, h.inside, h.slot⟩
  have hslot := h.slot
  have hlimit : 480 + 29 * s.beacon.learn.slot + (5 + slotLimit s.beacon.learn.slot) ≤ 776 := by
    unfold slotLimit
    split <;> omega
  refine (overlay_length _ _ _ ?_).trans h.length
  rw [h.length]
  simp only [List.length_append, List.length_cons, List.length_nil, List.length_map, List.length_take]
  omega

theorem lineLaws : LineLaws OuterKept where
  refl := refl
  trans := trans
  beacon := setBeacon
  send p s := trans (b := spendFree s) (of_view rfl) (sendConsistHold p _)
  learn := learnBurst
  activity := locoLaws.activity
  installStop := locoLaws.installStop
  installCap := locoLaws.installCap
  momentaryStart := locoLaws.momentaryStart
  beaconFunction := locoLaws.beaconFunction

theorem learnExpires (s : State) : OuterKept s (learnExpires s) := by
  unfold Machine.learnExpires
  split
  · exact locoLaws.ite (setBeacon rfl)
  · exact refl s

/-! ### Resets and reads -/

theorem queuesSound_reset : QueuesSound State.reset :=
  ⟨by decide, by decide, by decide, nofun, nofun, ⟨nofun, nofun⟩, ⟨nofun, nofun⟩, nofun⟩

theorem factorySettings_length : factorySettings.length = 776 := by
  have hmotor : defaultMotor.length = 64 := rfl
  have hmap : defaultFunctionMap.length = 64 := rfl
  have hcues : ((List.range 32).flatMap defaultCue).length = 192 := rfl
  have hslots : defaultSlots.length = 232 := rfl
  simp only [factorySettings, List.length_append, hmotor, hmap, hcues, hslots]
  rfl

theorem settingsSound_reset : SettingsSound State.reset := ⟨factorySettings_length, nofun, nofun, by decide⟩

theorem powerOn (s : State) : OuterKept s (powerOn s) where
  pending := rfl
  memories h := ⟨h.1, rfl⟩
  settings _ := ⟨settingsSound_reset.length, nofun, nofun, settingsSound_reset.slot⟩
  queues _ := (queuesSound_iff _).2 ((queuesSound_iff State.reset).1 queuesSound_reset)

theorem softReset (s : State) : OuterKept s (softReset s) where
  pending := rfl
  memories h := ⟨h.1, rfl⟩
  settings _ := ⟨settingsSound_reset.length, nofun, nofun, settingsSound_reset.slot⟩
  queues _ := (queuesSound_iff _).2 ((queuesSound_iff State.reset).1 queuesSound_reset)

theorem flashBytes_length (s : State) (a n : Nat) : (flashBytes s a n).length = n := by
  rw [flashBytes, List.length_map, List.length_range]

theorem loadSettings (ok : Bool) (s : State) : OuterKept s (loadSettings ok s) := by
  unfold Machine.loadSettings
  dsimp only
  have hlen : (checkedImage (fun _ => true) ((flashBytes s 0 778).take 776)).length = 776 := by
    have h : ((flashBytes s 0 778).take 776).length = 776 := by rw [List.length_take, flashBytes_length]; rfl
    rw [checkedImage_length _ _ (by omega), h]
  generalize checkedImage _ _ = img at hlen
  generalize (ok && imageValid (flashBytes s 0 778)) = valid
  have hreports : OuterKept s (if valid = true then if ok = true then s else Machine.reportFault .flashError false s
      else Machine.reportFault .settingsDefaulted false
        (if ok = true then s else Machine.reportFault .flashError false s)) := by
    split <;> split <;> exact of_view rfl
  refine trans hreports (setSettings fun _ => ?_)
  split
  · exact hlen
  · exact settingsSound_reset.length

theorem startUpDone (ok : Bool) (vt vs : Nat) (s : State) : OuterKept s (startUpDone ok vt vs s) := by
  have hend (u : State) : OuterKept u (Machine.portFreed (endReset u)) := of_view rfl
  unfold Machine.startUpDone
  refine trans (trans (trans (loadSettings ok s) (hend _)) ?_) (requestDirectory _)
  exact of_offLoco (supplyStart_offLoco _ _ _)

theorem directoryReadDone (ok : Bool) (s : State) : OuterKept s (directoryReadDone ok s) := by
  unfold Machine.directoryReadDone
  dsimp only
  generalize (if ok = true then parseDirectory _ else none) = parsed
  refine trans ?_ (updateMode _)
  split <;> exact of_view rfl

/-! ### The requests -/

theorem row {act : Asked → State → Answer × State} (h : Row act) (a : Asked) (s : State) : OuterKept s (act a s).2 := by
  cases h with
  | claim => exact withPayload_keeps refl a s fun _ => tableLaws.claimTaken _ _ _ _ _ s
  | release => exact withPayload_keeps refl a s fun _ => tableLaws.releaseTaken _ _ s
  | drive =>
    refine withPayload_keeps refl a s fun _ => ?_
    unfold actDrive plain driveTaken
    split
    · exact refl s
    · exact trans (tableLaws.setDrive _ s) (locoLaws.driveStored _ _ _ _)
  | func =>
    refine withPayload_keeps refl a s fun _ => ?_
    unfold actFunc plain funcRequest
    split
    · exact refl s
    · split
      · exact refl s
      · split
        · exact refl s
        · exact locoLaws.funcTaken _ _ _ _ s
  | stop => exact locoLaws.stopTaken _ s
  | resume => exact locoLaws.resume a s
  | consist => exact withPayload_keeps refl a s fun h => consistRequest _ _ _ _ s (by rw [List.length_drop]; omega)
  | cfgOpen =>
    refine withPayload_keeps refl a s fun _ => ?_
    unfold actCfgOpen
    split
    · exact refl s
    · exact cfgOpenTaken _ _ _ _ _ s
  | cfgData =>
    refine withPayload_keeps refl a s fun _ => ?_
    unfold actCfgData
    split
    · exact refl s
    · dsimp only
      have hdata := cfgDataTaken (halfAt a.frame.payload 0) (a.frame.payload.drop 2) a.src s
      split <;> exact hdata
  | cfgClose => exact cfgCloseTaken a.src s
  | save => exact saveTaken a.src s
  | check =>
    unfold actCheck
    split
    · exact of_offLoco (checkTaken_offLoco s)
    · exact refl s
  | clearFaults =>
    unfold actClearFaults
    split
    · exact of_offLoco (clearFaults_offLoco s)
    · exact refl s
  | learn =>
    refine withPayload_keeps refl a s fun _ => localOnly_keeps refl a s ?_
    split
    · exact refl s
    next hslot => exact setStore rfl rfl rfl rfl rfl rfl fun h => ⟨h.length, h.staged, h.inside, Nat.le_of_not_lt hslot⟩
  | outputLocal =>
    refine withPayload_keeps refl a s fun _ => localOnly_keeps refl a s ?_
    split
    · exact refl s
    · exact of_view rfl
  | reset => exact localOnly_keeps refl a s (of_view rfl)
  | reads h =>
    obtain h | h := h a s
    · rw [h]; exact refl s
    · rw [h]; exact of_view rfl

/-! ### Every effect -/

theorem outputPeriod (ma0 ma1 : Nat) (s : State) : OuterKept s (outputPeriod ma0 ma1 s) := by
  have hgroup (g ma : Nat) (u : State) : OuterKept u (checkGroup g ma u) := locoLaws.ite (of_view rfl)
  unfold Machine.outputPeriod
  refine trans (trans (hgroup 0 ma0 s) (hgroup 1 ma1 _)) ?_
  exact of_view rfl

theorem effect {s t : State} (h : Effect s t) : OuterKept s t := by
  cases h with
  | none => exact refl s
  | powerOn => exact powerOn s
  | softReset => exact softReset s
  | startUp ok vt vs => exact startUpDone ok vt vs s
  | freed => exact portFreed s
  | frame which body q => exact setPort fun h => h.takeBytes _
  | byte which b => exact setPort fun h => h.takeByte b
  | gap which => exact setPort fun h => h.gapTimeout
  | request act hrow wanted which f m => exact handle_keeps (Q := OuterKept) trans popIntake tableLaws.present (row hrow) replyIf which f m s
  | allCall which => exact trans (popIntake which s) (locoLaws.stopTaken none _)
  | consistHold which f _ => exact trans (popIntake which s) (locoLaws.consistHoldTaken _ _)
  | popped which => exact popIntake which s
  | discarded => exact discardFrame s
  | txnTimeout => exact endTxn s
  | store ok r d react h hw hr =>
    refine storeDone r.op d ok s fun u => ?_
    obtain ⟨-, rfl⟩ | ⟨-, rfl⟩ | ⟨-, rfl⟩ := hr
    · exact eraseDone ok u
    · exact imageWritten ok u
    · exact pageWritten ok u
  | sendStart which => exact startSending which s
  | sent which => exact finishSending which s
  | rate => exact locoLaws.ite (of_view rfl)
  | silence i => exact tableLaws.silenceIfDue i s
  | forget i => exact tableLaws.forgetIfDue i s
  | reservation i => exact tableLaws.reservationsExpire i s
  | control c m => exact of_offLoco (controlPeriod_offLoco c m s)
  | short c => exact of_offLoco (shortSensed_offLoco c s)
  | retry => exact of_offLoco (faultRetried_offLoco s)
  | camInput l => exact of_offLoco (camInput_offLoco l s)
  | camChuff => exact of_offLoco (camChuffed_offLoco s)
  | dwell => exact locoLaws.dwellReached s
  | budget vt vs => exact of_offLoco (budgetPeriod_offLoco vt vs s)
  | output a b => exact outputPeriod a b s
  | groupRetry g =>
    unfold groupRetried
    split
    · exact locoLaws.ite (of_view rfl)
    · exact refl s
  | momentary i => exact locoLaws.switchExpires i s
  | sample => exact of_offLoco (offLoco_of_offSound (sampleEvent_offSound s))
  | volume n => exact of_offLoco rfl
  | envelope v => exact of_offLoco (offLoco_of_offSound (envelopeStep_offSound v s))
  | voiceRead ok v addr len r d => exact voiceReadDone v addr len d ok s
  | directory ok => exact directoryReadDone ok s
  | flashStart =>
    unfold startFlashRequest
    split
    · exact refl s
    · split
      · exact of_offLoco rfl
      · exact refl s
  | smoke t => exact of_offLoco (smokePeriod_offLoco t s)
  | puff => exact of_offLoco (puffEnds_offLoco s)
  | fan => exact of_offLoco (fanStops_offLoco s)
  | line l _ => exact lineLaws.sampleEighths l s
  | learn => exact learnExpires s

/-- One millisecond touches no waiting frame and no partial one but its gap. -/
theorem tick (s : State) : OuterKept s (tick s) := by
  have hport {which : Port} {p : PortState} (h : IntakeSound which p) : IntakeSound which (tickPort p) := by
    unfold tickPort
    split
    · exact h
    · exact ⟨h.capacity, h.frames, h.rx, h.quality⟩
  have hports : OuterKept s { s with
      partTime := s.partTime + 1, radio := tickPort s.radio, localLine := tickPort s.localLine } :=
    ⟨rfl, id, fun h => ⟨h.length, h.staged, h.inside, h.slot⟩, fun h => by
      obtain ⟨hr, hl, hq⟩ := (queuesSound_iff s).1 h
      exact (queuesSound_iff _).2 ⟨hport hr, hport hl, hq⟩⟩
  unfold Machine.tick
  dsimp only
  split
  · exact hports
  · refine trans hports ?_
    exact of_view rfl

end OuterKept

/-- Settles O2: every command answers one of the effects, and none of them touches the queue of commands. -/
theorem everyCommandAnswersNext : Obligations.EveryCommandAnswersNext := by
  unfold Obligations.EveryCommandAnswersNext
  intro c s
  obtain ⟨t, ht, he⟩ := exec_effect c s
  exact ⟨t, ht, (OuterKept.effect he).pending⟩

/-- Settles O5: by cases over what a step can do. -/
theorem stepKeepsMemoriesAndSettings : Obligations.StepKeepsMemoriesAndSettings := by
  unfold Obligations.StepKeepsMemoriesAndSettings
  refine ⟨fun s t hs h => ?memories, fun s t hs h => ?settings⟩
  case memories =>
    exact step_keeps (fun _ _ h => h) (fun s => (OuterKept.tick s).memories) (fun _ _ h e => (OuterKept.effect e).memories h)
      hs h
  case settings =>
    exact step_keeps (fun _ _ h => ⟨h.length, h.staged, h.inside, h.slot⟩) (fun s => (OuterKept.tick s).settings)
      (fun _ _ h e => (OuterKept.effect e).settings h) hs h

/-- Settles O6: by cases over what a step can do. -/
theorem stepKeepsQueuesSound : Obligations.StepKeepsQueuesSound := by
  unfold Obligations.StepKeepsQueuesSound
  intro s t hs h
  exact step_keeps (fun s _ h => (queuesSound_iff _).2 ((queuesSound_iff s).1 h)) (fun s => (OuterKept.tick s).queues)
    (fun _ _ h e => (OuterKept.effect e).queues h) hs h

end Sys2Proof.Machine
end

section
/-! The claims: every effect keeps them sound, O4. -/

namespace Sys2Proof.Machine

/-- What is sound of the claims in `s` is sound in `t`. -/
def ClaimsKept (s t : State) : Prop := ClaimsSound s → ClaimsSound t

namespace ClaimsKept

theorem refl (s : State) : ClaimsKept s s := id

theorem trans {a b c : State} (h : ClaimsKept a b) (k : ClaimsKept b c) : ClaimsKept a c := k ∘ h

theorem of_view {s t : State} (h : t.claimsView = s.claimsView) : ClaimsKept s t := fun hs => hs.of_view h

theorem of_offLoco {s t : State} (h : t.offLoco = s.offLoco) : ClaimsKept s t := of_view (claimsView_of_offLoco h)

theorem locoLaws : LocoLaws ClaimsKept := .of_offLoco of_offLoco trans

theorem updateMode (s : State) : ClaimsKept s (updateMode s) := of_view (claimsView_of_offSound (updateMode_offSound s))

theorem endTxn (s : State) : ClaimsKept s (endTxn s) := of_view (endTxn_claimsView s)

/-! ### The sender of a request that the Throttle Table handed over -/

theorem rateCheck_taken {i j : Nat} {e : ThrottleEntry} {f : Frame} {s : State} (hi : i < s.throttles.length)
    (h : (rateCheck i e f s).1 = .taken j) : (entry (rateCheck i e f s).2 j).isSome = true := by
  unfold rateCheck at h ⊢
  dsimp only at h ⊢
  split at h
  next hk =>
    rw [if_pos hk, entry_setEntry _ _ _ _ hi, if_pos (Presented.taken.inj h)]
    rfl
  next hk =>
    rw [if_neg hk]
    split at h
    next hc =>
      rw [if_pos hc, entry_setEntry _ _ _ _ hi, if_pos (Presented.taken.inj h)]
      rfl
    next => cases h

theorem find_range_lt {p : Nat → Bool} {n i : Nat} (h : (List.range n).find? p = some i) : i < n :=
  List.mem_range.1 (List.mem_of_find?_eq_some h)

theorem evictionChoice_lt {s : State} {i : Nat} (h : evictionChoice s = some i) : i < 16 := by
  unfold evictionChoice at h
  split at h
  · cases h
  next x xs hl =>
    have hfold (l : List Nat) (a : Nat) : l.foldl (fun a b => if silence s a < silence s b then b else a) a ∈ a :: l := by
      induction l generalizing a with
      | nil => exact List.mem_singleton.2 rfl
      | cons b l ih =>
        obtain hb | hb := List.mem_cons.1 (ih (if silence s a < silence s b then b else a))
        · rw [List.foldl_cons, hb]
          split <;> simp
        · exact List.mem_cons_of_mem _ (List.mem_cons_of_mem _ hb)
    have hmem := hfold xs x
    rw [Option.some.inj h, ← hl] at hmem
    exact List.mem_range.1 (List.mem_of_mem_filter hmem)

theorem unknownId_taken {f : Frame} {s : State} {j : Nat} (hs : ClaimsSound s) (h : (unknownId f s).1 = .taken j) :
    (entry (unknownId f s).2 j).isSome = true := by
  unfold unknownId learnAt at h ⊢
  split at h
  next i hi =>
    refine rateCheck_taken ?_ h
    rw [hs.table]
    exact find_range_lt hi
  next =>
    split at h
    next i hi =>
      refine rateCheck_taken ?_ h
      rw [(removeEntry_sound i s hs (evictionChoice_unnamed s i hi)).table]
      exact evictionChoice_lt hi
    next =>
      dsimp only at h
      split at h <;> cases h

/-- A frame that the Throttle Table hands over has an entry (R42). -/
theorem present_taken {f : Frame} {s : State} {j : Nat} (hs : ClaimsSound s) (h : (present f s).1 = .taken j) :
    (entry (present f s).2 j).isSome = true := by
  unfold present at h ⊢
  split at h
  · exact unknownId_taken hs h
  next i hi =>
    split at h
    · exact unknownId_taken hs h
    next e he =>
      dsimp only at h ⊢
      split at h
      · cases h
      next hseq =>
        rw [if_neg hseq]
        refine rateCheck_taken ?_ h
        rw [(heard_sound i e f s hs).table]
        exact find_range_lt hi

/-! ### The requests -/

theorem queueReply (f : OutFrame) (s : State) : ClaimsKept s (queueReply f s) := by
  have h := queueReply_sameButReplies f s
  unfold sameButReplies at h
  rw [h]
  exact of_view rfl

theorem replyIf (draws : Bool) (which : Port) (f : Frame) (path : Byte) (src : Option Source) (r : Answer × State) :
    ClaimsKept r.2 (replyIf draws which f path src r) := by
  unfold Machine.replyIf
  split
  · exact queueReply _ _
  · exact refl _

theorem setPort (which : Port) (p : PortState) (s : State) : ClaimsKept s (setPort which p s) := by
  cases which <;> exact of_view rfl

theorem settingsInstalled (old s : State) : ClaimsKept s (settingsInstalled old s) := by
  have htimes (u : State) : ClaimsKept u (throttleTimesChanged old u) := by
    unfold throttleTimesChanged
    dsimp only
    refine trans (locoLaws.ite fun h => ?_) (locoLaws.ite fun h => ?_)
    · exact foldl_sound _ (fun s i h => silenceIfDue_sound i s h) _ _ h
    · exact foldl_sound _ (fun s i h => forgetIfDue_sound i s h) _ _ h
  unfold Machine.settingsInstalled
  dsimp only
  refine trans ?_ (htimes _)
  refine trans ?_ (of_view (claimsView_of_offSound (ambientChanged_offSound _ _)))
  refine trans (trans (locoLaws.featureEvents old s) (locoLaws.consistTold old _)) ?_
  generalize consistTold old _ = u
  unfold periodChanged setpointChanged chuffSourceChanged
  dsimp only
  split <;> split <;> split <;> exact of_view rfl

theorem cfgClose (src : Source) (s : State) : ClaimsKept s (cfgCloseTaken src s).2.2 := by
  have hrenew : ClaimsKept s (renewTxn src s) := locoLaws.ite (of_view rfl)
  unfold cfgCloseTaken
  split
  · exact refl s
  · refine trans hrenew ?_
    generalize renewTxn src s = u
    dsimp only
    split
    · exact endTxn u
    · split
      · exact endTxn u
      · split
        · unfold closeSettings applySettings
          dsimp only
          refine trans (trans ?_ (settingsInstalled u _)) (endTxn _)
          exact of_view rfl
        · split
          · exact refl u
          · unfold closeBank
            refine trans (trans ?_ (endTxn _)) (of_view (claimsView_of_offSound (requestFlash_offSound _ _ _)))
            exact of_view rfl

theorem cfgData (o : Nat) (bs : List Byte) (src : Source) (s : State) : ClaimsKept s (cfgDataTaken o bs src s).2 := by
  have hrenew : ClaimsKept s (renewTxn src s) := locoLaws.ite (of_view rfl)
  unfold cfgDataTaken
  split
  · exact refl s
  · refine trans hrenew ?_
    generalize renewTxn src s = u
    dsimp only
    split
    · exact refl u
    · split
      · exact refl u
      · split
        · exact endTxn u
        · exact of_view rfl

theorem driveTaken (m : Mark) (g st d : Nat) (src : Source) (s : State) :
    ClaimsKept s (driveTaken m g st d src s).2 := by
  unfold Machine.driveTaken
  split
  · exact refl s
  · refine trans (fun h => ?_) (locoLaws.driveStored _ _ _ _)
    exact ⟨h.shape, h.distinct, nextGeneration_range h.generation, h.present, h.table, h.groups⟩

/-- A request of a sender that is present keeps the claims sound. -/
theorem row {act : Asked → State → Answer × State} (hrow : Row act) (a : Asked) (s : State)
    (hsrc : ClaimsSound s → SenderPresent a.src s) : ClaimsKept s (act a s).2 := by
  cases hrow with
  | claim => exact withPayload_keeps refl a s fun _ h => claimTaken_sound _ _ _ _ _ s h (hsrc h)
  | release => exact withPayload_keeps refl a s fun _ h => releaseTaken_sound _ _ s h
  | drive => exact withPayload_keeps refl a s fun _ => driveTaken _ _ _ _ _ s
  | func =>
    refine withPayload_keeps refl a s fun _ => ?_
    unfold actFunc plain funcRequest
    split
    · exact refl s
    · split
      · exact refl s
      · split
        · exact refl s
        · exact locoLaws.funcTaken _ _ _ _ s
  | stop => exact locoLaws.stopTaken _ s
  | resume => exact locoLaws.resume a s
  | consist =>
    refine withPayload_keeps refl a s fun _ => ?_
    unfold actConsist plain consistRequest
    split
    · exact refl s
    · split
      · exact refl s
      · split
        · exact refl s
        · refine trans ?_ (locoLaws.consistTold s _)
          exact of_view rfl
  | cfgOpen =>
    refine withPayload_keeps refl a s fun _ => ?_
    unfold actCfgOpen
    split
    · exact refl s
    · unfold plain cfgOpenTaken
      split
      · exact locoLaws.ite (of_view rfl)
      · refine trans ?_ (updateMode _)
        exact of_view rfl
  | cfgData =>
    refine withPayload_keeps refl a s fun _ => ?_
    unfold actCfgData
    split
    · exact refl s
    · dsimp only
      have hdata := cfgData (halfAt a.frame.payload 0) (a.frame.payload.drop 2) a.src s
      split <;> exact hdata
  | cfgClose => exact cfgClose a.src s
  | save =>
    unfold actSave plain saveTaken
    split
    · exact refl s
    · split
      · exact refl s
      · unfold beginSave
        refine trans (trans ?_ (updateMode _)) (of_view (claimsView_of_offSound (requestFlash_offSound _ _ _)))
        exact of_view rfl
  | check =>
    unfold actCheck
    split
    · exact of_offLoco (checkTaken_offLoco s)
    · exact refl s
  | clearFaults =>
    unfold actClearFaults
    split
    · exact of_offLoco (clearFaults_offLoco s)
    · exact refl s
  | learn =>
    refine withPayload_keeps refl a s fun _ => localOnly_keeps refl a s ?_
    split
    · exact refl s
    · exact of_view rfl
  | outputLocal =>
    refine withPayload_keeps refl a s fun _ => localOnly_keeps refl a s ?_
    split
    · exact refl s
    · exact of_view rfl
  | reset => exact localOnly_keeps refl a s (of_view rfl)
  | reads h =>
    obtain h | h := h a s
    · rw [h]; exact refl s
    · rw [h]; exact of_view rfl

theorem handle {act : Asked → State → Answer × State} (hrow : Row act) (which : Port) (f : Frame) (m : Mark) (s : State) :
    ClaimsKept s (handle act which f m s) := by
  have hpop : ClaimsKept s (popIntake which s) := setPort _ _ s
  have hdecide (draws : Bool) (src : Source) (t : State) (hsrc : ClaimsSound t → SenderPresent src t) :
      ClaimsKept t (decideRequest act which f m draws src t) := by
    unfold decideRequest
    exact trans (row hrow ⟨f, m, src⟩ t hsrc) (replyIf _ _ _ _ _ _)
  unfold Machine.handle
  cases which with
  | localLine => exact trans hpop (hdecide _ .localMaster _ nofun)
  | radio =>
    intro hs
    have hs := hpop hs
    generalize popIntake .radio s = u at hs
    have hp := present_sound f u hs
    dsimp only
    split
    next i hi =>
      refine hdecide _ _ _ (fun _ j hj => ?_) hp
      cases hj
      exact present_taken hs hi
    · exact replyIf _ _ _ _ _ _ hp
    · exact hp

/-! ### Every effect -/

theorem claimsSound_reset : ClaimsSound State.reset where
  shape := .inl ⟨rfl, rfl⟩
  distinct := List.nodup_nil
  generation := ⟨by decide, by decide⟩
  present i h := by cases h
  table := rfl
  groups := rfl

theorem lineLaws : LineLaws ClaimsKept where
  refl := refl
  trans := trans
  beacon _ := of_view rfl
  send p s := trans (b := { spendFree s with holdSeq := s.holdSeq + 1 }) (of_view rfl) (queueReply _ _)
  learn _ := of_view rfl
  activity := locoLaws.activity
  installStop := locoLaws.installStop
  installCap := locoLaws.installCap
  momentaryStart := locoLaws.momentaryStart
  beaconFunction := locoLaws.beaconFunction

theorem discardFrame (s : State) : ClaimsKept s (discardFrame s) := by
  unfold Machine.discardFrame
  split
  · have hpop (which : Port) : ClaimsKept s (popIntake which s) := setPort _ _ s
    dsimp only
    split
    · exact trans (hpop _) (setPort _ _ _)
    · exact trans (hpop _) (setPort _ _ _)
    · exact hpop _
    · exact refl s
  · exact refl s

theorem requestDirectory (s : State) : ClaimsKept s (requestDirectory s) :=
  of_view (claimsView_of_offSound (requestDirectory_offSound s))

theorem endSave (s : State) : ClaimsKept s (endSave s) := by
  unfold Machine.endSave
  refine trans ?_ (updateMode _)
  exact of_view rfl

theorem storeDone (op : FlashOp) (d ok : Bool) {react : State → State} (s : State) (h : ∀ u, ClaimsKept u (react u)) :
    ClaimsKept s (storeDone op d ok react s) := by
  have hfreed : ClaimsKept s (portFreed (flashEffect op ok s)) := by
    obtain ⟨fl, n, h⟩ := flashEffect_frame op ok s
    rw [h]
    exact of_view rfl
  unfold Machine.storeDone
  dsimp only
  split
  · exact hfreed
  · exact trans hfreed (h _)

theorem storeReact {ok : Bool} {op : FlashOp} {react : State → State}
    (hr : (op = .eraseSettings ∧ react = eraseDone ok) ∨ ((∃ image, op = .writeImage image) ∧ react = imageWritten ok) ∨
      ((∃ page bytes, op = .writePage page bytes) ∧ react = pageWritten ok)) (u : State) : ClaimsKept u (react u) := by
  obtain ⟨-, rfl⟩ | ⟨-, rfl⟩ | ⟨-, rfl⟩ := hr
  · unfold eraseDone
    split
    · exact of_view (claimsView_of_offSound (requestFlash_offSound _ _ _))
    · exact trans (b := reportFault .flashError false u) (of_view rfl) (endSave _)
  · unfold imageWritten
    split
    · refine trans ?_ (endSave _)
      exact of_view rfl
    · exact trans (b := reportFault .flashError false u) (of_view rfl) (endSave _)
  · unfold pageWritten
    refine trans ?_ (requestDirectory _)
    split <;> exact of_view rfl

theorem startUpDone (ok : Bool) (vt vs : Nat) (s : State) : ClaimsKept s (startUpDone ok vt vs s) := by
  have hload : ClaimsKept s (loadSettings ok s) := by
    unfold loadSettings
    dsimp only
    generalize checkedImage _ _ = img
    generalize (ok && imageValid (flashBytes s 0 778)) = valid
    split <;> split <;> exact of_view rfl
  unfold Machine.startUpDone
  refine trans (trans (b := portFreed (endReset (loadSettings ok s))) ?_ ?_) (requestDirectory _)
  · exact trans hload (of_view rfl)
  · exact of_offLoco (supplyStart_offLoco _ _ _)

theorem voiceReadDone (v addr len : Nat) (d ok : Bool) (s : State) : ClaimsKept s (voiceReadDone v addr len d ok s) := by
  have hfreed : ClaimsKept s (portFreed (if flashEnd < addr + len then spendFree s else s)) := by
    split <;> exact of_view rfl
  unfold Machine.voiceReadDone
  refine trans hfreed ?_
  generalize portFreed _ = u
  dsimp only
  split
  · exact refl u
  · split
    · exact trans (b := reportFault .flashError false u) (of_view rfl)
        (of_view (claimsView_of_offSound (cueEnd_offSound _ _)))
    · refine trans ?_ (of_view (claimsView_of_offSound (voiceDataArrived_offSound v _)))
      exact of_view rfl

theorem directoryReadDone (ok : Bool) (s : State) : ClaimsKept s (directoryReadDone ok s) := by
  unfold Machine.directoryReadDone
  dsimp only
  generalize (if ok = true then parseDirectory _ else none) = parsed
  refine trans ?_ (updateMode _)
  split <;> exact of_view rfl

theorem rateExpires (s : State) : ClaimsKept s (rateExpires s) := by
  unfold Machine.rateExpires
  refine locoLaws.ite fun h => ⟨h.shape, h.distinct, h.generation, fun i hi => ?_, ?_, h.groups⟩
  · have hentry := h.present i hi
    unfold entry at hentry ⊢
    rw [List.getD_eq_getElem?_getD] at hentry ⊢
    rw [List.getElem?_map]
    cases hget : s.throttles[i]? with
    | none => rw [hget] at hentry; cases hentry
    | some e => rw [hget] at hentry; cases e with
      | none => cases hentry
      | some e => rfl
  · rw [List.length_map, h.table]

theorem effect {s t : State} (h : Effect s t) : ClaimsKept s t := by
  cases h with
  | none => exact refl s
  | powerOn => exact fun _ => claimsSound_reset.of_view rfl
  | softReset => exact fun _ => claimsSound_reset.of_view rfl
  | startUp ok vt vs => exact startUpDone ok vt vs s
  | freed => exact of_view rfl
  | frame which => exact setPort which _ s
  | byte which => exact setPort which _ s
  | gap which => exact setPort which _ s
  | request act hrow wanted which f m => exact handle hrow which f m s
  | allCall which => exact trans (setPort which _ s) (locoLaws.stopTaken none _)
  | consistHold which f _ => exact trans (setPort which _ s) (locoLaws.consistHoldTaken _ _)
  | popped which => exact setPort which _ s
  | discarded => exact discardFrame s
  | txnTimeout => exact endTxn s
  | store ok r d react h hw hr => exact storeDone r.op d ok s (storeReact hr)
  | sendStart which =>
    unfold startSending
    split
    · exact setPort _ _ s
    · exact refl s
  | sent which =>
    unfold finishSending
    dsimp only
    split
    · refine trans ?_ (setPort _ _ _)
      exact of_view rfl
    · exact refl s
  | rate => exact rateExpires s
  | silence i => exact silenceIfDue_sound i s
  | forget i => exact forgetIfDue_sound i s
  | reservation i => exact reservationsExpire_sound i s
  | control c m => exact of_offLoco (controlPeriod_offLoco c m s)
  | short c => exact of_offLoco (shortSensed_offLoco c s)
  | retry => exact of_offLoco (faultRetried_offLoco s)
  | camInput l => exact of_offLoco (camInput_offLoco l s)
  | camChuff => exact of_offLoco (camChuffed_offLoco s)
  | dwell => exact locoLaws.dwellReached s
  | budget vt vs => exact of_offLoco (budgetPeriod_offLoco vt vs s)
  | output a b =>
    have hgroup (g ma : Nat) (u : State) : ClaimsKept u (checkGroup g ma u) := locoLaws.ite (of_view rfl)
    unfold outputPeriod
    refine trans (trans (hgroup 0 a s) (hgroup 1 b _)) ?_
    exact of_view rfl
  | groupRetry g =>
    unfold groupRetried
    split
    · exact locoLaws.ite (of_view rfl)
    · exact refl s
  | momentary i => exact locoLaws.switchExpires i s
  | sample => exact of_view (claimsView_of_offSound (sampleEvent_offSound s))
  | volume n => exact of_view rfl
  | envelope v => exact of_view (claimsView_of_offSound (envelopeStep_offSound v s))
  | voiceRead ok v addr len r d => exact voiceReadDone v addr len d ok s
  | directory ok => exact directoryReadDone ok s
  | flashStart =>
    unfold startFlashRequest
    split
    · exact refl s
    · split
      · exact of_view rfl
      · exact refl s
  | smoke t => exact of_offLoco (smokePeriod_offLoco t s)
  | puff => exact of_offLoco (puffEnds_offLoco s)
  | fan => exact of_offLoco (fanStops_offLoco s)
  | line l _ => exact lineLaws.sampleEighths l s
  | learn =>
    unfold learnExpires
    split
    · exact locoLaws.ite (of_view rfl)
    · exact refl s

end ClaimsKept

/-- Settles O4: by cases over what a step can do; a request by what the Throttle Table makes of its sender. -/
theorem stepKeepsClaimsSound : Obligations.StepKeepsClaimsSound := by
  unfold Obligations.StepKeepsClaimsSound
  intro s t hs h
  refine step_keeps (fun _ _ h => h.of_view rfl) (fun s h => h.of_view ?_) (fun _ _ h e => ClaimsKept.effect e h) hs h
  unfold tick
  dsimp only
  split <;> rfl

end Sys2Proof.Machine
end

section
/-! The laws an invariant of the locomotive's blocks has to obey, and that every effect but a control period then keeps
it. -/

namespace Sys2Proof.Machine

/-- The state with everything blanked that no invariant of the locomotive's blocks reads: the ports and queues, the two
tables, the Beacon Receiver, the outputs, the memories, the Fault List, and what only counts or waits. -/
def State.core (s : State) : State :=
  { s with
    partTime := 0, resetWait := false, throttles := [], refusedLearns := 0, rateDue := 0, drive := State.reset.drive,
    groups := [], radio := resetPort, localLine := resetPort, replies := [], holdSeq := 0, outputs := [], trips := [],
    lightDemand := 0, voiceRam := [], beacon := resetBeacon, unsaved := false, changedSinceCopy := false, image := [],
    flash := [], faults := [], freeCount := 0, pending := [] }

/-- The operations built of a hold, a demand, a switch or a start request. -/
structure MotionLaws (Q : State → State → Prop) : Prop where
  driveStored : ∀ step d src s, s.phase = .running → Q s (driveStored step d src s)
  funcTaken : ∀ g mask values src s, Q s (funcTaken g mask values src s)
  beaconFunction : ∀ i d s, Q s (beaconFunction i d s)
  switchExpires : ∀ i s, Q s (switchExpires i s)
  momentaryStart : ∀ c s, Q s (momentaryStart c s)
  stopTaken : ∀ src s, Q s (stopTaken src s)
  resume : ∀ a s, Q s (actResume a s).2
  installStop : ∀ decel dwell rev o s, s.phase = .running → Q s (installStop decel dwell rev o s)
  installCap : ∀ value limit o s, s.phase = .running → Q s (installCap value limit o s)
  dwellReached : ∀ s, Q s (dwellReached s)

theorem LocoLaws.motionLaws {Q : State → State → Prop} (k : LocoLaws Q) : MotionLaws Q where
  driveStored step d src s _ := k.driveStored step d src s
  funcTaken := k.funcTaken
  beaconFunction := k.beaconFunction
  switchExpires := k.switchExpires
  momentaryStart := k.momentaryStart
  stopTaken := k.stopTaken
  resume := k.resume
  installStop decel dwell rev o s _ := k.installStop decel dwell rev o s
  installCap value limit o s _ := k.installCap value limit o s
  dwellReached := k.dwellReached

/-! ### The start-up phase -/

/-- The Claim Table and the Throttle Table leave the start-up phase alone. -/
theorem phaseTable : TableLaws (fun s t => t.phase = s.phase) where
  refl _ := rfl
  trans h h' := h'.trans h
  table _ _ _ _ _ := rfl
  endTxn _ := (congrArg State.phase (updateMode_offSound _) :)
  radioLoss _ := rfl
  removeHold _ _ := rfl
  activity s := (congrArg State.phase (activity_offLoads s) :)

/-- The locomotive's blocks leave the start-up phase alone. -/
theorem locoPhase : LocoLaws (fun s t => t.phase = s.phase) :=
  .of_offLoco (fun h => (congrArg State.phase h :)) fun h h' => h'.trans h

/-- Taking a request keeps a relation that its parts keep, the owner's decision after the start-up only. -/
theorem handle_running_keeps {Q : State → State → Prop} (htrans : ∀ {a b c}, Q a b → Q b c → Q a c)
    (hpop : ∀ which s, Q s (popIntake which s)) (hpresent : ∀ f s, Q s (present f s).2)
    {act : Asked → State → Answer × State} (hact : ∀ a s, s.phase = .running → Q s (act a s).2)
    (hreply : ∀ draws which f path src r, Q r.2 (replyIf draws which f path src r))
    (which : Port) (f : Frame) (m : Mark) {s : State} (hp : s.phase = .running) : Q s (handle act which f m s) := by
  have hpopped (w : Port) : (popIntake w s).phase = .running := by cases w <;> exact hp
  have hdecide (draws : Bool) (src : Source) {t : State} (ht : t.phase = .running) :
      Q t (decideRequest act which f m draws src t) := htrans (hact ⟨f, m, src⟩ t ht) (hreply _ _ _ _ _ _)
  unfold handle
  cases which with
  | localLine => exact htrans (hpop .localLine s) (hdecide _ _ (hpopped _))
  | radio =>
    have hq := htrans (hpop .radio s) (hpresent f _)
    have hrun : (present f (popIntake .radio s)).2.phase = .running := (phaseTable.present f _).trans (hpopped _)
    dsimp only
    split
    · exact htrans hq (hdecide _ _ hrun)
    · exact htrans hq (hreply _ .radio f f.pathByte none (_, (present f _).2))
    · exact hq

/-- What an operation of the Store ends in (R173, R174). -/
def StoreReacts (ok : Bool) (op : FlashOp) (react : State → State) : Prop :=
  (op = .eraseSettings ∧ react = eraseDone ok) ∨ ((∃ image, op = .writeImage image) ∧ react = imageWritten ok) ∨
    ((∃ page bytes, op = .writePage page bytes) ∧ react = pageWritten ok)

/-- A relation that everything but a control period and the end of the start-up keeps, each operation under what its
command has checked before. -/
structure CoreLaws (Q : State → State → Prop) : Prop extends TableLaws Q, MotionLaws Q where
  side : ∀ {s t : State}, t.core = s.core → Q s t
  powerOn : ∀ s, Q s (powerOn s)
  softReset : ∀ s, Q s (softReset s)
  freed : ∀ r s, s.port.busy = some (r, true) → Q s (portFreed s)
  consist : ∀ addr pos flags mask src s, s.phase = .running → 4 ≤ mask.length → Q s (consistRequest addr pos flags mask src s).2
  learnt : ∀ s, Q s (learnBurst s)
  applied : ∀ s, s.phase = .running → s.txn.state = .openWrite → s.txn.target = .settings →
    Q s (applySettings s.txn.start (stagedBytes s) s).2
  staged : ∀ x s, x.state = s.txn.state → x.target = s.txn.target → Q s { s with txn := x }
  openTxn : ∀ x s, s.job = .none → Q s (updateMode { s with txn := x })
  closeBank : ∀ s, s.phase = .running → s.txn.state ≠ .closed → s.txn.target = .bank → s.job ≠ .save → Q s (closeBank s)
  beginSave : ∀ s, s.phase = .running → s.job = .none → Q s (beginSave s)
  store : ∀ ok r d react s, s.port.busy = some (r, d) → r.who = .store → StoreReacts ok r.op react →
    Q s (storeDone r.op d ok react s)
  check : ∀ s, Q s (checkTaken s)
  cleared : ∀ s, Q s (clearFaults s)
  short : ∀ c s, Q s (shortSensed c s)
  retry : ∀ s, Q s (faultRetried s)
  camInput : ∀ l s, Q s (camInput l s)
  camChuff : ∀ s, Q s (camChuffed s)
  budget : ∀ vt vs s, Q s (budgetPeriod vt vs s)
  sample : ∀ s, Q s (sampleEvent s)
  volume : ∀ n s, Q s { s with sound := { s.sound with master := n } }
  envelope : ∀ v s, v < 6 → Q s (envelopeStep v s)
  voiceRead : ∀ ok v addr len r d s, s.port.busy = some (r, d) → r.who = .voice v → Q s (voiceReadDone v addr len d ok s)
  directory : ∀ ok r s, s.port.busy = some (r, false) → r.who = .directory → Q s (directoryReadDone ok s)
  flashStart : ∀ s, Q s (startFlashRequest s)
  smoke : ∀ t s, Q s (smokePeriod t s)
  puff : ∀ s, Q s (puffEnds s)
  fan : ∀ s, Q s (fanStops s)

namespace CoreLaws
variable {Q : State → State → Prop} (k : CoreLaws Q)
include k

theorem setPort (which : Port) (p : PortState) (s : State) : Q s (setPort which p s) := by
  cases which <;> exact k.side rfl

theorem popIntake (which : Port) (s : State) : Q s (popIntake which s) := k.setPort _ _ s

theorem queueReply (f : OutFrame) (s : State) : Q s (queueReply f s) := by
  have h := queueReply_sameButReplies f s
  unfold sameButReplies at h
  rw [h]
  exact k.side rfl

theorem replyIf (draws : Bool) (which : Port) (f : Frame) (path : Byte) (src : Option Source) (r : Answer × State) :
    Q r.2 (replyIf draws which f path src r) := by
  unfold Machine.replyIf
  split
  · exact k.queueReply _ _
  · exact k.refl _

theorem consistHoldTaken (p : List Byte) (s : State) (hp : s.phase = .running) : Q s (consistHoldTaken p s) := by
  unfold Machine.consistHoldTaken
  dsimp only
  split
  · exact k.installStop _ _ _ _ s hp
  · exact k.ite (k.installCap _ _ _ s hp)

/-- The Beacon Receiver's operations, which run from the end of the start-up (R178). -/
theorem lineLaws : LineLaws (fun s t => s.phase = .running → Q s t ∧ t.phase = .running) :=
  have kept {s t : State} (h : t.phase = s.phase) (hq : Q s t) : s.phase = .running → Q s t ∧ t.phase = .running :=
    fun hp => ⟨hq, h.trans hp⟩
  { refl s := kept rfl (k.refl s)
    trans h h' hp := ⟨k.trans (h hp).1 (h' (h hp).2).1, (h' (h hp).2).2⟩
    beacon _ := kept rfl (k.side rfl)
    send p s := by
      have hq (f : OutFrame) (u : State) : (Machine.queueReply f u).phase = u.phase := by
        have h := queueReply_sameButReplies f u
        unfold sameButReplies at h
        rw [h]
      refine kept ?_ (k.trans (b := { spendFree s with holdSeq := s.holdSeq + 1 }) (k.side rfl) (k.queueReply _ _))
      exact hq _ { spendFree s with holdSeq := s.holdSeq + 1 }
    learn s := kept rfl (k.learnt s)
    activity s := kept (congrArg State.phase (activity_offLoads s) :) (k.activity s)
    installStop decel dwell rev o s hp := ⟨k.installStop decel dwell rev o s hp, (locoPhase.installStop _ _ _ _ s).trans hp⟩
    installCap value limit o s hp := ⟨k.installCap value limit o s hp, (locoPhase.installCap _ _ _ s).trans hp⟩
    momentaryStart c s := kept (locoPhase.momentaryStart c s) (k.momentaryStart c s)
    beaconFunction i d s := kept (locoPhase.beaconFunction i d s) (k.beaconFunction i d s) }

theorem renewTxn (src : Source) (s : State) : Q s (renewTxn src s) := k.ite (k.staged _ s rfl rfl)

theorem cfgOpenTaken (target dir start count : Nat) (src : Source) (s : State) :
    Q s (cfgOpenTaken target dir start count src s).2 := by
  unfold Machine.cfgOpenTaken
  split
  next => exact k.renewTxn src s
  next hok =>
    refine k.openTxn _ s ?_
    unfold openRefusal at hok
    split at hok <;> [cases hok; split at hok] <;> [cases hok; split at hok]
    · cases hok
    next h => exact not_not.1 fun hj => h (.inr hj)

theorem cfgDataTaken (o : Nat) (bs : List Byte) (src : Source) (s : State) : Q s (cfgDataTaken o bs src s).2 := by
  unfold Machine.cfgDataTaken
  split
  · exact k.refl s
  · refine k.trans (k.renewTxn src s) ?_
    generalize Machine.renewTxn src s = u
    dsimp only
    split
    · exact k.refl u
    · split
      · exact k.refl u
      · split
        · exact k.endTxn u
        · exact k.staged _ u rfl rfl

theorem cfgCloseTaken (src : Source) (s : State) (hp : s.phase = .running) : Q s (cfgCloseTaken src s).2.2 := by
  unfold Machine.cfgCloseTaken
  split
  · exact k.refl s
  next hopen =>
    have hstate : (Machine.renewTxn src s).txn.state ≠ .closed := by
      unfold txnRefusal at hopen
      unfold Machine.renewTxn
      split at hopen
      · cases hopen
      next h => split <;> exact h
    have hphase : (Machine.renewTxn src s).phase = .running := by
      unfold Machine.renewTxn
      split <;> exact hp
    refine k.trans (k.renewTxn src s) ?_
    generalize Machine.renewTxn src s = u at hstate hphase
    dsimp only
    split
    · exact k.endTxn u
    next hread =>
      have hw : u.txn.state = .openWrite := by
        revert hstate hread
        cases u.txn.state <;> simp
      split
      · exact k.endTxn u
      · split
        next ht =>
          unfold closeSettings
          exact k.trans (k.applied u hphase hw ht) (k.endTxn _)
        next ht =>
          split
          · exact k.refl u
          next hj =>
            refine k.closeBank u hphase hstate ?_ hj
            revert ht
            cases u.txn.target <;> simp

/-- Each owner's decision, once the start-up has ended. -/
theorem row {act : Asked → State → Answer × State} (h : Row act) (a : Asked) (s : State) (hp : s.phase = .running) :
    Q s (act a s).2 := by
  cases h with
  | claim => exact withPayload_keeps k.refl a s fun _ => k.claimTaken _ _ _ _ _ s
  | release => exact withPayload_keeps k.refl a s fun _ => k.releaseTaken _ _ s
  | drive =>
    refine withPayload_keeps k.refl a s fun _ => ?_
    unfold actDrive plain driveTaken
    split
    · exact k.refl s
    · refine k.trans (k.setDrive _ s) (k.driveStored _ _ _ _ ?_)
      exact hp
  | func =>
    refine withPayload_keeps k.refl a s fun _ => ?_
    unfold actFunc plain funcRequest
    split
    · exact k.refl s
    · split
      · exact k.refl s
      · split
        · exact k.refl s
        · exact k.funcTaken _ _ _ _ s
  | stop => exact k.stopTaken _ s
  | resume => exact k.resume a s
  | consist => exact withPayload_keeps k.refl a s fun h => k.consist _ _ _ _ _ s hp (by rw [List.length_drop]; omega)
  | cfgOpen =>
    refine withPayload_keeps k.refl a s fun _ => ?_
    unfold actCfgOpen
    split
    · exact k.refl s
    · exact k.cfgOpenTaken _ _ _ _ _ s
  | cfgData =>
    refine withPayload_keeps k.refl a s fun _ => ?_
    unfold actCfgData
    split
    · exact k.refl s
    · dsimp only
      have hdata := k.cfgDataTaken (halfAt a.frame.payload 0) (a.frame.payload.drop 2) a.src s
      split <;> exact hdata
  | cfgClose => exact k.cfgCloseTaken a.src s hp
  | save =>
    unfold actSave plain saveTaken
    split
    · exact k.refl s
    · split
      · exact k.refl s
      next hj => exact k.beginSave s hp (not_not.1 hj)
  | check =>
    unfold actCheck
    split
    · exact k.check s
    · exact k.refl s
  | clearFaults =>
    unfold actClearFaults
    split
    · exact k.cleared s
    · exact k.refl s
  | learn =>
    refine withPayload_keeps k.refl a s fun _ => localOnly_keeps k.refl a s ?_
    split
    · exact k.refl s
    · exact k.side rfl
  | outputLocal =>
    refine withPayload_keeps k.refl a s fun _ => localOnly_keeps k.refl a s ?_
    split
    · exact k.refl s
    · exact k.side rfl
  | reset => exact localOnly_keeps k.refl a s (k.side rfl)
  | reads h =>
    obtain h | h := h a s
    · rw [h]; exact k.refl s
    · rw [h]; exact k.side rfl

theorem discardFrame (s : State) : Q s (discardFrame s) := by
  unfold Machine.discardFrame
  split
  · dsimp only
    split
    · exact k.trans (k.popIntake _ s) (k.setPort _ _ _)
    · exact k.trans (k.popIntake _ s) (k.setPort _ _ _)
    · exact k.popIntake _ s
    · exact k.refl s
  · exact k.refl s

theorem outputPeriod (ma0 ma1 : Nat) (s : State) : Q s (outputPeriod ma0 ma1 s) := by
  have hgroup (g ma : Nat) (u : State) : Q u (checkGroup g ma u) := k.ite (k.side rfl)
  unfold Machine.outputPeriod
  refine k.trans (k.trans (hgroup 0 ma0 s) (hgroup 1 ma1 _)) ?_
  exact k.side rfl

/-- Every effect keeps the relation, but for the control period and the end of the start-up, which are left to the
invariant's own account. -/
theorem effect {s t : State} (h : Effect s t) :
    Q s t ∨ (∃ c m, s.phase = .running ∧ t = controlPeriod c m s) ∨
      ∃ ok vt vs r, s.port.busy = some (r, false) ∧ r.who = .startUp ∧ t = startUpDone ok vt vs s := by
  cases h
  case control c m hp => exact .inr (.inl ⟨c, m, hp, rfl⟩)
  case startUp ok vt vs r hb hw => exact .inr (.inr ⟨ok, vt, vs, r, hb, hw, rfl⟩)
  all_goals left
  case none => exact k.refl s
  case powerOn => exact k.powerOn s
  case softReset => exact k.softReset s
  case freed r hb => exact k.freed r s hb
  case frame which body q => exact k.setPort which _ s
  case byte which b => exact k.setPort which _ s
  case gap which => exact k.setPort which _ s
  case request act hrow wanted which f m hf =>
    exact handle_running_keeps (Q := Q) k.trans k.popIntake k.present (k.row hrow) k.replyIf which f m (frontRequest_running hf)
  case allCall which => exact k.trans (k.popIntake which s) (k.stopTaken none _)
  case consistHold which f hp =>
    exact k.trans (k.popIntake which s) (k.consistHoldTaken _ _ (by cases which <;> exact hp))
  case popped which => exact k.popIntake which s
  case discarded => exact k.discardFrame s
  case txnTimeout => exact k.endTxn s
  case store ok r d react hb hw hr => exact k.store ok r d react s hb hw hr
  case sendStart which =>
    unfold startSending
    split
    · exact k.setPort _ _ s
    · exact k.refl s
  case sent which =>
    unfold finishSending
    dsimp only
    split
    · refine k.trans ?_ (k.setPort _ _ _)
      exact k.side rfl
    · exact k.refl s
  case rate => exact k.ite (k.side rfl)
  case silence i => exact k.silenceIfDue i s
  case forget i => exact k.forgetIfDue i s
  case reservation i => exact k.reservationsExpire i s
  case short c => exact k.short c s
  case retry => exact k.retry s
  case camInput l => exact k.camInput l s
  case camChuff => exact k.camChuff s
  case dwell => exact k.dwellReached s
  case budget vt vs _ => exact k.budget vt vs s
  case output a b => exact k.outputPeriod a b s
  case groupRetry g =>
    unfold groupRetried
    split
    · exact k.ite (k.side rfl)
    · exact k.refl s
  case momentary i => exact k.switchExpires i s
  case sample => exact k.sample s
  case volume n => exact k.volume n s
  case envelope v hv => exact k.envelope v s hv
  case voiceRead ok v addr len r d hb hw _ => exact k.voiceRead ok v addr len r d s hb hw
  case directory ok r hb hw => exact k.directory ok r s hb hw
  case flashStart => exact k.flashStart s
  case smoke t => exact k.smoke t s
  case puff => exact k.puff s
  case fan => exact k.fan s
  case line l hp => exact (k.lineLaws.sampleEighths l s hp).1
  case learn =>
    unfold learnExpires
    split
    · exact k.ite (k.side rfl)
    · exact k.refl s

end CoreLaws

/-! ### An installed image (R168) -/

/-- What the other blocks make of new settings, once the features and the Motion Controller have taken them. -/
theorem settingsInstalled_after {Q : State → State → Prop} (k : TableLaws Q) (old s : State)
    (effects : ∀ u, Q u (effectsChanged old u)) (chuffSource : ∀ u, Q u (chuffSourceChanged old u))
    (setpoint : ∀ u, Q u (setpointChanged old u)) (period : ∀ u, Q u (periodChanged old u))
    (ambient : ∀ c u, Q u (ambientChanged c u)) :
    Q (consistTold old (featureEvents old s)) (settingsInstalled old s) := by
  unfold settingsInstalled
  dsimp only
  refine k.trans ?_ (k.throttleTimesChanged old _)
  refine k.trans ?_ (ambient _ _)
  refine k.trans ?_ (period _)
  refine k.trans ?_ (setpoint _)
  refine k.trans ?_ (chuffSource _)
  exact effects _

/-- What each block makes of new settings keeps a relation that the blocks' own operations keep. -/
theorem settingsInstalled_keeps {Q : State → State → Prop} (k : TableLaws Q) (old s : State)
    (events : Q s (consistTold old (featureEvents old s))) (effects : ∀ u, Q u (effectsChanged old u))
    (chuffSource : ∀ u, Q u (chuffSourceChanged old u)) (setpoint : ∀ u, Q u (setpointChanged old u))
    (period : ∀ u, Q u (periodChanged old u)) (ambient : ∀ c u, Q u (ambientChanged c u)) :
    Q s (settingsInstalled old s) :=
  k.trans events (settingsInstalled_after k old s effects chuffSource setpoint period ambient)

end Sys2Proof.Machine
end

section
/-! What only the Sound Engine, the Flash Port, the Settings Store or the Smoke Controller has to do with: each of these
operations leaves the rest of the locomotive alone, said once by a blanked state. -/

namespace Sys2Proof.Machine

/-! ### Everything but the Smoke Controller -/

/-- The state with the Smoke Controller, the Fault List and the free-value counter blanked. -/
def State.offSmoke (s : State) : State := { s with smoke := resetSmoke, faults := [], freeCount := 0 }

theorem sameButSmoke_of_offSmoke {s t : State} (h : t.offSmoke = s.offSmoke) : sameButSmoke s t := by
  have := congrArg (fun u : State => { u with smoke := t.smoke, faults := t.faults, freeCount := t.freeCount }) h
  exact this

theorem fanOnEntry_offSmoke (st : SmokeState) (s : State) : (fanOnEntry st s).offSmoke = s.offSmoke := by
  unfold fanOnEntry
  split
  · rfl
  · rfl
  · rfl
  · split <;> rfl
  · split <;> rfl

theorem enterSmoke_offSmoke (st : SmokeState) (s : State) : (enterSmoke st s).offSmoke = s.offSmoke := by
  have h : ∀ u : State, State.offSmoke (applyHeater { u with
      smoke := { u.smoke with demand := heaterDemand u st }
      freeCount := if u.smoke.temp.isNone then u.freeCount + 1 else u.freeCount }) = u.offSmoke := fun _ => rfl
  unfold enterSmoke
  dsimp only
  rw [h]
  split
  · rfl
  · exact fanOnEntry_offSmoke st _

theorem smokeDecide_offSmoke (s : State) : (smokeDecide s).offSmoke = s.offSmoke := by
  unfold smokeDecide
  dsimp only
  split
  · rfl
  · split
    · rfl
    · exact enterSmoke_offSmoke _ _

theorem smokeSensorDetected_offSmoke (s : State) : (smokeSensorDetected s).offSmoke = s.offSmoke := by
  unfold smokeSensorDetected
  dsimp only
  split
  · split <;> rfl
  · rfl

theorem fanAtPeriod_offSmoke (s : State) : (fanAtPeriod s).offSmoke = s.offSmoke := by
  unfold fanAtPeriod
  repeat' split
  all_goals rfl

theorem fanInFault_offSmoke (valid : Bool) (s : State) : (fanInFault valid s).offSmoke = s.offSmoke := by
  unfold fanInFault
  split
  · split
    · rfl
    · exact fanAtPeriod_offSmoke s
  · exact fanAtPeriod_offSmoke s

theorem firstOffEntry_offSmoke (s : State) : (firstOffEntry s).offSmoke = s.offSmoke := by
  unfold firstOffEntry
  split
  · exact fanOnEntry_offSmoke _ s
  · rfl

theorem smokePeriod_offSmoke (r : Int) (s : State) : (smokePeriod r s).offSmoke = s.offSmoke := by
  have htaken : (takeReading r (takeSmokeSettings s)).offSmoke = s.offSmoke := rfl
  have hsensed : (smokeSensorDetected (takeSmokeSettings s)).offSmoke = s.offSmoke := smokeSensorDetected_offSmoke _
  unfold smokePeriod
  dsimp only
  show State.offSmoke (ite _ _ _) = _
  split
  · split
    · exact (fanInFault_offSmoke _ _).trans hsensed
    · exact hsensed
  · split
    · exact (fanInFault_offSmoke _ _).trans htaken
    · split
      · exact htaken
      · split
        · exact ((enterSmoke_offSmoke _ _).trans (firstOffEntry_offSmoke _)).trans ((fanAtPeriod_offSmoke _).trans htaken)
        · exact (enterSmoke_offSmoke _ _).trans htaken

theorem smokeChuff_offSmoke (s : State) : (smokeChuff s).offSmoke = s.offSmoke := by
  unfold smokeChuff
  dsimp only
  split <;> rfl

theorem puffEnds_offSmoke (s : State) : (puffEnds s).offSmoke = s.offSmoke := by
  unfold puffEnds
  split
  · split <;> rfl
  · rfl

theorem fanStops_offSmoke (s : State) : (fanStops s).offSmoke = s.offSmoke := by
  unfold fanStops
  split
  · split <;> rfl
  · rfl

theorem smokeCleared_offSmoke (s : State) : (smokeCleared s).offSmoke = s.offSmoke := by
  unfold smokeCleared
  split <;> rfl

/-! ### Everything but the Sound Engine, the Flash Port and the Settings Store's transaction and job -/

/-- The state with everything blanked that `State.core` blanks, and the Sound Engine, the Flash Port, the transaction and
the flash job too. -/
def State.body (s : State) : State :=
  { s.core with sound := resetSound, port := { waiting := [], busy := none }, txn := resetTxn, job := .none }

theorem body_of_offSound {s t : State} (h : t.offSound = s.offSound) : t.body = s.body := by
  have := congrArg State.body h
  exact this

theorem body_of_core {s t : State} (h : t.core = s.core) : t.body = s.body :=
  congrArg (fun u : State =>
    { u with sound := resetSound, port := { waiting := [], busy := none }, txn := resetTxn, job := FlashJob.none }) h

theorem endTxn_body (s : State) : (endTxn s).body = s.body :=
  (body_of_offSound (updateMode_offSound _)).trans rfl

theorem endSave_body (s : State) : (endSave s).body = s.body :=
  (body_of_offSound (updateMode_offSound _)).trans rfl

theorem closeBank_body (s : State) : (closeBank s).body = s.body :=
  (body_of_offSound (requestFlash_offSound _ _ _)).trans (endTxn_body _)

theorem beginSave_body (s : State) : (beginSave s).body = s.body :=
  ((body_of_offSound (requestFlash_offSound _ _ _)).trans (body_of_offSound (updateMode_offSound _))).trans rfl

theorem storeReact_body {ok : Bool} {op : FlashOp} {react : State → State} (hr : StoreReacts ok op react) (s : State) :
    (react s).body = s.body := by
  have hfault : (endSave (reportFault .flashError false s)).body = s.body := endSave_body _
  obtain ⟨-, rfl⟩ | ⟨-, rfl⟩ | ⟨-, rfl⟩ := hr
  · unfold eraseDone
    split
    · exact body_of_offSound (requestFlash_offSound _ _ s)
    · exact hfault
  · unfold imageWritten
    split
    · exact endSave_body _
    · exact hfault
  · unfold pageWritten
    refine (body_of_offSound (requestDirectory_offSound _)).trans ?_
    split <;> rfl

theorem storeDone_body {ok d : Bool} {op : FlashOp} {react : State → State} (hr : StoreReacts ok op react) (s : State) :
    (storeDone op d ok react s).body = s.body := by
  have hfreed : (portFreed (flashEffect op ok s)).body = s.body := by
    obtain ⟨fl, n, h⟩ := flashEffect_frame op ok s
    rw [h]
    rfl
  unfold storeDone
  dsimp only
  split
  · exact hfreed
  · exact (storeReact_body hr _).trans hfreed

theorem voiceReadDone_body (v addr len : Nat) (d ok : Bool) (s : State) : (voiceReadDone v addr len d ok s).body = s.body := by
  have hfreed : (portFreed (if flashEnd < addr + len then spendFree s else s)).body = s.body := by
    split <;> rfl
  unfold voiceReadDone
  refine Eq.trans ?_ hfreed
  generalize portFreed _ = u
  dsimp only
  split
  · rfl
  · split
    · exact (body_of_offSound (cueEnd_offSound _ _)).trans rfl
    · exact (body_of_offSound (voiceDataArrived_offSound _ _)).trans rfl

theorem directoryReadDone_body (ok : Bool) (s : State) : (directoryReadDone ok s).body = s.body := by
  unfold directoryReadDone
  dsimp only
  generalize (if ok = true then parseDirectory _ else none) = parsed
  refine (body_of_offSound (updateMode_offSound _)).trans ?_
  split <;> rfl

theorem startFlashRequest_body (s : State) : (startFlashRequest s).body = s.body := by
  unfold startFlashRequest
  split
  · rfl
  · split <;> rfl

/-- The laws that are left for a relation that reads nothing of the Sound Engine, the Flash Port, the transaction and the
flash job. -/
structure BodyLaws (Q : State → State → Prop) : Prop extends MotionLaws Q where
  refl : ∀ s, Q s s
  trans : ∀ {a b c}, Q a b → Q b c → Q a c
  body : ∀ {s t : State}, t.body = s.body → Q s t
  radioLoss : ∀ s, Q s (requestRadioLoss s)
  removeHold : ∀ src s, Q s (removeHold src s)
  activity : ∀ s, Q s (activity s)
  powerOn : ∀ s, Q s (powerOn s)
  softReset : ∀ s, Q s (softReset s)
  consist : ∀ addr pos flags mask src s, s.phase = .running → 4 ≤ mask.length → Q s (consistRequest addr pos flags mask src s).2
  learnt : ∀ s, Q s (learnBurst s)
  applied : ∀ s, s.phase = .running → s.txn.state = .openWrite → s.txn.target = .settings →
    Q s (applySettings s.txn.start (stagedBytes s) s).2
  check : ∀ s, Q s (checkTaken s)
  cleared : ∀ s, Q s (clearFaults s)
  short : ∀ c s, Q s (shortSensed c s)
  retry : ∀ s, Q s (faultRetried s)
  camInput : ∀ l s, Q s (camInput l s)
  camChuff : ∀ s, Q s (camChuffed s)
  budget : ∀ vt vs s, Q s (budgetPeriod vt vs s)
  smoke : ∀ t s, Q s (smokePeriod t s)
  puff : ∀ s, Q s (puffEnds s)
  fan : ∀ s, Q s (fanStops s)

theorem BodyLaws.tableLaws {Q : State → State → Prop} (k : BodyLaws Q) : TableLaws Q where
  refl := k.refl
  trans := k.trans
  table _ _ _ _ _ := k.body rfl
  endTxn s := k.body (endTxn_body s)
  radioLoss := k.radioLoss
  removeHold := k.removeHold
  activity := k.activity

theorem BodyLaws.coreLaws {Q : State → State → Prop} (k : BodyLaws Q) : CoreLaws Q where
  toTableLaws := k.tableLaws
  toMotionLaws := k.toMotionLaws
  side h := k.body (body_of_core h)
  powerOn := k.powerOn
  softReset := k.softReset
  freed _ _ _ := k.body rfl
  consist := k.consist
  learnt := k.learnt
  applied := k.applied
  staged _ _ _ _ := k.body rfl
  openTxn _ _ _ := k.body ((body_of_offSound (updateMode_offSound _)).trans rfl)
  closeBank s _ _ _ _ := k.body (closeBank_body s)
  beginSave s _ _ := k.body (beginSave_body s)
  store _ _ _ _ s _ _ hr := k.body (storeDone_body hr s)
  check := k.check
  cleared := k.cleared
  short := k.short
  retry := k.retry
  camInput := k.camInput
  camChuff := k.camChuff
  budget := k.budget
  sample s := k.body (body_of_offSound (sampleEvent_offSound s))
  volume _ _ := k.body rfl
  envelope v s _ := k.body (body_of_offSound (envelopeStep_offSound v s))
  voiceRead ok v addr len _ d s _ _ := k.body (voiceReadDone_body v addr len d ok s)
  directory ok _ s _ _ := k.body (directoryReadDone_body ok s)
  flashStart s := k.body (startFlashRequest_body s)
  smoke := k.smoke
  puff := k.puff
  fan := k.fan

/-! ### The settings and the supply, under the same laws -/

section
variable {Q : State → State → Prop} (k : LocoLaws Q)
include k

/-- A changed consist record, where the settings alone keep the relation. -/
theorem LocoLaws.consistRequest (hset : ∀ img u c s, Q s { s with settings := img, unsaved := u, changedSinceCopy := c })
    (addr pos flags : Nat) (mask : List Byte) (src : Source) (s : State) :
    Q s (consistRequest addr pos flags mask src s).2 := by
  unfold Machine.consistRequest
  split
  · exact k.refl s
  · split
    · exact k.refl s
    · split
      · exact k.refl s
      · exact k.trans (hset _ _ _ s) (k.consistTold s _)

/-- An applied SETTINGS write, where the settings alone and what each block does with them keep the relation. -/
theorem LocoLaws.applySettings (htable : TableLaws Q)
    (hset : ∀ img u c s, Q s { s with settings := img, unsaved := u, changedSinceCopy := c })
    (houtputs : ∀ l s, Q s { s with outputs := l }) (hbeacon : ∀ b s, Q s { s with beacon := b })
    (hchuff : ∀ old u, Q u (chuffSourceChanged old u)) (hlimit : ∀ u, Q u (setpointApplied u))
    (hambient : ∀ c u, Q u (ambientChanged c u)) (start : Nat) (bs : List Byte) (s : State) :
    Q s (applySettings start bs s).2 := by
  unfold Machine.applySettings markUnsaved
  dsimp only
  refine k.trans (hset (checkedImage (inRange start bs.length) (overlay s.settings start bs)) true true s) ?_
  refine settingsInstalled_keeps htable s _ ?_ (fun u => houtputs _ u) (hchuff s) (fun u => ?_) (fun u => ?_) hambient
  · exact k.trans (k.featureEvents s _) (k.consistTold s _)
  · unfold setpointChanged
    split
    · exact k.refl u
    · exact hlimit u
  · unfold periodChanged
    split
    · exact k.refl u
    · exact hbeacon _ u

end

theorem decideSupply_keeps {Q : State → State → Prop} (hrefl : ∀ s, Q s s) (htrans : ∀ {a b c}, Q a b → Q b c → Q a c)
    (hchange : ∀ n s, Q s (changeSupply n s))
    (htime : ∀ t s, Q s { s with supply := { s.supply with restoreStart := t } }) (s : State) : Q s (decideSupply s) := by
  have htimed : Q s (timeRestore s) := by
    unfold timeRestore
    split
    · exact htime _ s
    · split
      · exact htime _ s
      · exact hrefl s
  unfold decideSupply
  split
  · split
    · exact hchange _ s
    · split
      · exact hchange _ s
      · exact hrefl s
  · split
    · exact hchange _ s
    · split
      · exact hchange _ s
      · exact hrefl s
  · refine htrans htimed ?_
    dsimp only
    split
    · exact hchange _ _
    · split
      · exact hchange _ _
      · exact hrefl _
  · refine htrans htimed ?_
    dsimp only
    split
    · exact hchange _ _
    · exact hrefl _

end Sys2Proof.Machine
end

section
/-! The reference (R7): nothing but stage 3 raises it, and stage 3 never beyond the effective target. Settles O11. -/

namespace Sys2Proof.Machine

/-- The reference does not rise. -/
def RefFalls (s t : State) : Prop := t.motor.R ≤ s.motor.R

namespace RefFalls

theorem refl (s : State) : RefFalls s s := Nat.le_refl _

theorem trans {a b c : State} (h : RefFalls a b) (k : RefFalls b c) : RefFalls a c := Nat.le_trans k h

theorem of_eq {s t : State} (h : t.motor.R = s.motor.R) : RefFalls s t := h.le

theorem of_offSound {s t : State} (h : t.offSound = s.offSound) : RefFalls s t :=
  of_eq (congrArg (fun u : State => u.motor.R) h :)

theorem of_offLoads {s t : State} (h : t.offLoads = s.offLoads) : RefFalls s t :=
  of_eq (congrArg (fun u : State => u.motor.R) h :)

theorem of_offSmoke {s t : State} (h : t.offSmoke = s.offSmoke) : RefFalls s t :=
  of_eq (congrArg (fun u : State => u.motor.R) h :)

theorem of_body {s t : State} (h : t.body = s.body) : RefFalls s t := of_eq (congrArg (fun u : State => u.motor.R) h :)

theorem abandonCheck (s : State) : RefFalls s (abandonCheck s) := by
  unfold Machine.abandonCheck
  split <;> exact of_eq rfl

theorem locoLaws : LocoLaws RefFalls where
  refl := refl
  trans := trans
  start _ _ _ := of_offSound (startRequest_offSound _ _ _)
  trigger _ _ := of_offSound (triggerEnd_offSound _ _)
  decide _ := of_offSmoke (smokeDecide_offSmoke _)
  chuffed _ := of_offSmoke (smokeChuff_offSmoke _)
  demand _ _ := of_eq rfl
  holds _ _ := of_eq rfl
  switches _ _ := of_eq rfl
  turn _ _ := abandonCheck _
  activity _ := of_offLoads (activity_offLoads _)

/-! ### The supply -/

theorem motorDark (s : State) : RefFalls s (motorDark s) := Nat.zero_le _

theorem changeSupply (n : SupplyState) (s : State) : RefFalls s (changeSupply n s) := by
  have hentry : RefFalls s (supplyEntry s.supply.state n s) := by
    unfold supplyEntry
    split
    · split <;> exact of_eq rfl
    · exact of_eq rfl
    · dsimp only
      split <;> exact of_eq rfl
    · exact of_eq rfl
  unfold Machine.changeSupply
  dsimp only
  split
  · exact refl s
  · refine trans hentry ?_
    unfold loadsReact
    dsimp only
    refine trans ?_ (of_offSound (soundSupplyChange_offSound _))
    refine trans ?_ (locoLaws.decide _)
    refine trans ?_ (locoLaws.ite (motorDark _))
    exact locoLaws.ite (abandonCheck _)

theorem budgetPeriod (vt vs : Nat) (s : State) : RefFalls s (budgetPeriod vt vs s) := by
  have hhold (u : State) : RefFalls u (publishGrants (decideHold u)) := by
    unfold decideHold
    split <;> exact of_eq rfl
  exact trans (trans (b := senseSupply vt vs s) (of_eq rfl) (decideSupply_keeps refl trans changeSupply (fun _ _ => of_eq rfl) _))
    (hhold _)

theorem startUpDone (ok : Bool) (vt vs : Nat) (s : State) : RefFalls s (startUpDone ok vt vs s) := by
  have hload : RefFalls s (portFreed (endReset (loadSettings ok s))) := by
    unfold loadSettings
    dsimp only
    generalize checkedImage _ _ = img
    generalize (ok && imageValid (flashBytes s 0 778)) = valid
    split <;> split <;> exact of_eq rfl
  have hstart (u : State) : RefFalls u (supplyStart vt vs u) := by
    unfold supplyStart
    dsimp only
    refine trans ?_ (trans (locoLaws.decide _) (of_eq rfl))
    split
    · exact of_eq rfl
    · exact Nat.zero_le _
  exact trans (trans hload (hstart _)) (of_offSound (requestDirectory_offSound _))

/-! ### Every effect but the control period -/

theorem bodyLaws : BodyLaws RefFalls where
  toMotionLaws := locoLaws.motionLaws
  refl := refl
  trans := trans
  body := of_body
  radioLoss _ := of_eq rfl
  removeHold _ _ := of_eq rfl
  activity := locoLaws.activity
  powerOn _ := Nat.zero_le _
  softReset _ := Nat.zero_le _
  consist addr pos flags mask src s _ _ := locoLaws.consistRequest (fun _ _ _ _ => of_eq rfl) addr pos flags mask src s
  learnt _ := of_eq rfl
  applied s _ _ _ :=
    locoLaws.applySettings (locoLaws.tableLaws (fun _ _ _ _ _ => of_eq rfl) fun s => of_body (endTxn_body s))
      (fun _ _ _ _ => of_eq rfl) (fun _ _ => of_eq rfl) (fun _ _ => of_eq rfl)
      (fun old u => by unfold chuffSourceChanged; split <;> exact of_eq rfl) (fun _ => of_eq rfl)
      (fun _ _ => of_offSound (ambientChanged_offSound _ _)) _ _ s
  check s := by
    unfold checkTaken
    split
    · exact refl s
    · split <;> exact of_eq rfl
  cleared s := trans (b := motorCleared { s with faults := _ }) (of_eq rfl) (of_offSmoke (smokeCleared_offSmoke _))
  short c s := by
    unfold shortSensed
    split
    · split
      · exact of_eq rfl
      · split
        · exact refl s
        · exact of_eq rfl
    · exact refl s
  retry s := by
    unfold faultRetried
    split
    · exact locoLaws.ite (of_eq rfl)
    · exact refl s
  camInput l s := by
    unfold camInput
    split <;> exact of_eq rfl
  camChuff s := by
    unfold camChuffed
    refine locoLaws.ite (trans ?_ (locoLaws.chuff _))
    exact of_eq rfl
  budget := budgetPeriod
  smoke t s := of_offSmoke (smokePeriod_offSmoke t s)
  puff s := of_offSmoke (puffEnds_offSmoke s)
  fan s := of_offSmoke (fanStops_offSmoke s)

end RefFalls

/-! ### The control period (R6, R7) -/

theorem moveReference_le (target : Nat) (accel : Option Nat) (decel : EffDecel) (m : Motor) :
    (moveReference target accel decel m).R ≤ max m.R target := by
  unfold moveReference rampUp rampDown moveInstant
  split
  · split
    · dsimp only
      split <;> (dsimp only; omega)
    · dsimp only
      omega
  · split
    · split
      · dsimp only
        omega
      · dsimp only
        split <;> (dsimp only; omega)
    · exact Nat.le_max_left _ _

theorem speedLoop_R (k : LoopSettings) (target : Nat) (m : Motor) : (speedLoop k target m).R = m.R := by
  unfold speedLoop
  dsimp only
  split <;> rfl

theorem detectFaults_R (s : State) : (detectFaults s).motor.R = s.motor.R := by
  unfold detectFaults
  split
  · rfl
  · split <;> rfl

theorem finishCheck_R (s : State) : (finishCheck s).motor.R = s.motor.R := by
  unfold finishCheck
  split <;> rfl

theorem checkPeriod_R (m p : Nat) (s : State) : (checkPeriod m p s).motor.R = 0 := by
  unfold checkPeriod
  dsimp only
  split
  · rfl
  · split
    · rw [finishCheck_R]
    · rfl

theorem middleStages_R_le (target backEmf : Nat) (accel : Option Nat) (decel : EffDecel) (s : State) :
    (middleStages target backEmf accel decel s).motor.R ≤ max s.motor.R target := by
  unfold middleStages
  split
  · exact Nat.zero_le _
  · split
    · exact moveReference_le target accel decel s.motor
    · rw [checkPeriod_R]
      exact Nat.zero_le _
    · unfold drivePeriod
      dsimp only
      rw [detectFaults_R]
      show (speedLoop _ _ _).R ≤ _
      rw [speedLoop_R]
      exact moveReference_le _ _ _ _

theorem settle_R (b : Bool) (s : State) : (settle b s).motor.R = s.motor.R := by
  unfold settle classify
  split
  · rfl
  · split <;> rfl

theorem afterPublish_R_le (old : MotionPhase) (isChuff ended : Bool) (s : State) :
    (afterPublish old isChuff ended s).motor.R ≤ s.motor.R := by
  unfold afterPublish
  dsimp only
  rw [settle_R]
  exact RefFalls.locoLaws.beforeSettle old isChuff s

/-- A control period raises the reference to the effective target at the most. -/
theorem controlPeriod_R_le (c m : Nat) (s : State) : (controlPeriod c m s).motor.R ≤ max s.motor.R (sEff s) := by
  have hstart : (startCheck s).motor.R = s.motor.R := by
    unfold startCheck
    split <;> rfl
  have hbegin (u : State) (h : u.motor.R = s.motor.R) : (if 0 < sEff s then abandonCheck u else u).motor.R = s.motor.R := by
    split
    · unfold abandonCheck
      split <;> exact h
    · exact h
  unfold controlPeriod
  dsimp only
  refine (afterPublish_R_le _ _ _ _).trans ?_
  refine (middleStages_R_le (sEff s) m _ _ _).trans ?_
  exact max_le_max_right _ (hbegin _ hstart).le

theorem effect_R_le {s t : State} (h : Effect s t) : t.motor.R ≤ max s.motor.R (sEff s) := by
  obtain h | ⟨c, m, -, rfl⟩ | ⟨ok, vt, vs, r, -, -, rfl⟩ := RefFalls.bodyLaws.coreLaws.effect h
  · exact le_max_of_le_left h
  · exact controlPeriod_R_le c m s
  · exact le_max_of_le_left (RefFalls.startUpDone ok vt vs s)

/-- A step raises the reference to the effective target at the most. -/
theorem step_R_le {s t : State} (h : step s = .next t) : t.motor.R ≤ max s.motor.R (sEff s) := by
  obtain ⟨-, rfl⟩ | ⟨rest, he⟩ := step_effect h
  · refine le_max_of_le_left (Nat.le_of_eq ?_)
    unfold tick
    dsimp only
    split <;> rfl
  · exact (effect_R_le he :)

/-! ### The effective target (R35) -/

theorem sEff_of_stopHeld {s : State} (h : stopHeld s = true) : sEff s = 0 := by
  unfold sEff
  rw [h, Bool.true_or, Bool.true_or, if_pos rfl]

theorem underCaps_le_speed (speed : Nat) (caps : List Nat) : underCaps speed caps ≤ speed := by
  unfold underCaps
  induction caps generalizing speed with
  | nil => exact Nat.le_refl _
  | cons c caps ih => exact (ih _).trans (Nat.min_le_left _ _)

theorem underCaps_le_cap {speed v : Nat} {caps : List Nat} (h : v ∈ caps) : underCaps speed caps ≤ v := by
  induction caps generalizing speed with
  | nil => cases h
  | cons c caps ih =>
    obtain rfl | h := List.mem_cons.1 h
    · exact (underCaps_le_speed _ caps).trans (Nat.min_le_right _ _)
    · exact ih h

theorem sEff_le_cap {s : State} {v : Nat} (h : v ∈ capValues s) : sEff s ≤ v := by
  unfold sEff
  split
  · exact Nat.zero_le _
  · exact underCaps_le_cap h

theorem sEff_le_max (s : State) : sEff s ≤ 4000 := by
  have htrimmed : trimmedSpeed s s.demand.step ≤ 4000 := Nat.min_le_left _ _
  unfold sEff
  split
  · exact Nat.zero_le _
  · refine (underCaps_le_speed _ _).trans ?_
    split <;> split <;> omega

/-- Settles O11: a step raises R to the effective target at the most, which is 0 under a STOP, no cap value, and 4000
at the most. -/
theorem referenceObeysTheHolds : Obligations.ReferenceObeysTheHolds := by
  unfold Obligations.ReferenceObeysTheHolds
  intro s t h
  have hle := step_R_le h
  refine ⟨fun hstop => ?stop, fun v hv hcap => ?cap, fun hrange => ?range⟩
  case stop => rwa [sEff_of_stopHeld hstop, Nat.max_zero] at hle
  case cap => exact hle.trans (Nat.max_le.2 ⟨Nat.le_refl _, (sEff_le_cap hv).trans hcap⟩)
  case range => exact hle.trans (Nat.max_le.2 ⟨hrange, sEff_le_max s⟩)

end Sys2Proof.Machine
end

section
/-! The supply state under a change (R147), and the Motor Loop's invariant (Table 1-1, R9, R11, R14 to R21). Settles O8. -/

namespace Sys2Proof.Machine

/-! ### The supply state -/

theorem soundSupplyChange_supply (s : State) : (soundSupplyChange s).supply = s.supply :=
  (congrArg State.supply (soundSupplyChange_offSound s) :)

theorem smokeDecide_supply (s : State) : (smokeDecide s).supply = s.supply :=
  (congrArg State.supply (smokeDecide_offSmoke s) :)

theorem soundSupplyChange_motor (s : State) : (soundSupplyChange s).motor = s.motor :=
  (congrArg State.motor (soundSupplyChange_offSound s) :)

theorem smokeDecide_motor (s : State) : (smokeDecide s).motor = s.motor :=
  (congrArg State.motor (smokeDecide_offSmoke s) :)

/-- The Motor Loop's own part in a change of the supply state (R11, R21, R147). -/
def motorReacts (old : SupplyState) (s : State) : State :=
  let u := if old = .track ∧ s.supply.state ≠ .track then abandonCheck s else s
  if u.supply.state = .dark then motorDark u else u

theorem loadsReact_eq (old : SupplyState) (s : State) :
    loadsReact old s = soundSupplyChange (smokeDecide (motorReacts old s)) := rfl

theorem abandonCheck_supply (s : State) : (abandonCheck s).supply = s.supply := by
  unfold abandonCheck
  split <;> rfl

theorem motorReacts_supply (old : SupplyState) (s : State) : (motorReacts old s).supply = s.supply := by
  have h : (if old = .track ∧ s.supply.state ≠ .track then abandonCheck s else s).supply = s.supply := by
    split
    · exact abandonCheck_supply s
    · rfl
  unfold motorReacts
  generalize (if old = .track ∧ s.supply.state ≠ .track then abandonCheck s else s) = u at h ⊢
  dsimp only
  split <;> exact h

theorem loadsReact_supply (old : SupplyState) (s : State) : (loadsReact old s).supply = s.supply := by
  rw [loadsReact_eq, soundSupplyChange_supply, smokeDecide_supply, motorReacts_supply]

theorem supplyEntry_state (old new : SupplyState) (s : State) : (supplyEntry old new s).supply.state = new := by
  unfold supplyEntry
  split
  · split <;> rfl
  · rfl
  · dsimp only
    split <;> rfl
  · rfl

theorem supplyEntry_motor (old new : SupplyState) (s : State) : (supplyEntry old new s).motor = s.motor := by
  unfold supplyEntry
  split
  · split <;> rfl
  · rfl
  · dsimp only
    split <;> rfl
  · rfl

theorem changeSupply_state (n : SupplyState) (s : State) : (changeSupply n s).supply.state = n := by
  unfold changeSupply
  dsimp only
  split
  next h => exact h
  next => rw [loadsReact_supply, supplyEntry_state]

theorem activity_state (s : State) :
    (activity s).supply.state = if s.supply.state = .parked then .track else s.supply.state := by
  unfold activity
  dsimp only
  split
  · exact changeSupply_state _ _
  · rfl

/-! ### A sound motor -/

/-- What is sound of a motor also in the middle of a control period, where a check that a short has ended is not yet
settled (R13, R20). -/
structure Motor.Part (m : Motor) : Prop where
  cap : 64 ≤ m.cap ∧ m.cap ≤ 1023
  duty : m.Da ≤ m.cap
  fault : m.state = .fault ↔ m.fault.isSome = true
  check : m.state = .check ↔ m.checkProgress.isSome = true
  off : m.state = .fault → m.Da = 0

/-- What `MotorSound` says of the motor alone. -/
structure Motor.Sound (m : Motor) : Prop extends Motor.Part m where
  accepted : m.checkAccepted = true → m.state = .stopped
  shorted : m.checkShorted = true → m.state = .stopped ∧ m.checkAccepted = false ∧ m.Da = 0

/-- The middle of a control period: no check waits to start. -/
structure Motor.Idle (m : Motor) : Prop extends Motor.Part m where
  idle : m.checkAccepted = false

/-- What DARK asks of a motor (R11). -/
def Motor.Dead (m : Motor) : Prop := m.R = 0 ∧ m.Da = 0 ∧ m.I = 0

theorem motorSound_iff (s : State) : MotorSound s ↔ s.motor.Sound ∧ (s.supply.state = .dark → s.motor.Dead) :=
  ⟨fun h => ⟨⟨⟨h.cap, h.duty, h.fault, h.check, h.off⟩, h.accepted, h.shorted⟩, h.dark⟩,
    fun ⟨h, hd⟩ => ⟨h.cap, h.duty, h.fault, h.check, h.accepted, h.shorted, h.off, hd⟩⟩

/-- A motor state that is neither FAULT nor CHECK has neither record. -/
theorem Motor.Part.records {m : Motor} (h : m.Part) (hf : m.state ≠ .fault) (hc : m.state ≠ .check) :
    m.fault = none ∧ m.checkProgress = none :=
  ⟨Option.not_isSome_iff_eq_none.1 fun hs => hf (h.fault.2 hs), Option.not_isSome_iff_eq_none.1 fun hs => hc (h.check.2 hs)⟩

theorem Motor.Sound.not_fault_of_checking {m : Motor} (h : m.Sound) (hc : m.checking = true) : m.state ≠ .fault := by
  unfold Motor.checking at hc
  obtain hc | hc := Bool.or_eq_true_iff.1 hc
  · rw [beq_iff_eq.1 hc]
    nofun
  · rw [h.accepted hc]
    nofun

/-- A check that ends leaves the bridge off in STOPPED (R20, R21). -/
theorem Motor.Part.endCheck {s : State} (h : s.motor.Part) (hf : s.motor.state ≠ .fault) (r : CheckResult)
    (e : Option Nat) : (Machine.endCheck r e s).motor.Part where
  cap := h.cap
  duty := Nat.zero_le _
  fault := ⟨nofun, fun hs => absurd (h.fault.2 hs) hf⟩
  check := ⟨nofun, nofun⟩
  off := nofun

theorem Motor.Sound.abandonCheck {s : State} (h : s.motor.Sound) : (abandonCheck s).motor.Sound := by
  unfold Machine.abandonCheck
  split
  next hc => exact ⟨h.toPart.endCheck (h.not_fault_of_checking hc) _ _, nofun, fun _ => ⟨rfl, rfl, rfl⟩⟩
  next => exact h

theorem Motor.Idle.abandonCheck {s : State} (h : s.motor.Idle) : (abandonCheck s).motor.Idle := by
  unfold Machine.abandonCheck
  split
  next hc =>
    refine ⟨h.toPart.endCheck (fun hf => ?_) _ _, rfl⟩
    simp [Motor.checking, hf, h.idle] at hc
  next => exact h

theorem Motor.Dead.abandonCheck {s : State} (h : s.motor.Dead) : (Machine.abandonCheck s).motor.Dead := by
  unfold Machine.abandonCheck
  split
  · exact ⟨h.1, rfl, h.2.2⟩
  · exact h

theorem Motor.Part.of_eq {m n : Motor} (h : m.Part) (hcap : n.cap = m.cap) (hduty : n.Da = m.Da) (hstate : n.state = m.state)
    (hfault : n.fault = m.fault) (hcheck : n.checkProgress = m.checkProgress) : n.Part :=
  ⟨hcap ▸ h.cap, hduty ▸ hcap ▸ h.duty, hstate ▸ hfault ▸ h.fault, hstate ▸ hcheck ▸ h.check, hstate ▸ hduty ▸ h.off⟩

theorem Motor.Sound.of_eq {m n : Motor} (h : m.Sound) (hcap : n.cap = m.cap) (hduty : n.Da = m.Da)
    (hstate : n.state = m.state) (hfault : n.fault = m.fault) (hcheck : n.checkProgress = m.checkProgress)
    (haccepted : n.checkAccepted = m.checkAccepted) (hshorted : n.checkShorted = m.checkShorted) : n.Sound :=
  ⟨h.toPart.of_eq hcap hduty hstate hfault hcheck, hstate ▸ haccepted ▸ h.accepted,
    hstate ▸ haccepted ▸ hduty ▸ hshorted ▸ h.shorted⟩

/-- A property of the motor, with the dark clause (R11). -/
def Lit (P : Motor → Prop) (s : State) : Prop := P s.motor ∧ (s.supply.state = .dark → s.motor.Dead)

theorem Lit.of_same {P : Motor → Prop} {s t : State} (h : Lit P s) (hm : t.motor = s.motor)
    (hd : t.supply.state = .dark → s.supply.state = .dark) : Lit P t := by
  unfold Lit
  rw [hm]
  exact ⟨h.1, fun ht => h.2 (hd ht)⟩

/-- A property of motors that survives a turn of the locomotive (R12, R21). -/
structure TurnKeeps (P : Motor → Prop) : Prop where
  abandon : ∀ {s : State}, P s.motor → P (abandonCheck s).motor
  halted : ∀ {m : Motor}, P m → P { m with I := 0, rising := 0, falling := 0 }

theorem turnKeeps_sound : TurnKeeps Motor.Sound where
  abandon h := h.abandonCheck
  halted h := h.of_eq rfl rfl rfl rfl rfl rfl rfl

theorem turnKeeps_idle : TurnKeeps Motor.Idle where
  abandon h := h.abandonCheck
  halted h := ⟨h.toPart.of_eq rfl rfl rfl rfl rfl, h.idle⟩

namespace Lit
variable {P : Motor → Prop}

theorem of_offSound {s t : State} (h : t.offSound = s.offSound) (hs : Lit P s) : Lit P t :=
  hs.of_same (congrArg State.motor h :) fun hd => (congrArg (fun u : State => u.supply.state) h :) ▸ hd

theorem of_offSmoke {s t : State} (h : t.offSmoke = s.offSmoke) (hs : Lit P s) : Lit P t :=
  hs.of_same (congrArg State.motor h :) fun hd => (congrArg (fun u : State => u.supply.state) h :) ▸ hd

theorem of_body {s t : State} (h : t.body = s.body) (hs : Lit P s) : Lit P t :=
  hs.of_same (congrArg State.motor h :) fun hd => (congrArg (fun u : State => u.supply.state) h :) ▸ hd

theorem activity (s : State) (hs : Lit P s) : Lit P (activity s) := by
  refine hs.of_same (congrArg State.motor (activity_offLoads s) :) fun hd => ?_
  rw [activity_state] at hd
  split at hd
  · cases hd
  · exact hd

theorem turned (k : TurnKeeps P) (d : Dir) {s : State} (hs : Lit P s) : Lit P (turned d s) := by
  have hdead (h : s.motor.Dead) : Motor.Dead { s.motor with I := 0, rising := 0, falling := 0 } := ⟨h.1, h.2.1, rfl⟩
  unfold Machine.turned
  refine ⟨k.abandon (k.halted hs.1), fun hd => Motor.Dead.abandonCheck (hdead (hs.2 ?_))⟩
  rwa [abandonCheck_supply] at hd

theorem locoLaws (k : TurnKeeps P) : LocoLaws (fun s t => Lit P s → Lit P t) where
  refl _ := id
  trans h h' := h' ∘ h
  start _ _ _ := of_offSound (startRequest_offSound _ _ _)
  trigger _ _ := of_offSound (triggerEnd_offSound _ _)
  decide _ := of_offSmoke (smokeDecide_offSmoke _)
  chuffed _ := of_offSmoke (smokeChuff_offSmoke _)
  demand _ _ h := h
  holds _ _ h := h
  switches _ _ h := h
  turn d _ h := h.turned k d
  activity := activity

/-! ### The supply -/

theorem motorDark {s : State} (h : s.motor.Sound) : Lit Motor.Sound (motorDark s) :=
  ⟨⟨⟨h.cap, Nat.zero_le _, h.fault, h.check, fun _ => rfl⟩, h.accepted,
    fun hs => ⟨(h.shorted hs).1, (h.shorted hs).2.1, rfl⟩⟩, fun _ => ⟨rfl, rfl, rfl⟩⟩

/-- A motor that has left TRACK, or gone dark, is sound in the new supply state (R11, R21). -/
theorem motorReacts (old : SupplyState) {s : State} (h : s.motor.Sound) : Lit Motor.Sound (motorReacts old s) := by
  have habandoned : (if old = .track ∧ s.supply.state ≠ .track then abandonCheck s else s).motor.Sound := by
    split
    · exact h.abandonCheck
    · exact h
  unfold Machine.motorReacts
  generalize (if old = .track ∧ s.supply.state ≠ .track then Machine.abandonCheck s else s) = u at habandoned ⊢
  dsimp only
  split
  next => exact motorDark habandoned
  next hd => exact ⟨habandoned, fun h => absurd h hd⟩

theorem changeSupply (n : SupplyState) (s : State) (h : Lit Motor.Sound s) : Lit Motor.Sound (changeSupply n s) := by
  unfold Machine.changeSupply
  dsimp only
  split
  · exact h
  · rw [loadsReact_eq]
    refine of_offSound (soundSupplyChange_offSound _) (of_offSmoke (smokeDecide_offSmoke _) (motorReacts _ ?_))
    rw [supplyEntry_motor]
    exact h.1

theorem budgetPeriod (vt vs : Nat) (s : State) (h : Lit Motor.Sound s) : Lit Motor.Sound (budgetPeriod vt vs s) := by
  have hsensed : Lit Motor.Sound (senseSupply vt vs s) := h
  have hdecided := decideSupply_keeps (Q := fun s t => Lit Motor.Sound s → Lit Motor.Sound t) (fun _ => id)
    (fun h h' => h' ∘ h) changeSupply (fun _ _ h => h) _ hsensed
  unfold Machine.budgetPeriod decideHold
  split <;> exact hdecided

theorem startUpDone (ok : Bool) (vt vs : Nat) (s : State) (h : Lit Motor.Sound s) :
    Lit Motor.Sound (startUpDone ok vt vs s) := by
  have hload : (portFreed (endReset (loadSettings ok s))).motor = s.motor := by
    unfold loadSettings
    dsimp only
    generalize checkedImage _ _ = img
    generalize (ok && imageValid (flashBytes s 0 778)) = valid
    split <;> split <;> rfl
  have hstart (u : State) (hu : u.motor.Sound) : Lit Motor.Sound (supplyStart vt vs u) := by
    unfold supplyStart
    dsimp only
    refine (?_ : Lit Motor.Sound (smokeDecide _))
    refine of_offSmoke (smokeDecide_offSmoke _) ?_
    split
    · exact ⟨hu, nofun⟩
    · exact motorDark hu
  refine of_offSound (requestDirectory_offSound _) (hstart _ ?_)
  rw [hload]
  exact h.1

/-! ### Faults, shorts and checks -/

theorem takeMotorFault {s : State} (hcap : 64 ≤ s.motor.cap ∧ s.motor.cap ≤ 1023) (hcheck : s.motor.checkProgress = none)
    (k : FaultKind) (retry : Option Time) : (takeMotorFault k retry s).motor.Part where
  cap := hcap
  duty := Nat.zero_le _
  fault := ⟨fun _ => rfl, fun _ => rfl⟩
  check := ⟨nofun, fun h => by
    have h : s.motor.checkProgress.isSome = true := h
    rw [hcheck] at h
    cases h⟩
  off _ := rfl

theorem shortSensed (c : Nat) (s : State) (h : Lit Motor.Sound s) : Lit Motor.Sound (shortSensed c s) := by
  unfold Machine.shortSensed
  split
  next hc =>
    obtain ⟨-, hda, hdark⟩ := hc
    split
    next hk =>
      have hpart := h.1.toPart.endCheck (h.1.not_fault_of_checking hk) .short (some 0)
      refine ⟨⟨hpart.of_eq rfl rfl rfl rfl rfl, nofun, fun _ => ⟨rfl, rfl, rfl⟩⟩, fun hd => absurd hd hdark⟩
    next hk =>
      split
      next => exact h
      next hf =>
        rw [Motor.checking, Bool.or_eq_true_iff, not_or, beq_iff_eq] at hk
        have hpart : (shortDetected s).motor.Part := by
          unfold shortDetected
          dsimp only
          refine takeMotorFault ?_ ?_ _ _
          · exact h.1.cap
          · exact (h.1.records hf hk.1).2
        refine ⟨⟨hpart, fun ha => absurd ha hk.2, fun hs => ?_⟩, fun hd => absurd hd hdark⟩
        exact absurd (h.1.shorted hs).2.2 hda.ne'
  next => exact h

theorem faultRetried (s : State) (h : Lit Motor.Sound s) : Lit Motor.Sound (faultRetried s) := by
  unfold Machine.faultRetried
  split
  next t hm =>
    split
    next =>
      have hf : s.motor.state = .fault := h.1.fault.2 (by rw [hm]; rfl)
      have hc : s.motor.checkProgress = none :=
        Option.not_isSome_iff_eq_none.1 fun hs => by rw [h.1.check.2 hs] at hf; cases hf
      refine ⟨⟨⟨h.1.cap, h.1.duty, ⟨nofun, nofun⟩, ⟨nofun, fun hs => ?_⟩, nofun⟩, fun _ => rfl, fun hs => ?_⟩, h.2⟩
      · have hs : s.motor.checkProgress.isSome = true := hs
        rw [hc] at hs
        cases hs
      · exact absurd ((h.1.shorted hs).1.symm.trans hf) nofun
    next => exact h
  next => exact h

theorem motorCleared {s : State} (h : Lit Motor.Sound s) : Lit Motor.Sound (motorCleared s) := by
  obtain ⟨h, hdark⟩ := h
  by_cases hf : s.motor.state = .fault
  · have hc : s.motor.checkProgress = none :=
      Option.not_isSome_iff_eq_none.1 fun hs => by rw [h.check.2 hs] at hf; cases hf
    refine ⟨⟨⟨h.cap, h.duty, ?_, ?_, ?_⟩, ?_, ?_⟩, hdark⟩
    all_goals simp only [Machine.motorCleared, removeHold, hf, if_true]
    · simp
    · simp [hc]
    · nofun
    · simp
    · exact fun hs => absurd ((h.shorted hs).1.symm.trans hf) nofun
  · refine ⟨⟨⟨h.cap, h.duty, ?_, ?_, ?_⟩, ?_, ?_⟩, hdark⟩
    all_goals simp only [Machine.motorCleared, removeHold, if_neg hf]
    · simp [hf]
    · exact h.check
    · exact fun hs => absurd hs hf
    · exact h.accepted
    · exact h.shorted

theorem checkTaken (s : State) (h : Lit Motor.Sound s) : Lit Motor.Sound (checkTaken s) := by
  unfold Machine.checkTaken
  split
  next => exact h
  next hc =>
    split
    next hs =>
      obtain ⟨-, hstate, -, htrack⟩ := hs
      refine ⟨⟨⟨h.1.cap, Nat.min_le_right _ _, h.1.fault, h.1.check, fun hf => ?_⟩, fun _ => hstate, nofun⟩, fun hd => ?_⟩
      · have hf : s.motor.state = .fault := hf
        rw [hstate] at hf
        cases hf
      · have hd : s.supply.state = .dark := hd
        rw [htrack] at hd
        cases hd
    next => exact ⟨h.1.of_eq rfl rfl rfl rfl rfl rfl rfl, h.2⟩

/-! ### The control period (R3 to R13) -/


theorem startCheck {s : State} (h : s.motor.Sound) : (startCheck s).motor.Idle := by
  unfold Machine.startCheck
  split
  next ha =>
    have hs : s.motor.state = .stopped := h.accepted ha
    have hf : s.motor.fault = none := (h.records (by rw [hs]; nofun) (by rw [hs]; nofun)).1
    refine ⟨⟨h.cap, h.duty, ⟨nofun, fun hk => ?_⟩, ⟨fun _ => rfl, fun _ => rfl⟩, nofun⟩, rfl⟩
    have hk : s.motor.fault.isSome = true := hk
    rw [hf] at hk
    cases hk
  next ha => exact ⟨h.toPart, Bool.eq_false_iff.2 ha⟩

theorem foldCap_range {cap : Nat} (clim c : Nat) (h : 64 ≤ cap ∧ cap ≤ 1023) :
    64 ≤ foldCap clim c cap ∧ foldCap clim c cap ≤ 1023 := by
  unfold foldCap
  split <;> omega

theorem endCheck_idle {s : State} (hcap : 64 ≤ s.motor.cap ∧ s.motor.cap ≤ 1023) (hf : s.motor.fault = none)
    (r : CheckResult) (e : Option Nat) : (endCheck r e s).motor.Idle := by
  refine ⟨⟨hcap, Nat.zero_le _, ⟨nofun, fun hk => ?_⟩, ⟨nofun, nofun⟩, nofun⟩, rfl⟩
  have hk : s.motor.fault.isSome = true := hk
  rw [hf] at hk
  cases hk

theorem finishCheck_idle {s : State} (hcap : 64 ≤ s.motor.cap ∧ s.motor.cap ≤ 1023) (hf : s.motor.fault = none) :
    (finishCheck s).motor.Idle := by
  unfold finishCheck
  split <;> exact endCheck_idle hcap hf _ _

theorem checkPeriod {s : State} (hcap : 64 ≤ s.motor.cap ∧ s.motor.cap ≤ 1023) (hidle : s.motor.checkAccepted = false)
    (hs : s.motor.state = .check) (hf : s.motor.fault = none) (m p : Nat) : (checkPeriod m p s).motor.Idle := by
  have hduty : (if p % 10 = 0 ∨ p = 9 ∨ p = 19 then min 256 s.motor.cap else 0) ≤ s.motor.cap := by
    split <;> omega
  unfold Machine.checkPeriod
  generalize (if p % 10 = 0 ∨ p = 9 ∨ p = 19 then min 256 s.motor.cap else 0) = da at hduty
  generalize (if p % 10 = 1 then s.motor.checkC ++ [s.motor.C] else s.motor.checkC) = cs
  dsimp only
  split
  · exact endCheck_idle (by exact hcap) (by exact hf) _ _
  · split
    · exact finishCheck_idle (by exact hcap) (by exact hf)
    · refine ⟨⟨hcap, hduty, ?_, ?_, fun h => absurd (hs.symm.trans h) nofun⟩, hidle⟩
      · simp [hs, hf]
      · simp [hs]

theorem speedLoop_duty (k : LoopSettings) (target : Nat) (m : Motor) : (speedLoop k target m).Da ≤ m.cap := by
  unfold speedLoop
  dsimp only
  split
  · exact Nat.zero_le _
  · exact Nat.min_le_right _ _

theorem moveReference_same (target : Nat) (accel : Option Nat) (decel : EffDecel) (m : Motor) :
    ∃ r up down, moveReference target accel decel m = { m with R := r, rising := up, falling := down } := by
  unfold moveReference rampUp rampDown moveInstant
  dsimp only
  repeat' split
  all_goals exact ⟨_, _, _, rfl⟩

/-- What the speed loop and the detectors' counts leave of a motor. -/
theorem driven_same (k : LoopSettings) (target : Nat) (accel : Option Nat) (decel : EffDecel) (m : Motor) :
    (countFaults (speedLoop k target (moveReference target accel decel m))).Da ≤ m.cap ∧
      ∃ (r : Nat) (i : Int) (da up down sc oc : Nat), countFaults (speedLoop k target (moveReference target accel decel m)) =
        { m with R := r, I := i, Da := da, rising := up, falling := down, stallCount := sc, openCount := oc } := by
  obtain ⟨r, up, down, hm⟩ := moveReference_same target accel decel m
  rw [hm]
  refine ⟨speedLoop_duty k target _, ?_⟩
  unfold countFaults speedLoop
  dsimp only
  split <;> exact ⟨_, _, _, _, _, _, _, rfl⟩

theorem detectFaults {s : State} (h : s.motor.Idle) (hc : s.motor.checkProgress = none) : (detectFaults s).motor.Idle := by
  unfold Machine.detectFaults
  split
  · exact ⟨takeMotorFault h.cap hc _ _, h.idle⟩
  · split
    · refine ⟨?_, h.idle⟩
      unfold stallDetected
      dsimp only
      refine takeMotorFault ?_ ?_ _ _
      · exact h.cap
      · exact hc
    · exact h

theorem detectFaults_supply (s : State) : (Machine.detectFaults s).supply = s.supply := by
  unfold Machine.detectFaults
  split
  · rfl
  · split <;> rfl

theorem finishCheck_supply (s : State) : (finishCheck s).supply = s.supply := by
  unfold finishCheck
  split <;> rfl

theorem checkPeriod_supply (m p : Nat) (s : State) : (Machine.checkPeriod m p s).supply = s.supply := by
  unfold Machine.checkPeriod
  dsimp only
  split
  · rfl
  · split
    · rw [finishCheck_supply]
    · rfl

theorem middleStages {s : State} (h : s.motor.Idle) (c : Nat) (target backEmf : Nat) (accel : Option Nat)
    (decel : EffDecel) : Lit Motor.Idle (middleStages target backEmf accel decel (measure c backEmf s)) := by
  have hcap := foldCap_range (set16 s 66) (min 8190 c) h.cap
  unfold Machine.middleStages
  split
  next =>
    exact ⟨⟨⟨hcap, Nat.zero_le _, h.fault, h.check, fun _ => rfl⟩, h.idle⟩, fun _ => ⟨rfl, rfl, rfl⟩⟩
  next hd =>
    split
    next hs =>
      obtain ⟨r, up, down, hm⟩ := moveReference_same target accel decel (measure c backEmf s).motor
      dsimp only
      rw [hm]
      exact ⟨⟨⟨hcap, Nat.zero_le _, h.fault, h.check, fun _ => rfl⟩, h.idle⟩, fun hdark => absurd hdark hd⟩
    next p hs hp =>
      have hf : s.motor.fault = none := Option.not_isSome_iff_eq_none.1 fun hk => absurd (hs.symm.trans (h.fault.2 hk)) nofun
      refine ⟨checkPeriod (by exact hcap) (by exact h.idle) hs (by exact hf) _ _, fun hdark => absurd ?_ hd⟩
      rwa [checkPeriod_supply] at hdark
    next hs hc =>
      have hp : s.motor.checkProgress = none := Option.not_isSome_iff_eq_none.1 fun hk => by
        obtain ⟨p, hp⟩ := Option.isSome_iff_exists.1 hk
        exact hc p (h.check.2 hk) hp
      unfold drivePeriod
      obtain ⟨hduty, r, i, da, up, down, sc, oc, hm⟩ :=
        driven_same (loopSettings (measure c backEmf s)) target accel decel (measure c backEmf s).motor
      dsimp only
      rw [hm] at hduty ⊢
      refine ⟨detectFaults ⟨⟨hcap, hduty, h.fault, h.check, fun hk => absurd hk hs⟩, h.idle⟩ hp, fun hdark => absurd ?_ hd⟩
      rwa [detectFaults_supply] at hdark

theorem stage7 {s : State} (h : Lit Motor.Idle s) (before ff : Nat) (driving : Bool) :
    Lit Motor.Idle (stage7 before ff driving s).1 :=
  ⟨⟨h.1.toPart.of_eq rfl rfl rfl rfl rfl, h.1.idle⟩, h.2⟩

theorem settle {s : State} (h : Lit Motor.Idle s) (b : Bool) : Lit Motor.Sound (settle b s) := by
  have haccepted : s.motor.checkAccepted = true → s.motor.state = .stopped := fun ha => absurd (h.1.idle.symm.trans ha) nofun
  unfold Machine.settle
  split
  · exact ⟨⟨h.1.toPart.of_eq rfl rfl rfl rfl rfl, haccepted, nofun⟩, h.2⟩
  next hb =>
    have hshorted : s.motor.checkShorted = false := (Bool.or_eq_false_iff.1 (Bool.eq_false_iff.2 hb)).2
    unfold classify
    split
    · exact ⟨⟨h.1.toPart, haccepted, fun hs => absurd (hshorted.symm.trans hs) nofun⟩, h.2⟩
    · exact ⟨⟨h.1.toPart, haccepted, fun hs => absurd (hshorted.symm.trans hs) nofun⟩, h.2⟩
    next hc hf =>
      obtain ⟨hfault, hcheck⟩ := h.1.toPart.records hf hc
      refine ⟨⟨⟨h.1.cap, h.1.duty, ?_, ?_, ?_⟩, fun ha => absurd (h.1.idle.symm.trans ha) nofun,
        fun hs => absurd (hshorted.symm.trans hs) nofun⟩, h.2⟩
      · simp only [hfault]
        split <;> [skip; split] <;> simp
      · simp only [hcheck]
        split <;> [skip; split] <;> simp
      · dsimp only
        split <;> [skip; split] <;> nofun

/-- A control period ends with a sound motor (R9 to R13, R19 to R21). -/
theorem controlPeriod (c m : Nat) {s : State} (h : Lit Motor.Sound s) : Lit Motor.Sound (controlPeriod c m s) := by
  have hbegin : (if 0 < sEff s then Machine.abandonCheck (Machine.startCheck s) else Machine.startCheck s).motor.Idle := by
    split
    · exact (startCheck h.1).abandonCheck
    · exact startCheck h.1
  unfold Machine.controlPeriod afterPublish
  dsimp only
  refine settle ?_ _
  refine (locoLaws turnKeeps_idle).beforeSettle _ _ _ ?_
  exact stage7 (middleStages hbegin _ _ _ _ _) _ _ _

/-! ### Every effect, and the tick -/

/-- A motor that no block but the Motor Loop's own readers sees changed: the cam, the chuff accumulator, the record. -/
theorem of_motor {s t : State} (h : Lit Motor.Sound s) (hm : t.motor.Sound)
    (hdead : t.motor.R = s.motor.R ∧ t.motor.Da = s.motor.Da ∧ t.motor.I = s.motor.I) (hsupply : t.supply = s.supply) :
    Lit Motor.Sound t := by
  obtain ⟨hR, hDa, hI⟩ := hdead
  refine ⟨hm, fun hd => ?_⟩
  rw [hsupply] at hd
  obtain ⟨h1, h2, h3⟩ := h.2 hd
  exact ⟨hR.trans h1, hDa.trans h2, hI.trans h3⟩

/-- A change of the cam's debounce or of the chuff accumulator. -/
theorem of_cam {s : State} (h : Lit Motor.Sound s) (acc stable : Nat) (level : Level) (armed : Bool) :
    Lit Motor.Sound { s with motor := { s.motor with
      chuffAcc := acc, camLevel := level, camStable := stable, camArmed := armed } } :=
  ⟨h.1.of_eq rfl rfl rfl rfl rfl rfl rfl, h.2⟩

theorem resetMotor_sound (odo : Odometer) : Motor.Sound { resetMotor with odometer := odo } :=
  ⟨⟨⟨by simp [resetMotor], by simp [resetMotor]⟩, Nat.zero_le _, ⟨nofun, nofun⟩, ⟨nofun, nofun⟩, nofun⟩, nofun, nofun⟩

theorem bodyLaws : BodyLaws (fun s t => Lit Motor.Sound s → Lit Motor.Sound t) where
  toMotionLaws := (locoLaws turnKeeps_sound).motionLaws
  refl _ := id
  trans h h' := h' ∘ h
  body := of_body
  radioLoss _ h := h
  removeHold _ _ h := h
  activity := activity
  powerOn _ _ := ⟨resetMotor_sound 0, nofun⟩
  softReset s _ := ⟨resetMotor_sound s.motor.odometer, nofun⟩
  consist addr pos flags mask src s _ _ :=
    (locoLaws turnKeeps_sound).consistRequest (fun _ _ _ _ h => h) addr pos flags mask src s
  learnt _ h := h
  applied s _ _ _ :=
    (locoLaws turnKeeps_sound).applySettings
      ((locoLaws turnKeeps_sound).tableLaws (fun _ _ _ _ _ h => h) fun s => of_body (endTxn_body s))
      (fun _ _ _ _ h => h) (fun _ _ h => h) (fun _ _ h => h)
      (fun old u h => by
        unfold chuffSourceChanged
        split
        · exact h
        · exact h.of_cam 0 0 .low true)
      (fun _ h => h) (fun _ _ => of_offSound (ambientChanged_offSound _ _)) _ _ s
  check := checkTaken
  cleared s h := of_offSmoke (smokeCleared_offSmoke _) (motorCleared h)
  short := shortSensed
  retry := faultRetried
  camInput l s h := by
    unfold camInput
    split
    · exact h
    · exact h.of_cam s.motor.chuffAcc 0 l _
  camChuff s h := by
    unfold camChuffed
    split
    · exact (locoLaws turnKeeps_sound).chuff _ (h.of_cam s.motor.chuffAcc s.motor.camStable s.motor.camLevel false)
    · exact h
  budget := budgetPeriod
  smoke t s := of_offSmoke (smokePeriod_offSmoke t s)
  puff s := of_offSmoke (puffEnds_offSmoke s)
  fan s := of_offSmoke (fanStops_offSmoke s)

theorem effect {s t : State} (h : Effect s t) (hs : Lit Motor.Sound s) : Lit Motor.Sound t := by
  obtain h | ⟨c, m, -, rfl⟩ | ⟨ok, vt, vs, r, -, -, rfl⟩ := bodyLaws.coreLaws.effect h
  · exact h hs
  · exact controlPeriod c m hs
  · exact startUpDone ok vt vs s hs

theorem tick (s : State) (h : Lit Motor.Sound s) : Lit Motor.Sound (tick s) := by
  unfold Machine.tick
  dsimp only
  split
  · exact h
  · exact h.of_cam s.motor.chuffAcc _ s.motor.camLevel s.motor.camArmed

end Lit

/-- Settles O8: a step keeps the motor's records with its state and the duty under the cap. Only a control period and
a change of the supply state touch them all; each ends with a sound motor. -/
theorem stepKeepsMotorSound : Obligations.StepKeepsMotorSound := by
  unfold Obligations.StepKeepsMotorSound
  intro s t hs h
  rw [motorSound_iff] at hs ⊢
  exact step_keeps (I := Lit Motor.Sound) (fun _ _ h => h) Lit.tick (fun _ _ hs he => Lit.effect he hs) hs h

end Sys2Proof.Machine
end

section
/-! What a control period does outside the Motor Loop, and the Smoke Controller's invariant (R138, R142, R143). Settles
O10. -/

namespace Sys2Proof.Machine

/-! ### A control period outside the Motor Loop -/

theorem detectFaults_cases (s : State) :
    detectFaults s = s ∨ ∃ x k r, detectFaults s = takeMotorFault k r { s with motor := x } := by
  unfold detectFaults
  split
  · exact .inr ⟨s.motor, _, _, rfl⟩
  · split
    · exact .inr ⟨_, _, _, rfl⟩
    · exact .inl rfl

theorem checkPeriod_frame (m p : Nat) (s : State) : ∃ x, checkPeriod m p s = { s with motor := x } := by
  have hfinish (u : State) : ∃ x, finishCheck u = { u with motor := x } := by
    unfold finishCheck
    split <;> exact ⟨_, rfl⟩
  unfold checkPeriod
  dsimp only
  split
  · exact ⟨_, rfl⟩
  · split
    · obtain ⟨x, hx⟩ := hfinish { s with motor := { s.motor with
          R := 0, I := 0, rising := 0, falling := 0
          checkC := if p % 10 = 1 then s.motor.checkC ++ [s.motor.C] else s.motor.checkC
          Da := if p % 10 = 0 ∨ p = 9 ∨ p = 19 then min 256 s.motor.cap else 0
          checkProgress := some (p + 1) } }
      exact ⟨x, hx⟩
    · exact ⟨_, rfl⟩

/-- Stages 3 to 6 change the motor alone, but for a motor fault that they take. -/
theorem middleStages_cases (target m : Nat) (accel : Option Nat) (decel : EffDecel) (s : State) :
    (∃ x, middleStages target m accel decel s = { s with motor := x }) ∨
      ∃ x k r, middleStages target m accel decel s = takeMotorFault k r { s with motor := x } := by
  unfold middleStages
  split
  · exact .inl ⟨_, rfl⟩
  · split
    · exact .inl ⟨_, rfl⟩
    · exact .inl (checkPeriod_frame _ _ s)
    · unfold drivePeriod
      dsimp only
      obtain h | ⟨x, k, r, h⟩ := detectFaults_cases { s with
        motor := countFaults (speedLoop (loopSettings s) target (moveReference target accel decel s.motor)) }
      · exact .inl ⟨_, h⟩
      · exact .inr ⟨x, k, r, h⟩

/-- A control period keeps a relation that a changed motor, a changed published set, a motor fault and what follows the
published set keep. -/
theorem controlPeriod_keeps {Q : State → State → Prop} (htrans : ∀ {a b c}, Q a b → Q b c → Q a c)
    (hmotor : ∀ x s, Q s { s with motor := x }) (hpub : ∀ p s, Q s { s with pub := p })
    (hfault : ∀ k r s, Q s (takeMotorFault k r s)) (hafter : ∀ old b s, Q s (beforeSettle old b s)) (c m : Nat)
    (s : State) : Q s (controlPeriod c m s) := by
  have hbegin : ∃ x, (if 0 < sEff s then abandonCheck (startCheck s) else startCheck s) = { s with motor := x } := by
    have hstart : ∃ x, startCheck s = { s with motor := x } := by
      unfold startCheck
      split <;> exact ⟨_, rfl⟩
    obtain ⟨x, hx⟩ := hstart
    rw [hx]
    unfold abandonCheck
    split <;> [split; skip] <;> exact ⟨_, rfl⟩
  have hsettle (b : Bool) (u : State) : Q u (settle b u) := by
    unfold settle classify
    split
    · exact hmotor _ u
    · split
      · exact hmotor u.motor u
      · exact hmotor u.motor u
      · exact hmotor _ u
  have hmiddle (target m : Nat) (accel : Option Nat) (decel : EffDecel) (u : State) :
      Q u (middleStages target m accel decel u) := by
    obtain ⟨x, h⟩ | ⟨x, k, r, h⟩ := middleStages_cases target m accel decel u
    · rw [h]
      exact hmotor x u
    · rw [h]
      exact htrans (hmotor x u) (hfault k r _)
  have hpublished (before ff : Nat) (driving : Bool) (u : State) : Q u (publish (stage7 before ff driving u).1) :=
    htrans (hmotor _ u) (hpub _ _)
  unfold controlPeriod
  obtain ⟨x, hx⟩ := hbegin
  dsimp only
  rw [hx]
  have hmeasured : Q s (measure c m { s with motor := x }) := hmotor _ s
  refine htrans ?_ (hsettle _ _)
  refine htrans ?_ (hafter _ _ _)
  exact htrans (htrans hmeasured (hmiddle _ _ _ _ _)) (hpublished _ _ _ _)

theorem TurnLaws.controlPeriod {Q : State → State → Prop} (k : TurnLaws Q) (hmotor : ∀ x s, Q s { s with motor := x })
    (hpub : ∀ p s, Q s { s with pub := p }) (hfaults : ∀ l s, Q s { s with faults := l }) (c m : Nat) (s : State) :
    Q s (controlPeriod c m s) := by
  refine controlPeriod_keeps (Q := Q) k.trans hmotor hpub (fun fk r s => ?_) k.beforeSettle c m s
  unfold takeMotorFault reportFault
  exact k.trans (k.trans (hmotor _ s) (k.installHold _ _)) (hfaults _ _)

/-! ### A sound Smoke Controller -/

/-- What is sound of a Smoke Controller also while the supply state changes (R138, R142, R143). -/
structure Smoke.Shaped (m : Smoke) : Prop where
  cold : m.state ≠ .heating → m.state ≠ .ready → m.demand = 0 ∧ m.duty = 0
  puff : m.puffEnd.isSome = true ↔ m.fan = .puff
  ready : m.fan = .puff → m.state = .ready

/-- Outside TRACK the smoke state is neither HEATING nor READY (R137). -/
def CoolOffTrack (s : State) : Prop := s.supply.state ≠ .track → s.smoke.state ≠ .heating ∧ s.smoke.state ≠ .ready

theorem smokeSound_iff (s : State) :
    SmokeSound s ↔ s.smoke.Shaped ∧ CoolOffTrack s ∧ s.smoke.duty ≤ s.supply.grants.heaterCap := by
  constructor
  · exact fun h => ⟨⟨h.cold, h.puff, h.ready⟩, fun ht => (h.track ht).2, h.cap⟩
  · rintro ⟨h, hcool, hcap⟩
    exact ⟨fun ht => ⟨(h.cold (hcool ht).1 (hcool ht).2).2, hcool ht⟩, h.cold, hcap, h.puff, h.ready⟩

theorem SmokeSound.shaped {s : State} (h : SmokeSound s) : s.smoke.Shaped := ((smokeSound_iff s).1 h).1

/-- A change of what no clause reads. -/
theorem SmokeSound.of_shape {s t : State} (h : SmokeSound s) (hstate : t.smoke.state = s.smoke.state)
    (hdemand : t.smoke.demand = s.smoke.demand) (hduty : t.smoke.duty = s.smoke.duty) (hfan : t.smoke.fan = s.smoke.fan)
    (hpuff : t.smoke.puffEnd = s.smoke.puffEnd) (hsupply : t.supply = s.supply) : SmokeSound t :=
  ⟨hsupply ▸ hstate ▸ hduty ▸ h.track, hstate ▸ hdemand ▸ hduty ▸ h.cold, hsupply ▸ hduty ▸ h.cap, hfan ▸ hpuff ▸ h.puff,
    hfan ▸ hstate ▸ h.ready⟩

theorem SmokeSound.of_same {s t : State} (h : SmokeSound s) (hsmoke : t.smoke = s.smoke)
    (hstate : t.supply.state = s.supply.state) (hcap : t.supply.grants.heaterCap = s.supply.grants.heaterCap) :
    SmokeSound t := by
  rw [smokeSound_iff] at h ⊢
  unfold CoolOffTrack
  rw [hsmoke, hstate, hcap]
  exact h

theorem SmokeSound.of_smoke_supply {s t : State} (hsmoke : t.smoke = s.smoke) (hsupply : t.supply = s.supply)
    (h : SmokeSound s) : SmokeSound t :=
  h.of_same hsmoke (congrArg Supply.state hsupply) (congrArg (fun x => x.grants.heaterCap) hsupply)

theorem SmokeSound.of_offSound {s t : State} (h : t.offSound = s.offSound) : SmokeSound s → SmokeSound t :=
  .of_smoke_supply (congrArg State.smoke h :) (congrArg State.supply h :)

theorem SmokeSound.of_body {s t : State} (h : t.body = s.body) : SmokeSound s → SmokeSound t :=
  .of_smoke_supply (congrArg State.smoke h :) (congrArg State.supply h :)

namespace SmokeSound

/-! ### The heater and the fan -/

theorem applyHeater {s : State} (h : s.smoke.Shaped) (hcool : CoolOffTrack s) : SmokeSound (applyHeater s) := by
  refine (smokeSound_iff _).2 ⟨⟨fun hh hr => ?_, h.puff, h.ready⟩, hcool, Nat.min_le_right _ _⟩
  have hdemand : s.smoke.demand = 0 := (h.cold hh hr).1
  exact ⟨hdemand, Nat.min_eq_left (hdemand ▸ Nat.zero_le _) |>.trans hdemand⟩

theorem setFan_shaped {m : FanMode} (hm : m ≠ .puff) {s : State}
    (h : s.smoke.state ≠ .heating → s.smoke.state ≠ .ready → s.smoke.demand = 0 ∧ s.smoke.duty = 0) :
    (setFan m s).smoke.Shaped :=
  ⟨h, ⟨nofun, fun hp => absurd hp hm⟩, fun hp => absurd hp hm⟩

theorem setFan {m : FanMode} (hm : m ≠ .puff) (s : State) (h : SmokeSound s) : SmokeSound (setFan m s) :=
  (smokeSound_iff _).2 ⟨setFan_shaped hm h.cold, fun ht => (h.track ht).2, h.cap⟩

theorem fanOnEntry_eq (st : SmokeState) (s : State) : ∃ m ≠ FanMode.puff, fanOnEntry st s = Machine.setFan m s := by
  unfold fanOnEntry
  split
  · exact ⟨.idle, nofun, rfl⟩
  · exact ⟨.idle, nofun, rfl⟩
  · exact ⟨.idle, nofun, rfl⟩
  · split
    · exact ⟨.idle, nofun, rfl⟩
    · exact ⟨.stopped, nofun, rfl⟩
  · split
    · exact ⟨.idle, nofun, rfl⟩
    · exact ⟨.stopped, nofun, rfl⟩

theorem heaterDemand_cold (s : State) {st : SmokeState} (hh : st ≠ .heating) (hr : st ≠ .ready) : heaterDemand s st = 0 := by
  cases st with
  | heating => exact absurd rfl hh
  | ready => exact absurd rfl hr
  | off => rfl
  | shed => rfl
  | fault => rfl

/-- An entered or kept state is sound when it may stand in the present supply state (R137, R138). -/
theorem enterSmoke (st : SmokeState) {s : State} (h : s.smoke.Shaped)
    (hcool : s.supply.state ≠ .track → st ≠ .heating ∧ st ≠ .ready) : SmokeSound (enterSmoke st s) := by
  unfold Machine.enterSmoke
  dsimp only
  refine (smokeSound_iff _).2 ?_
  by_cases hst : s.smoke.state = st
  · simp only [if_pos hst]
    refine ⟨⟨fun hh hr => ?_, h.puff, h.ready⟩, ?_, Nat.min_le_right _ _⟩
    · have hd := heaterDemand_cold s (st := st) (hst ▸ hh) (hst ▸ hr)
      exact ⟨hd, Nat.le_zero.1 ((Nat.min_le_left _ _).trans hd.le)⟩
    · exact fun ht => hst ▸ hcool ht
  · simp only [if_neg hst]
    obtain ⟨m, hm, hfan⟩ := fanOnEntry_eq st { s with smoke := { s.smoke with state := st } }
    rw [hfan]
    refine ⟨⟨fun hh hr => ?_, ⟨nofun, fun hp => absurd hp hm⟩, fun hp => absurd hp hm⟩, hcool, Nat.min_le_right _ _⟩
    have hd := heaterDemand_cold (Machine.setFan m { s with smoke := { s.smoke with state := st } }) hh hr
    exact ⟨hd, Nat.le_zero.1 ((Nat.min_le_left _ _).trans hd.le)⟩

theorem smokeStateOf_cool (s : State) (ht : s.supply.state ≠ .track) :
    smokeStateOf s ≠ .heating ∧ smokeStateOf s ≠ .ready := by
  unfold smokeStateOf
  revert ht
  cases hs : s.supply.state with
  | track => exact fun ht => absurd rfl ht
  | parked | ride | dark => split <;> simp

/-- The decision of R137 leaves the Smoke Controller sound in whatever supply state has come. -/
theorem smokeDecide {s : State} (h : s.smoke.Shaped) (hcap : s.smoke.state = .fault → s.smoke.duty ≤ s.supply.grants.heaterCap) :
    SmokeSound (smokeDecide s) := by
  unfold Machine.smokeDecide
  dsimp only
  split
  next hf => exact (smokeSound_iff _).2 ⟨h, fun _ => ⟨by rw [hf]; nofun, by rw [hf]; nofun⟩, hcap hf⟩
  next hf =>
    split
    next hst => exact applyHeater h fun ht => hst ▸ smokeStateOf_cool s ht
    next => exact enterSmoke _ h (smokeStateOf_cool s)

theorem fault_duty {m : Smoke} (h : m.Shaped) (n : Nat) (hf : m.state = .fault) : m.duty ≤ n := by
  rw [(h.cold (by rw [hf]; nofun) (by rw [hf]; nofun)).2]
  exact Nat.zero_le _

theorem decided {s : State} (h : s.smoke.Shaped) : SmokeSound (Machine.smokeDecide s) := smokeDecide h (fault_duty h _)

theorem smokeChuff (s : State) (h : SmokeSound s) : SmokeSound (smokeChuff s) := by
  unfold Machine.smokeChuff
  dsimp only
  split
  next hr => exact (smokeSound_iff _).2 ⟨⟨h.cold, ⟨fun _ => rfl, fun _ => rfl⟩, fun _ => hr⟩, fun ht => (h.track ht).2, h.cap⟩
  next => exact h

/-! ### The supply -/

theorem supplyEntry_smoke (old new : SupplyState) (s : State) : (supplyEntry old new s).smoke = s.smoke := by
  unfold supplyEntry
  split
  · split <;> rfl
  · rfl
  · dsimp only
    split <;> rfl
  · rfl

theorem motorReacts_smoke (old : SupplyState) (s : State) : (motorReacts old s).smoke = s.smoke := by
  have h : (if old = .track ∧ s.supply.state ≠ .track then abandonCheck s else s).smoke = s.smoke := by
    unfold abandonCheck
    split <;> [split; skip] <;> rfl
  unfold motorReacts
  generalize (if old = .track ∧ s.supply.state ≠ .track then abandonCheck s else s) = u at h ⊢
  dsimp only
  split <;> exact h

theorem changeSupply (n : SupplyState) (s : State) (h : SmokeSound s) : SmokeSound (changeSupply n s) := by
  unfold Machine.changeSupply
  dsimp only
  split
  · exact h
  · rw [loadsReact_eq]
    refine of_offSound (soundSupplyChange_offSound _) (decided ?_)
    rw [motorReacts_smoke, supplyEntry_smoke]
    exact h.shaped

theorem activity (s : State) (h : SmokeSound s) : SmokeSound (activity s) := by
  unfold Machine.activity
  dsimp only
  split
  · exact changeSupply _ _ (h.of_same rfl rfl rfl)
  · exact h.of_same rfl rfl rfl

theorem publishGrants {s : State} (h : s.smoke.Shaped) (hcool : CoolOffTrack s) : SmokeSound (publishGrants s) :=
  applyHeater (s := { s with supply := { s.supply with grants := computeGrants s } }) h hcool

theorem budgetPeriod (vt vs : Nat) (s : State) (h : SmokeSound s) : SmokeSound (budgetPeriod vt vs s) := by
  have hsensed : SmokeSound (senseSupply vt vs s) := h.of_same rfl rfl rfl
  have hdecided := decideSupply_keeps (Q := fun s t => SmokeSound s → SmokeSound t) (fun _ => id) (fun h h' => h' ∘ h)
    changeSupply (fun _ _ h => h.of_same rfl rfl rfl) _ hsensed
  unfold Machine.budgetPeriod decideHold
  generalize decideSupply (senseSupply vt vs s) = u at hdecided ⊢
  split <;> exact publishGrants hdecided.shaped fun ht => (hdecided.track ht).2

theorem startUpDone (ok : Bool) (vt vs : Nat) (s : State) (h : SmokeSound s) : SmokeSound (startUpDone ok vt vs s) := by
  have hload : (portFreed (endReset (loadSettings ok s))).smoke.Shaped := by
    unfold loadSettings
    dsimp only
    generalize checkedImage _ _ = img
    generalize (ok && imageValid (flashBytes s 0 778)) = valid
    split <;> split <;> exact ⟨h.cold, h.puff, h.ready⟩
  have hstart {u : State} (hu : u.smoke.Shaped) : SmokeSound (supplyStart vt vs u) := by
    unfold supplyStart
    dsimp only
    have hdecided : SmokeSound (Machine.smokeDecide
        (if trackGood { senseSupply vt vs u with supply := { (senseSupply vt vs u).supply with lastActivity := u.partTime } } then
          { senseSupply vt vs u with supply := { (senseSupply vt vs u).supply with lastActivity := u.partTime, state := .track, holdFlag := false } }
        else motorDark (requestSupplyHold { senseSupply vt vs u with
          supply := { (senseSupply vt vs u).supply with lastActivity := u.partTime, state := .dark } }))) := by
      refine decided ?_
      split <;> exact hu
    exact publishGrants hdecided.shaped fun ht => (hdecided.track ht).2
  exact of_offSound (requestDirectory_offSound _) (hstart hload)

/-! ### Smoke periods (R135 to R141) -/

theorem takeSmokeSettings (s : State) (h : SmokeSound s) : SmokeSound (takeSmokeSettings s) :=
  h.of_shape rfl rfl rfl rfl rfl rfl

theorem takeReading (t : Int) (s : State) (h : SmokeSound s) : SmokeSound (takeReading t s) :=
  h.of_shape rfl rfl rfl rfl rfl rfl

theorem smokeFaultEnter (r : SmokeFault) (k : FaultKind) (s : State) : SmokeSound (smokeFaultEnter r k s) :=
  (smokeSound_iff _).2 ⟨⟨fun _ _ => ⟨rfl, rfl⟩, ⟨nofun, nofun⟩, nofun⟩, fun _ => ⟨nofun, nofun⟩, Nat.zero_le _⟩

theorem smokeSensorDetected (s : State) (h : SmokeSound s) : SmokeSound (smokeSensorDetected s) := by
  unfold Machine.smokeSensorDetected
  dsimp only
  split
  · split
    · exact h
    · exact smokeFaultEnter _ _ s
  · exact smokeFaultEnter _ _ s

theorem fanAtPeriod (s : State) (h : SmokeSound s) : SmokeSound (fanAtPeriod s) := by
  have hidle := setFan (m := .idle) nofun s h
  unfold Machine.fanAtPeriod
  split
  · exact hidle
  · split
    · exact h
    · exact hidle
  · split
    · split
      · split
        · exact setFan (m := .stopped) nofun s h
        · exact hidle
      · exact hidle
    · exact h
  · split
    · split
      · split
        · exact setFan (m := .stopped) nofun s h
        · exact hidle
      · exact hidle
    · exact h
  · split
    · exact hidle
    · exact h

theorem fanInFault (valid : Bool) (s : State) (h : SmokeSound s) : SmokeSound (fanInFault valid s) := by
  unfold Machine.fanInFault
  split
  · split
    · exact setFan (m := .stopped) nofun s h
    · exact fanAtPeriod s h
  · exact fanAtPeriod s h

theorem firstOffEntry (s : State) (h : SmokeSound s) : SmokeSound (firstOffEntry s) := by
  unfold Machine.firstOffEntry
  split
  · obtain ⟨m, hm, hfan⟩ := fanOnEntry_eq .off s
    rw [hfan]
    exact setFan hm s h
  · exact h

theorem smokePeriod (reading : Int) (s : State) (h : SmokeSound s) : SmokeSound (smokePeriod reading s) := by
  have hfresh {u : State} (hu : SmokeSound u) : SmokeSound { u with smoke := { u.smoke with fresh := false } } :=
    hu.of_shape rfl rfl rfl rfl rfl rfl
  have hset := takeSmokeSettings s h
  have htaken := takeReading reading _ hset
  unfold Machine.smokePeriod
  generalize Machine.takeSmokeSettings s = u at hset htaken ⊢
  dsimp only
  refine hfresh ?_
  split
  · split
    · exact fanInFault _ _ (smokeSensorDetected u hset)
    · exact smokeSensorDetected u hset
  · generalize Machine.takeReading reading u = w at htaken ⊢
    split
    · exact fanInFault _ w htaken
    · split
      · exact smokeFaultEnter _ _ w
      · split
        · have hfan := firstOffEntry _ (fanAtPeriod w htaken)
          refine enterSmoke _ hfan.shaped fun ht => smokeStateOf_cool w ?_
          have hs : (Machine.firstOffEntry (Machine.fanAtPeriod w)).supply = w.supply :=
            (congrArg State.supply ((firstOffEntry_offSmoke _).trans (fanAtPeriod_offSmoke w)) :)
          exact hs ▸ ht
        · exact enterSmoke _ htaken.shaped (smokeStateOf_cool w)

theorem puffEnds (s : State) (h : SmokeSound s) : SmokeSound (puffEnds s) := by
  unfold Machine.puffEnds
  split
  · split
    · exact setFan (m := .idle) nofun s h
    · exact h
  · exact h

theorem fanStops (s : State) (h : SmokeSound s) : SmokeSound (fanStops s) := by
  unfold Machine.fanStops
  split
  · split
    · exact setFan (m := .stopped) nofun s h
    · exact h
  · exact h

theorem smokeCleared (s : State) (h : SmokeSound s) : SmokeSound (smokeCleared s) := by
  unfold Machine.smokeCleared
  split
  next hf =>
    refine (smokeSound_iff _).2 ⟨⟨fun _ _ => ⟨rfl, rfl⟩, h.puff, fun hp => ?_⟩, fun _ => ⟨nofun, nofun⟩, Nat.zero_le _⟩
    exact absurd ((h.ready hp).symm.trans hf) nofun
  next => exact h

theorem reset {s : State} (hsmoke : s.smoke = resetSmoke) (hsupply : s.supply = resetSupply) : SmokeSound s := by
  refine (smokeSound_iff s).2 ?_
  unfold CoolOffTrack
  rw [hsmoke, hsupply]
  exact ⟨⟨fun _ _ => ⟨rfl, rfl⟩, ⟨nofun, nofun⟩, nofun⟩, fun _ => ⟨nofun, nofun⟩, Nat.zero_le _⟩

/-! ### Every effect -/

theorem locoLaws : LocoLaws (fun s t => SmokeSound s → SmokeSound t) where
  refl _ := id
  trans h h' := h' ∘ h
  start _ _ _ := of_offSound (startRequest_offSound _ _ _)
  trigger _ _ := of_offSound (triggerEnd_offSound _ _)
  decide _ h := decided h.shaped
  chuffed := smokeChuff
  demand _ _ := of_smoke_supply rfl rfl
  holds _ _ := of_smoke_supply rfl rfl
  switches _ _ := of_smoke_supply rfl rfl
  turn _ _ := by
    unfold turned abandonCheck
    split <;> exact of_smoke_supply rfl rfl
  activity := activity

theorem bodyLaws : BodyLaws (fun s t => SmokeSound s → SmokeSound t) where
  toMotionLaws := locoLaws.motionLaws
  refl _ := id
  trans h h' := h' ∘ h
  body := of_body
  radioLoss _ := of_smoke_supply rfl rfl
  removeHold _ _ := of_smoke_supply rfl rfl
  activity := activity
  powerOn _ _ := reset rfl rfl
  softReset _ _ := reset rfl rfl
  consist addr pos flags mask src s _ _ :=
    locoLaws.consistRequest (fun _ _ _ _ => of_smoke_supply rfl rfl) addr pos flags mask src s
  learnt _ := of_smoke_supply rfl rfl
  applied s _ _ _ :=
    locoLaws.applySettings (locoLaws.tableLaws (fun _ _ _ _ _ => of_smoke_supply rfl rfl) fun s => of_body (endTxn_body s))
      (fun _ _ _ _ => of_smoke_supply rfl rfl) (fun _ _ => of_smoke_supply rfl rfl) (fun _ _ => of_smoke_supply rfl rfl)
      (fun old u => by unfold chuffSourceChanged; split <;> exact of_smoke_supply rfl rfl)
      (fun u h => h.of_shape rfl rfl rfl rfl rfl rfl)
      (fun _ _ => of_offSound (ambientChanged_offSound _ _)) _ _ s
  check s := by
    unfold checkTaken
    split
    · exact id
    · split <;> exact of_smoke_supply rfl rfl
  cleared s h := smokeCleared _ (h.of_same rfl rfl rfl)
  short c s := by
    unfold shortSensed
    split
    · split
      · exact of_smoke_supply rfl rfl
      · split
        · exact id
        · exact of_smoke_supply rfl rfl
    · exact id
  retry s := by
    unfold faultRetried
    split
    · exact locoLaws.ite (of_smoke_supply rfl rfl)
    · exact id
  camInput l s := by
    unfold camInput
    split <;> exact of_smoke_supply rfl rfl
  camChuff s := by
    unfold camChuffed
    refine locoLaws.ite (fun h => locoLaws.chuff _ (h.of_same rfl rfl rfl))
  budget := budgetPeriod
  smoke := smokePeriod
  puff := puffEnds
  fan := fanStops

theorem effect {s t : State} (h : Effect s t) (hs : SmokeSound s) : SmokeSound t := by
  obtain h | ⟨c, m, -, rfl⟩ | ⟨ok, vt, vs, r, -, -, rfl⟩ := bodyLaws.coreLaws.effect h
  · exact h hs
  · exact locoLaws.controlPeriod (fun _ _ => of_smoke_supply rfl rfl) (fun _ _ => of_smoke_supply rfl rfl)
      (fun _ _ => of_smoke_supply rfl rfl) c m s hs
  · exact startUpDone ok vt vs s hs

theorem tick (s : State) (h : SmokeSound s) : SmokeSound (tick s) := by
  unfold Machine.tick
  dsimp only
  split <;> exact h.of_same rfl rfl rfl

end SmokeSound

/-- Settles O10: a state entered, a decision and a new grant each set the heater again, and only READY starts a puff. -/
theorem stepKeepsSmokeSound : Obligations.StepKeepsSmokeSound := by
  unfold Obligations.StepKeepsSmokeSound
  exact fun s t hs h =>
    step_keeps (fun _ _ h => h.of_same rfl rfl rfl) SmokeSound.tick (fun _ _ hs he => SmokeSound.effect he hs) hs h

end Sys2Proof.Machine
end

section
/-! The Sound Engine's own moves: what they leave of the engine mode and of the other requesters at the Flash Port, and
that they keep the partitions in use apart (R120 to R126, R131). -/

namespace Sys2Proof.Machine

/-! ### What the voices hold of the voice buffer RAM -/

/-- Whether a voice is IDLE, and its partition in use. -/
def Voice.span (vo : Voice) : Bool × Option Partition := (vo.state == .idle, vo.part)

/-- Two partitions share no unit (R120). -/
def Partition.Apart (p q : Partition) : Prop := p.start + p.size ≤ q.start ∨ q.start + q.size ≤ p.start

theorem Partition.apart_of_not_overlaps {p q : Partition} (h : p.overlaps q = false) : p.Apart q := by
  unfold Partition.overlaps at h
  unfold Partition.Apart
  simp only [Bool.and_eq_false_iff, decide_eq_false_iff_not] at h
  omega

theorem Partition.Apart.symm {p q : Partition} (h : p.Apart q) : q.Apart p := Or.symm h

/-- The partitions in use do not overlap, and every IDLE voice but `v` has freed its own. -/
structure TidyBut (v : Nat) (s : State) : Prop where
  freed : ∀ w, w ≠ v → (voice s w).state = .idle → (voice s w).part = none
  apart : ∀ u w p q, u ≠ w → (voice s u).part = some p → (voice s w).part = some q → p.Apart q

/-- The partitions in use do not overlap, and every IDLE voice has freed its own (R120). -/
structure Tidy (s : State) : Prop where
  six : s.sound.voices.length = 6
  freed : ∀ w, (voice s w).state = .idle → (voice s w).part = none
  apart : ∀ u w p q, u ≠ w → (voice s u).part = some p → (voice s w).part = some q → p.Apart q

theorem Tidy.but {s : State} (h : Tidy s) (v : Nat) : TidyBut v s := ⟨fun w _ => h.freed w, h.apart⟩

theorem Voice.span_eq_iff (a b : Voice) : a.span = b.span ↔ (a.state = .idle ↔ b.state = .idle) ∧ a.part = b.part := by
  unfold Voice.span
  rw [Prod.mk.injEq, Bool.eq_iff_iff, beq_iff_eq, beq_iff_eq]

theorem Tidy.of_spans {s t : State} (hlen : t.sound.voices.length = s.sound.voices.length) (h : ∀ w, (voice t w).span = (voice s w).span) (hs : Tidy s) : Tidy t := by
  have hspan (w : Nat) := (Voice.span_eq_iff _ _).1 (h w)
  refine ⟨hlen.trans hs.six, fun w hi => ?_, fun u w p q hne hp hq => ?_⟩
  · rw [(hspan w).2]
    exact hs.freed w ((hspan w).1.1 hi)
  · exact hs.apart u w p q hne ((hspan u).2 ▸ hp) ((hspan w).2 ▸ hq)

/-! ### The voices' records -/

theorem voice_of_le {s : State} {v : Nat} (h : s.sound.voices.length ≤ v) : voice s v = resetVoice :=
  List.getD_eq_default _ _ h

theorem voice_setVoice_same {s : State} {v : Nat} (h : v < s.sound.voices.length) (vo : Voice) :
    voice (setVoice v vo s) v = vo := by
  simp [voice, setVoice, h]

theorem voice_setVoice_other {s : State} {v w : Nat} (h : w ≠ v) (vo : Voice) : voice (setVoice v vo s) w = voice s w := by
  simp [voice, setVoice, List.getElem?_set_ne (Ne.symm h)]

theorem setVoice_of_le {s : State} {v : Nat} (h : s.sound.voices.length ≤ v) (vo : Voice) : setVoice v vo s = s := by
  unfold setVoice
  rw [List.set_eq_of_length_le h]

theorem voice_setVoice (s : State) (v : Nat) (vo : Voice) :
    voice (setVoice v vo s) v = vo ∨ voice (setVoice v vo s) v = resetVoice := by
  by_cases h : v < s.sound.voices.length
  · exact .inl (voice_setVoice_same h vo)
  · have h := Nat.not_lt.1 h
    rw [setVoice_of_le h, voice_of_le h]
    exact .inr rfl

/-- Every voice under a change that keeps its span. -/
theorem span_of_voices {s t : State} {f : Nat → Voice → Voice} (ht : t.sound.voices = s.sound.voices.mapIdx f)
    (hf : ∀ i vo, (f i vo).span = vo.span) (w : Nat) : (voice t w).span = (voice s w).span := by
  unfold voice
  rw [ht, List.getD_eq_getElem?_getD, List.getD_eq_getElem?_getD, List.getElem?_mapIdx]
  cases s.sound.voices[w]? with
  | none => rfl
  | some vo => exact hf w vo

theorem span_of_map {s t : State} {f : Voice → Voice} (ht : t.sound.voices = s.sound.voices.map f)
    (hf : ∀ vo, (f vo).span = vo.span) (w : Nat) : (voice t w).span = (voice s w).span := by
  unfold voice
  rw [ht, List.getD_eq_getElem?_getD, List.getD_eq_getElem?_getD, List.getElem?_map]
  cases s.sound.voices[w]? with
  | none => rfl
  | some vo => exact hf vo

/-! ### The other requesters at the Flash Port -/

/-- A request of a voice (R175). -/
def FlashRequest.ofVoice (r : FlashRequest) : Bool :=
  match r.who with
  | .voice _ => true
  | _ => false

/-- The requests of the directory read, the Store and the start-up: those that wait, and those whose result still
counts. -/
def deskRequests (s : State) : List FlashRequest × List FlashRequest :=
  (s.port.waiting.filter (!·.ofVoice), (liveRequests s).filter (!·.ofVoice))

/-- A request enters the set of those that count. -/
theorem liveRequests_requestFlash (who : Requester) (op : FlashOp) (s : State) :
    liveRequests (requestFlash who op s) = liveRequests s ++ [⟨who, op, s.partTime⟩] ∨
      ∃ a b, liveRequests s = a ++ b ∧ liveRequests (requestFlash who op s) = a ++ [⟨who, op, s.partTime⟩] ++ b := by
  unfold requestFlash liveRequests
  dsimp only
  split
  next h =>
    obtain ⟨hb, hw⟩ := Bool.and_eq_true_iff.1 h
    rw [Option.isNone_iff_eq_none.1 hb, List.isEmpty_iff.1 hw]
    exact .inl rfl
  next => exact .inr ⟨_, _, rfl, rfl⟩

theorem deskRequests_requestFlash (v : Nat) (op : FlashOp) (s : State) :
    deskRequests (requestFlash (.voice v) op s) = deskRequests s := by
  unfold deskRequests
  refine Prod.ext ?_ ?_
  · unfold requestFlash
    dsimp only
    split
    · rfl
    · simp [FlashRequest.ofVoice]
  · obtain h | ⟨a, b, hs, h⟩ := liveRequests_requestFlash (.voice v) op s
    · simp [h, FlashRequest.ofVoice]
    · simp [h, hs, FlashRequest.ofVoice]

theorem deskRequests_withdrawVoice (v : Nat) (s : State) : deskRequests (withdrawVoice v s) = deskRequests s := by
  have hw : (s.port.waiting.filter (fun r => r.who != .voice v)).filter (!·.ofVoice) = s.port.waiting.filter (!·.ofVoice) := by
    rw [List.filter_filter]
    refine List.filter_congr fun r _ => ?_
    cases hr : r.who <;> simp [FlashRequest.ofVoice, hr]
  unfold deskRequests liveRequests withdrawVoice
  refine Prod.ext hw ?_
  dsimp only
  rw [List.filter_append, List.filter_append, hw]
  refine congrArg _ ?_
  cases s.port.busy with
  | none => rfl
  | some b =>
    obtain ⟨r, d⟩ := b
    by_cases hr : r.who = .voice v
    · cases d <;> simp [hr, FlashRequest.ofVoice]
    · simp [hr]

/-! ### Moves of the Sound Engine -/

/-- A move of the Sound Engine, for the rest of the locomotive and for the other requesters at the Flash Port. -/
structure SoundMove (s t : State) : Prop where
  off : t.offSound = s.offSound
  pending : t.sound.dirPending = s.sound.dirPending
  desk : deskRequests t = deskRequests s
  six : t.sound.voices.length = s.sound.voices.length

/-- A move that leaves the engine mode alone. -/
structure SoundStep (s t : State) : Prop extends SoundMove s t where
  mode : t.sound.mode = s.sound.mode

theorem SoundMove.refl (s : State) : SoundMove s s := ⟨rfl, rfl, rfl, rfl⟩

theorem SoundMove.trans {a b c : State} (h : SoundMove a b) (k : SoundMove b c) : SoundMove a c :=
  ⟨k.off.trans h.off, k.pending.trans h.pending, k.desk.trans h.desk, k.six.trans h.six⟩

theorem SoundStep.refl (s : State) : SoundStep s s := ⟨.refl s, rfl⟩

theorem SoundStep.trans {a b c : State} (h : SoundStep a b) (k : SoundStep b c) : SoundStep a c :=
  ⟨h.toSoundMove.trans k.toSoundMove, k.mode.trans h.mode⟩

/-- A move that keeps what every voice holds. -/
structure SpanStep (s t : State) : Prop extends SoundStep s t where
  spans : ∀ w, (voice t w).span = (voice s w).span

/-- A move on voice `v`, which keeps or frees its partition. -/
structure VoiceStep (v : Nat) (s t : State) : Prop extends SoundStep s t where
  others : ∀ w, w ≠ v → (voice t w).span = (voice s w).span
  part : (voice t v).part = (voice s v).part ∨ (voice t v).part = none

/-- A move on voice `v` at whose end it is IDLE only when it has freed its partition. -/
structure VoiceDone (v : Nat) (s t : State) : Prop extends VoiceStep v s t where
  freed : (voice t v).state = .idle → (voice t v).part = none

/-- A move that keeps the partitions in use apart. -/
structure TidyStep (s t : State) : Prop extends SoundStep s t where
  tidy : Tidy s → Tidy t

theorem SpanStep.refl (s : State) : SpanStep s s := ⟨.refl s, fun _ => rfl⟩

theorem SpanStep.trans {a b c : State} (h : SpanStep a b) (k : SpanStep b c) : SpanStep a c :=
  ⟨h.toSoundStep.trans k.toSoundStep, fun w => (k.spans w).trans (h.spans w)⟩

theorem SpanStep.on {s t : State} (h : SpanStep s t) (v : Nat) : VoiceStep v s t :=
  ⟨h.toSoundStep, fun w _ => h.spans w, .inl (congrArg Prod.snd (h.spans v) :)⟩

theorem VoiceStep.refl (v : Nat) (s : State) : VoiceStep v s s := (SpanStep.refl s).on v

theorem VoiceStep.trans {v : Nat} {a b c : State} (h : VoiceStep v a b) (k : VoiceStep v b c) : VoiceStep v a c where
  toSoundStep := h.toSoundStep.trans k.toSoundStep
  others w hw := (k.others w hw).trans (h.others w hw)
  part := by
    obtain hk | hk := k.part
    · rw [hk]
      exact h.part
    · exact .inr hk

theorem VoiceStep.done {v : Nat} {a b c : State} (h : VoiceStep v a b) (k : VoiceDone v b c) : VoiceDone v a c :=
  ⟨h.trans k.toVoiceStep, k.freed⟩

theorem VoiceDone.then {v : Nat} {a b c : State} (h : VoiceDone v a b) (k : SpanStep b c) : VoiceDone v a c := by
  obtain ⟨hi, hp⟩ := (Voice.span_eq_iff _ _).1 (k.spans v)
  exact ⟨h.toVoiceStep.trans (k.on v), fun hc => hp.trans (h.freed (hi.1 hc))⟩

theorem VoiceDone.tidy {v : Nat} {s t : State} (h : VoiceDone v s t) (hlen : s.sound.voices.length = 6)
    (hs : TidyBut v s) : Tidy t := by
  have hpart (w : Nat) (p : Partition) (hp : (voice t w).part = some p) : (voice s w).part = some p := by
    by_cases hw : w = v
    · subst hw
      obtain hk | hk := h.part
      · rwa [← hk]
      · rw [hk] at hp
        cases hp
    · rwa [← ((Voice.span_eq_iff _ _).1 (h.others w hw)).2]
  refine ⟨h.six.trans hlen, fun w hi => ?_, fun u w p q hne hp hq => hs.apart u w p q hne (hpart u p hp) (hpart w q hq)⟩
  by_cases hw : w = v
  · subst hw
    exact h.freed hi
  · obtain ⟨hidle, hp⟩ := (Voice.span_eq_iff _ _).1 (h.others w hw)
    exact hp.trans (hs.freed w hw (hidle.1 hi))

theorem VoiceDone.tidyStep {v : Nat} {s t : State} (h : VoiceDone v s t) : TidyStep s t :=
  ⟨h.toSoundStep, fun hs => h.tidy hs.six (hs.but v)⟩

theorem SpanStep.tidyStep {s t : State} (h : SpanStep s t) : TidyStep s t := ⟨h.toSoundStep, Tidy.of_spans h.six h.spans⟩

theorem TidyStep.refl (s : State) : TidyStep s s := (SpanStep.refl s).tidyStep

theorem TidyStep.trans {a b c : State} (h : TidyStep a b) (k : TidyStep b c) : TidyStep a c :=
  ⟨h.toSoundStep.trans k.toSoundStep, k.tidy ∘ h.tidy⟩

/-! ### The parts of the moves -/

theorem requestFlash_spanStep (v : Nat) (op : FlashOp) (s : State) : SpanStep s (requestFlash (.voice v) op s) where
  off := requestFlash_offSound _ _ s
  pending := by unfold requestFlash; dsimp only; split <;> rfl
  desk := deskRequests_requestFlash v op s
  six := by unfold requestFlash; dsimp only; split <;> rfl
  mode := by unfold requestFlash; dsimp only; split <;> rfl
  spans w := by unfold requestFlash; dsimp only; split <;> rfl

theorem withdrawVoice_spanStep (v : Nat) (s : State) : SpanStep s (withdrawVoice v s) where
  off := rfl
  pending := rfl
  desk := deskRequests_withdrawVoice v s
  six := rfl
  mode := rfl
  spans _ := rfl

theorem setVoice_soundStep (v : Nat) (vo : Voice) (s : State) : SoundStep s (setVoice v vo s) :=
  ⟨⟨rfl, rfl, rfl, List.length_set ..⟩, rfl⟩

theorem setVoice_spanStep {v : Nat} {vo : Voice} {s : State} (h : vo.span = (voice s v).span) :
    SpanStep s (setVoice v vo s) where
  toSoundStep := setVoice_soundStep v vo s
  spans w := by
    by_cases hw : w = v
    · subst hw
      by_cases hl : w < s.sound.voices.length
      · rw [voice_setVoice_same hl, h]
      · rw [setVoice_of_le (Nat.not_lt.1 hl)]
    · rw [voice_setVoice_other hw]

theorem setVoice_voiceStep {v : Nat} {vo : Voice} {s : State} (h : vo.part = (voice s v).part) :
    VoiceStep v s (setVoice v vo s) where
  toSoundStep := setVoice_soundStep v vo s
  others w hw := by rw [voice_setVoice_other hw]
  part := by
    obtain hv | hv := voice_setVoice s v vo
    · rw [hv]
      exact .inl h
    · rw [hv]
      exact .inr rfl

/-- A voice whose new record is not IDLE, or has freed its partition. -/
theorem setVoice_done {v : Nat} {vo : Voice} {s : State} (h : vo.part = (voice s v).part ∨ vo.part = none)
    (hidle : vo.state = .idle → vo.part = none) : VoiceDone v s (setVoice v vo s) where
  toSoundStep := setVoice_soundStep v vo s
  others w hw := by rw [voice_setVoice_other hw]
  part := by
    obtain hv | hv := voice_setVoice s v vo
    · rw [hv]
      exact h
    · rw [hv]
      exact .inr rfl
  freed := by
    obtain hv | hv := voice_setVoice s v vo
    · rw [hv]
      exact hidle
    · rw [hv]
      exact fun _ => rfl

theorem sound_spanStep {s : State} (x : Sound) (hd : x.dirPending = s.sound.dirPending) (hm : x.mode = s.sound.mode)
    (hl : x.voices.length = s.sound.voices.length)
    (hv : ∀ w, (x.voices.getD w resetVoice).span = (voice s w).span) : SpanStep s { s with sound := x } :=
  ⟨⟨⟨rfl, hd, rfl, hl⟩, hm⟩, hv⟩

theorem askRun_spanStep (v : Nat) (s : State) : SpanStep s (askRun v s) := by
  unfold askRun
  dsimp only
  split
  · split
    · exact .refl s
    · refine (setVoice_spanStep ?_).trans (requestFlash_spanStep v _ _)
      unfold Voice.setHalf
      split <;> rfl
  · exact .refl s

theorem CuePhase.voiceState_ne_idle (ph : CuePhase) : ph.voiceState ≠ .idle := by cases ph <;> nofun

theorem primeVoice_done (v : Nat) (ph : CuePhase) (c : Clip) (pos : Nat) (s : State) : VoiceDone v s (primeVoice v ph c pos s) := by
  refine ((withdrawVoice_spanStep v s).on v).done ?_
  unfold primeVoice
  generalize withdrawVoice v s = u
  dsimp only
  split
  next hp => exact ⟨.refl v u, fun _ => hp⟩
  next p hp =>
    split
    · refine VoiceDone.then ?_ (askRun_spanStep v _)
      exact setVoice_done (.inl rfl) nofun
    · split
      · exact setVoice_done (.inl rfl) fun h => absurd h ph.voiceState_ne_idle
      · refine VoiceDone.then ?_ (requestFlash_spanStep v _ _)
        exact setVoice_done (.inl rfl) nofun

theorem idleVoice_done (v : Nat) (s : State) : VoiceDone v s (idleVoice v s) :=
  ((withdrawVoice_spanStep v s).on v).done (setVoice_done (.inr rfl) fun _ => rfl)

theorem chooseExhaust_spanStep (c : Nat) (s : State) : SpanStep s (chooseExhaust c s).2 := by
  unfold chooseExhaust
  split
  · exact sound_spanStep _ rfl rfl rfl fun _ => rfl
  · split
    · exact sound_spanStep _ rfl rfl rfl fun _ => rfl
    · exact .refl s

theorem resumeFrom_done (v : Nat) (st : List StackEntry) (s : State) : VoiceDone v s (resumeFrom v st s) := by
  induction st generalizing s with
  | nil => exact idleVoice_done v s
  | cons e rest ih =>
    have hchosen : SpanStep s (if exhaustCue s == some e.cue then chooseExhaust e.cue s else (none, s)).2 := by
      split
      · exact chooseExhaust_spanStep _ s
      · exact .refl s
    unfold resumeFrom
    dsimp only
    generalize (if (exhaustCue s == some e.cue) = true then chooseExhaust e.cue s else (none, s)) = chosen at hchosen ⊢
    refine (hchosen.on v).done ?_
    generalize (if (exhaustCue s == some e.cue) = true then _ else _) = picked
    cases picked with
    | some x =>
      refine VoiceStep.done ?_ (primeVoice_done v _ _ _ _)
      exact setVoice_voiceStep rfl
    | none =>
      refine VoiceStep.done ?_ (ih _)
      exact setVoice_voiceStep rfl

theorem cueEnd_done (v : Nat) (s : State) : VoiceDone v s (cueEnd v s) := resumeFrom_done v _ s

theorem phaseEnd_done (v : Nat) (s : State) : VoiceDone v s (phaseEnd v s) := by
  unfold phaseEnd
  dsimp only
  split
  · exact idleVoice_done v s
  · split
    · split
      · exact cueEnd_done v s
      · split
        · exact primeVoice_done v _ _ _ s
        · exact cueEnd_done v s
    · exact cueEnd_done v s

/-! ### Starting (R123 to R125) -/

theorem startOn_done (v c : Nat) (held : Bool) (ex : Option (Option Clip)) (s : State) :
    VoiceDone v s (startOn v c held ex s) := by
  unfold startOn
  dsimp only
  split
  · refine VoiceStep.done ?_ (primeVoice_done v _ _ _ _)
    exact setVoice_voiceStep rfl
  · refine VoiceStep.done ?_ (cueEnd_done v _)
    exact setVoice_voiceStep rfl

theorem dropResidents_spanStep (v : Nat) (p : Partition) (s : State) : SpanStep s (dropResidents v p s) :=
  sound_spanStep _ rfl rfl (List.length_mapIdx ..) fun w =>
    span_of_voices (s := s) (t := dropResidents v p s) rfl (fun i vo => by split <;> [split; skip] <;> rfl) w

theorem betterVictim_mem {s : State} {P : Nat → Prop} {v : Nat} {vs : List Nat} (hv : P v) (hvs : ∀ w ∈ vs, P w) :
    P (vs.foldl (betterVictim s) v) := by
  induction vs generalizing v with
  | nil => exact hv
  | cons w vs ih =>
    refine ih ?_ fun x hx => hvs x (List.mem_cons_of_mem _ hx)
    unfold betterVictim
    dsimp only
    split
    · exact hvs w List.mem_cons_self
    · exact hv

/-- The voice that a fresh start takes, whether free or displaced, has a partition that overlaps no other one in use
(R124). -/
theorem chooseVoice_fits {s : State} {c v : Nat} (h : chooseVoice s c = .free v ∨ chooseVoice s c = .displace v) :
    overlapsOther s v (voicePartition s v) = false := by
  unfold chooseVoice at h
  dsimp only at h
  split at h
  next w hw =>
    have hw := List.find?_some hw
    have hfit := (Bool.and_eq_true_iff.1 hw).2
    obtain h | h := h
    · cases h
      exact Bool.not_eq_true' _ ▸ hfit
    · cases h
  next =>
    split at h
    next w ws hws =>
      have hmem (x : Nat) (hx : x ∈ w :: ws) : overlapsOther s x (voicePartition s x) = false := by
        rw [← hws] at hx
        have hfit := (Bool.and_eq_true_iff.1 (List.mem_filter.1 hx).2).2
        exact Bool.not_eq_true' _ ▸ hfit
      obtain h | h := h
      · cases h
      · cases h
        exact betterVictim_mem (P := fun x => overlapsOther s x (voicePartition s x) = false) (hmem w List.mem_cons_self)
          fun x hx => hmem x (List.mem_cons_of_mem _ hx)
    next => split at h <;> obtain h | h := h <;> cases h

theorem apart_of_fits {s : State} {v w : Nat} {p q : Partition} (hs : Tidy s)
    (h : overlapsOther s v p = false) (hne : w ≠ v) (hq : (voice s w).part = some q) : p.Apart q := by
  have hw : w < 6 := by
    by_contra hw
    rw [voice_of_le (by rw [hs.six]; omega)] at hq
    cases hq
  have hactive : (voice s w).state ≠ .idle := fun hi => by
    rw [hs.freed w hi] at hq
    cases hq
  unfold overlapsOther at h
  have hw := List.any_eq_false.1 h w (List.mem_range.2 hw)
  rw [hq] at hw
  refine Partition.apart_of_not_overlaps (Bool.eq_false_iff.2 fun ho => hw ?_)
  simp [hne, hactive, ho]

theorem freshOn_tidyStep {s : State} {v c : Nat} (held : Bool) (ex : Option (Option Clip)) (stack : List StackEntry)
    (h : overlapsOther s v (voicePartition s v) = false) :
    TidyStep s (freshOn v c held ex stack s) := by
  have hdrop : SpanStep s (dropResidents v (voicePartition s v)
      { s with sound := { s.sound with startCounter := s.sound.startCounter + 1 } }) := by
    refine SpanStep.trans ?_ (dropResidents_spanStep v _ _)
    exact ⟨⟨⟨rfl, rfl, rfl, rfl⟩, rfl⟩, fun _ => rfl⟩
  unfold freshOn
  dsimp only
  generalize dropResidents v (voicePartition s v)
      { s with sound := { s.sound with startCounter := s.sound.startCounter + 1 } } = u at hdrop ⊢
  refine ⟨hdrop.toSoundStep.trans ((setVoice_soundStep v _ u).trans (startOn_done v c held ex _).toSoundStep), fun hs => ?_⟩
  have hu : Tidy u := hs.of_spans hdrop.six hdrop.spans
  refine (startOn_done v c held ex _).tidy ((List.length_set ..).trans hu.six) ⟨fun w hw => ?_, fun x w p q hne hp hq => ?_⟩
  · rw [voice_setVoice_other hw]
    exact hu.freed w
  · have hnew (y : Nat) (r : Partition) (hy : y ≠ v) (hr : (voice u y).part = some r) : (voicePartition s v).Apart r :=
      apart_of_fits hs h hy (((Voice.span_eq_iff _ _).1 (hdrop.spans y)).2.symm.trans hr)
    have hset (r : Partition)
        (hr : (voice (setVoice v { voice u v with startNo := u.sound.startCounter, part := some (voicePartition s v), stack := stack } u) v).part = some r) :
        r = voicePartition s v := by
      obtain hv | hv := voice_setVoice u v { voice u v with startNo := u.sound.startCounter, part := some (voicePartition s v), stack := stack }
      · rw [hv] at hr
        exact (Option.some.inj hr).symm
      · rw [hv] at hr
        cases hr
    by_cases hx : x = v
    · subst hx
      rw [hset p hp]
      rw [voice_setVoice_other (Ne.symm hne)] at hq
      exact hnew w q (Ne.symm hne) hq
    · rw [voice_setVoice_other hx] at hp
      by_cases hw : w = v
      · subst hw
        rw [hset q hq]
        exact (hnew x p hx hp).symm
      · rw [voice_setVoice_other hw] at hq
        exact hu.apart x w p q hne hp hq

theorem freshStart_tidyStep (c : Nat) (held : Bool) (ex : Option (Option Clip)) (s : State) :
    TidyStep s (freshStart c held ex s) := by
  unfold freshStart
  split
  next h => exact freshOn_tidyStep held ex _ (chooseVoice_fits (.inl h))
  next h => exact freshOn_tidyStep held ex _ (chooseVoice_fits (.inr h))
  · exact SpanStep.tidyStep ⟨⟨⟨rfl, rfl, rfl, rfl⟩, rfl⟩, fun _ => rfl⟩
  · exact SpanStep.tidyStep ⟨⟨⟨rfl, rfl, rfl, rfl⟩, rfl⟩, fun _ => rfl⟩

theorem unstack_spanStep (c : Nat) (s : State) : SpanStep s (unstack c s) where
  off := rfl
  pending := rfl
  desk := rfl
  six := List.length_map ..
  mode := rfl
  spans := span_of_map rfl fun _ => rfl

theorem takeStart_tidyStep (c : Nat) (held : Bool) (ex : Option (Option Clip)) (s : State) :
    TidyStep s (takeStart c held ex s) := by
  unfold takeStart
  split
  · exact (startOn_done _ c held ex s).tidyStep
  · exact (unstack_spanStep c s).tidyStep.trans (freshStart_tidyStep c held ex _)

theorem startRequest_tidyStep (c : Nat) (held : Bool) (s : State) : TidyStep s (startRequest c held s) := by
  unfold startRequest
  dsimp only
  split
  · exact .refl s
  · split
    · split
      · exact (chooseExhaust_spanStep c s).tidyStep.trans (takeStart_tidyStep c held _ _)
      · exact .refl s
    · exact takeStart_tidyStep c held none s

theorem triggerEnd_spanStep (c : Nat) (s : State) : SpanStep s (triggerEnd c s) := by
  unfold triggerEnd
  dsimp only
  split
  · exact .refl s
  · exact ⟨⟨⟨rfl, rfl, rfl, List.length_map ..⟩, rfl⟩, span_of_map rfl fun _ => rfl⟩

/-! ### Modes (R130 to R133) -/

theorem foldl_tidyStep {β : Type} {f : State → β → State} (hf : ∀ s b, TidyStep s (f s b)) (l : List β) (s : State) :
    TidyStep s (l.foldl f s) := by
  induction l generalizing s with
  | nil => exact .refl s
  | cons b l ih => exact (hf s b).trans (ih _)

theorem fadeVoice_tidyStep (v : Nat) (s : State) : TidyStep s (fadeVoice v s) := by
  unfold fadeVoice
  dsimp only
  split
  · refine (setVoice_spanStep ?_).tidyStep
    rfl
  · split
    · refine (SpanStep.tidyStep ?_).trans (idleVoice_done v _).tidyStep
      exact setVoice_spanStep rfl
    · refine (withdrawVoice_spanStep v s).tidyStep.trans (SpanStep.tidyStep ?_)
      exact setVoice_spanStep rfl

/-- The mode becomes QUIET, and the partitions in use stay apart. -/
theorem goQuiet_move (s : State) :
    SoundMove s (goQuiet s) ∧ (goQuiet s).sound.mode = .quiet ∧ (Tidy s → Tidy (goQuiet s)) := by
  have hended (c : Option Nat) (u : State) : TidyStep u (match c with | some c => triggerEnd c u | none => u) := by
    cases c with
    | some c => exact (triggerEnd_spanStep c u).tidyStep
    | none => exact .refl u
  have hset : SoundMove s { s with sound := { s.sound with mode := .quiet, ambient := false } } := ⟨rfl, rfl, rfl, rfl⟩
  have htidy : Tidy s → Tidy { s with sound := { s.sound with mode := .quiet, ambient := false } } :=
    Tidy.of_spans rfl fun _ => rfl
  have hfaded : TidyStep { s with sound := { s.sound with mode := .quiet, ambient := false } } (goQuiet s) := by
    unfold goQuiet
    exact (hended (if s.sound.ambient then ambientCue s else none) _).trans
      (foldl_tidyStep (fun s v => fadeVoice_tidyStep v s) (List.range 6) _)
  exact ⟨hset.trans hfaded.toSoundMove, hfaded.mode, fun hs => hfaded.tidy (htidy hs)⟩

theorem ambientBegin_tidyStep (s : State) : TidyStep s (ambientBegin s) := by
  have hset : TidyStep s { s with sound := { s.sound with ambient := true } } :=
    SpanStep.tidyStep ⟨⟨⟨rfl, rfl, rfl, rfl⟩, rfl⟩, fun _ => rfl⟩
  unfold ambientBegin
  dsimp only
  split
  · exact hset.trans (startRequest_tidyStep _ true _)
  · exact hset

theorem quietCause_of_move {s t : State} (h : SoundMove s t) : quietCause t = quietCause s := by
  have hsupply : t.supply = s.supply := (congrArg State.supply h.off :)
  have htxn : t.txn = s.txn := (congrArg State.txn h.off :)
  have hjob : t.job = s.job := (congrArg State.job h.off :)
  unfold quietCause
  rw [hsupply, htxn, hjob, h.pending]

/-- The engine is QUIET just while a cause of R130 holds. -/
def ModeFits (s : State) : Prop := s.sound.mode = .quiet ↔ quietCause s = true

/-- The mode is decided: the partitions in use stay apart, and the mode fits its causes (R130). -/
theorem updateMode_move (s : State) :
    SoundMove s (updateMode s) ∧ ModeFits (updateMode s) ∧ (Tidy s → Tidy (updateMode s)) := by
  unfold updateMode
  dsimp only
  split
  next hm hq =>
    obtain ⟨hmove, hquiet, htidy⟩ := goQuiet_move s
    refine ⟨hmove, ?_, htidy⟩
    unfold ModeFits
    rw [hquiet, quietCause_of_move hmove, hq]
    exact ⟨fun _ => rfl, fun _ => rfl⟩
  next hm hq =>
    have hset : SoundMove s { s with sound := { s.sound with mode := .normal } } := ⟨rfl, rfl, rfl, rfl⟩
    have hfits {t : State} (h : SoundStep { s with sound := { s.sound with mode := .normal } } t) : ModeFits t := by
      unfold ModeFits
      rw [h.mode, quietCause_of_move (hset.trans h.toSoundMove), hq]
      exact ⟨nofun, nofun⟩
    have hnormal : Tidy s → Tidy { s with sound := { s.sound with mode := .normal } } :=
      Tidy.of_spans rfl fun _ => rfl
    split
    · have h := ambientBegin_tidyStep { s with sound := { s.sound with mode := .normal } }
      exact ⟨hset.trans h.toSoundMove, hfits h.toSoundStep, fun hs => h.tidy (hnormal hs)⟩
    · exact ⟨hset, hfits (.refl _), hnormal⟩
  next h1 h2 =>
    refine ⟨.refl s, ?_, id⟩
    unfold ModeFits
    cases hm : s.sound.mode with
    | normal => 
      cases hq : quietCause s with
      | true => exact absurd hq (h1 hm)
      | false => exact ⟨nofun, nofun⟩
    | quiet =>
      cases hq : quietCause s with
      | true => exact ⟨fun _ => rfl, fun _ => rfl⟩
      | false => exact absurd hq (h2 hm)

theorem ModeFits.of_step {s t : State} (h : SoundStep s t) (hs : ModeFits s) : ModeFits t := by
  unfold ModeFits
  rw [h.mode, quietCause_of_move h.toSoundMove]
  exact hs

theorem soundSupplyChange_move (s : State) :
    SoundMove s (soundSupplyChange s) ∧ ModeFits (soundSupplyChange s) ∧ (Tidy s → Tidy (soundSupplyChange s)) := by
  obtain ⟨hmove, hfits, htidy⟩ := updateMode_move s
  unfold soundSupplyChange
  dsimp only
  split
  · have h := ambientBegin_tidyStep (updateMode s)
    exact ⟨hmove.trans h.toSoundMove, hfits.of_step h.toSoundStep, fun hs => h.tidy (htidy hs)⟩
  · exact ⟨hmove, hfits, htidy⟩

theorem ambientChanged_tidyStep (old : Option Nat) (s : State) : TidyStep s (ambientChanged old s) := by
  unfold ambientChanged
  split
  · refine TidyStep.trans ?_ (ambientBegin_tidyStep _)
    split
    · exact (triggerEnd_spanStep _ s).tidyStep
    · exact .refl s
  · exact .refl s

/-! ### Playing (R121, R122, R126, R127) -/

theorem turnHalf_spanStep (v : Nat) (s : State) : SpanStep s (turnHalf v s) := by
  unfold turnHalf
  dsimp only
  refine SpanStep.trans (setVoice_spanStep ?_) (askRun_spanStep v _)
  unfold Voice.setHalf
  repeat' split
  all_goals rfl

theorem leaveLoop_spanStep (v lp : Nat) (s : State) : SpanStep s (leaveLoop v lp s) := by
  unfold leaveLoop
  dsimp only
  refine (withdrawVoice_spanStep v s).trans (SpanStep.trans (setVoice_spanStep ?_) (askRun_spanStep v _))
  rfl

theorem advanceVoice_tidyStep (v : Nat) (s : State) : TidyStep s (advanceVoice v s) := by
  have hmoved (vo : Voice) (h : vo.span = (voice s v).span) : TidyStep s (setVoice v vo s) := (setVoice_spanStep h).tidyStep
  unfold advanceVoice
  dsimp only
  split
  · split
    · split
      · split
        · exact (hmoved _ (by rfl)).trans (turnHalf_spanStep v _).tidyStep
        · exact hmoved _ (by rfl)
      · split
        · exact (phaseEnd_done v s).tidyStep
        · split
          · exact (leaveLoop_spanStep v _ s).tidyStep
          · exact hmoved _ (by rfl)
    · split
      · exact (phaseEnd_done v s).tidyStep
      · split
        · exact (hmoved _ (by rfl)).trans (turnHalf_spanStep v _).tidyStep
        · exact hmoved _ (by rfl)
  · exact .refl s

theorem sampleEvent_tidyStep (s : State) : TidyStep s (sampleEvent s) := by
  unfold sampleEvent
  dsimp only
  refine TidyStep.trans ?_ (foldl_tidyStep (fun s v => advanceVoice_tidyStep v s) _ _)
  exact SpanStep.tidyStep ⟨⟨⟨rfl, rfl, rfl, rfl⟩, rfl⟩, fun _ => rfl⟩

theorem envelopeStep_tidyStep (v : Nat) (s : State) : TidyStep s (envelopeStep v s) := by
  unfold envelopeStep
  dsimp only
  split
  · exact .refl s
  · split
    · exact .refl s
    · exact (setVoice_spanStep (by rfl)).tidyStep
    · split
      · exact (idleVoice_done v s).tidyStep
      · exact (setVoice_spanStep (by rfl)).tidyStep

/-- PRIME ends in the phase it was for, which is not IDLE (R121). -/
theorem span_of_primed {vo : Voice} (h : vo.state = .prime) (ph : CuePhase) (next : Option CuePhase)
    (resident : Option (Nat × Partition)) :
    Voice.span { vo with state := ph.voiceState, nextPhase := next, resident := resident } = vo.span := by
  refine (Voice.span_eq_iff _ _).2 ⟨⟨fun hi => absurd hi ph.voiceState_ne_idle, fun hi => ?_⟩, rfl⟩
  rw [h] at hi
  cases hi

theorem voiceDataArrived_tidyStep (v : Nat) (s : State) : TidyStep s (voiceDataArrived v s) := by
  have hfilled (vo : Voice) : Voice.span (match vo.half0, vo.half1 with
      | .filling r, _ => { vo with half0 := .full r }
      | _, .filling r => { vo with half1 := .full r }
      | _, _ => vo) = vo.span := by
    split <;> rfl
  have hplays (vo : Voice) : Voice.span (match vo.state, vo.nextPhase with
      | .prime, some ph => { vo with state := ph.voiceState, nextPhase := none }
      | _, _ => vo) = vo.span := by
    split
    next hstate _ => exact span_of_primed hstate _ none vo.resident
    next => rfl
  have hready (vo : Voice) : Voice.span (match vo.half vo.playing with
      | .full _ => { vo with wait := .none }
      | _ => vo) = vo.span := by
    split <;> rfl
  unfold voiceDataArrived
  dsimp only
  split
  · split
    · exact (SpanStep.trans (setVoice_spanStep (((hready _).trans (hplays _)).trans (hfilled _))) (askRun_spanStep v _)).tidyStep
    · split
      next hstate _ =>
        have hset (ph : CuePhase) (r : Option (Nat × Partition)) :
            TidyStep s (setVoice v { voice s v with state := ph.voiceState, nextPhase := none, resident := r } s) :=
          (setVoice_spanStep (span_of_primed hstate ph none r)).tidyStep
        split
        · exact (hset _ _).trans (phaseEnd_done v _).tidyStep
        · exact hset _ _
      next => exact .refl s
  · exact .refl s

end Sys2Proof.Machine
end

section
/-! The Flash Port's set and the voices under every step (R120, R130, R167, R173 to R175, R178). Settles O9. -/

namespace Sys2Proof.Machine

/-! ### The voices and the mode -/

theorem quietCause_iff (s : State) : quietCause s = true ↔ s.supply.state = .parked ∨ s.supply.state = .dark ∨
    (s.txn.state ≠ .closed ∧ s.txn.target = .bank) ∨ s.job ≠ .none ∨ s.sound.dirPending = true := by
  unfold quietCause
  simp only [Bool.or_eq_true, Bool.and_eq_true, beq_iff_eq, bne_iff_ne, or_assoc]

theorem voice_eq_of_getElem? {s : State} {v : Nat} {a : Voice} (h : s.sound.voices[v]? = some a) : voice s v = a := by
  unfold voice
  rw [List.getD_eq_getElem?_getD, h]
  rfl

theorem getElem?_of_part {s : State} {v : Nat} {p : Partition} (h : (voice s v).part = some p) :
    s.sound.voices[v]? = some (voice s v) := by
  unfold voice at h ⊢
  rw [List.getD_eq_getElem?_getD] at h ⊢
  cases hv : s.sound.voices[v]? with
  | none =>
    rw [hv] at h
    cases h
  | some a => rfl

theorem voicesSound_iff (s : State) : VoicesSound s ↔ Tidy s ∧ ModeFits s := by
  unfold ModeFits
  rw [quietCause_iff]
  constructor
  · intro h
    have hfreed (w : Nat) (hi : (voice s w).state = .idle) : (voice s w).part = none := by
      cases hp : (voice s w).part with
      | none => rfl
      | some p => exact hp.symm.trans (h.idle _ (List.mem_of_getElem? (getElem?_of_part hp)) hi)
    refine ⟨⟨h.six, hfreed, fun u w p q hne hp hq => ?_⟩, h.mode⟩
    have hactive {x : Nat} {r : Partition} (hr : (voice s x).part = some r) : (voice s x).state ≠ .idle := fun hi => by
      rw [hfreed x hi] at hr
      cases hr
    exact h.disjoint u w _ _ p q hne (getElem?_of_part hp) (getElem?_of_part hq) (hactive hp) (hactive hq) hp hq
  · rintro ⟨h, hmode⟩
    refine ⟨h.six, fun vo hvo hi => ?_, fun v w a b p q hne ha hb _ _ hp hq => ?_, hmode⟩
    · obtain ⟨i, hlt, rfl⟩ := List.getElem_of_mem hvo
      have hv := voice_eq_of_getElem? (List.getElem?_eq_getElem hlt)
      rw [← hv] at hi ⊢
      exact h.freed i hi
    · exact h.apart v w p q hne (voice_eq_of_getElem? ha ▸ hp) (voice_eq_of_getElem? hb ▸ hq)

/-! ### The Flash Port's set -/

/-- The job in which a request of the Store stands (R173, R174). -/
def FlashOp.job : FlashOp → FlashJob
  | .writePage _ _ => .bank
  | _ => .save

theorem PortSound.store_job {s : State} (h : PortSound s) {r : FlashRequest} (hr : r ∈ liveRequests s)
    (hw : r.who = .store) : s.job = r.op.job := by
  have hj := h.store r hr hw
  unfold FlashOp.job
  exact hj

theorem PortSound.no_store {s : State} (h : PortSound s) (hj : s.job ≠ .save) (hb : s.job ≠ .bank) :
    ∀ r ∈ liveRequests s, r.who ≠ .store := fun r hr hw => by
  have hjob := h.store_job hr hw
  cases hop : r.op <;> rw [hop] at hjob
  case writePage => exact hb hjob
  all_goals exact hj hjob

/-- A set with fewer requests is sound beside the same job and transaction. -/
theorem PortSound.of_fewer {s t : State} (h : PortSound s) (hw : ∀ r ∈ t.port.waiting, r ∈ s.port.waiting)
    (hl : (liveRequests t).Subperm (liveRequests s)) (hphase : t.phase = s.phase)
    (hpend : t.sound.dirPending = s.sound.dirPending) (hjob : t.job = s.job) (hstate : t.txn.state = s.txn.state)
    (htarget : t.txn.target = s.txn.target) : PortSound t where
  waiting r hr := h.waiting r (hw r hr)
  startUp r hr hs := hphase ▸ h.startUp r (hl.subset hr) hs
  loading hp := ⟨hpend ▸ (h.loading (hphase ▸ hp)).1, fun r hr => (h.loading (hphase ▸ hp)).2 r (hl.subset hr)⟩
  single := (hl.filter _).length_le.trans h.single
  store r hr hs := hjob ▸ h.store r (hl.subset hr) hs
  bank := hstate ▸ htarget ▸ hjob ▸ h.bank

theorem PortSound.of_same {s t : State} (h : PortSound s) (hport : t.port = s.port) (hphase : t.phase = s.phase)
    (hpend : t.sound.dirPending = s.sound.dirPending) (hjob : t.job = s.job) (hstate : t.txn.state = s.txn.state)
    (htarget : t.txn.target = s.txn.target) : PortSound t := by
  have hlive : liveRequests t = liveRequests s := by
    unfold liveRequests
    rw [hport]
  exact h.of_fewer (fun r hr => hport ▸ hr) (hlive ▸ List.Subperm.refl _) hphase hpend hjob hstate htarget

theorem mem_waiting_of_desk {s t : State} (h : deskRequests t = deskRequests s) {r : FlashRequest}
    (hv : r.ofVoice = false) (hr : r ∈ t.port.waiting) : r ∈ s.port.waiting := by
  have hmem : r ∈ (deskRequests t).1 := List.mem_filter.2 ⟨hr, by rw [hv]; rfl⟩
  rw [h] at hmem
  exact (List.mem_filter.1 hmem).1

theorem mem_live_of_desk {s t : State} (h : deskRequests t = deskRequests s) {r : FlashRequest} (hv : r.ofVoice = false)
    (hr : r ∈ liveRequests t) : r ∈ liveRequests s := by
  have hmem : r ∈ (deskRequests t).2 := List.mem_filter.2 ⟨hr, by rw [hv]; rfl⟩
  rw [h] at hmem
  exact (List.mem_filter.1 hmem).1

theorem FlashRequest.not_ofVoice {r : FlashRequest} (h : ∀ v, r.who ≠ .voice v) : r.ofVoice = false := by
  unfold FlashRequest.ofVoice
  split
  next v hv => exact absurd hv (h v)
  next => rfl

theorem storeRequests_of_desk (s : State) : (liveRequests s).filter (fun r => r.who == .store) =
    (deskRequests s).2.filter (fun r => r.who == .store) := by
  unfold deskRequests
  rw [List.filter_filter]
  refine List.filter_congr fun r _ => ?_
  by_cases hw : r.who = .store
  · simp [hw, FlashRequest.ofVoice]
  · simp [hw]

theorem PortSound.of_move {s t : State} (h : PortSound s) (hm : SoundMove s t) : PortSound t := by
  have hphase : t.phase = s.phase := (congrArg State.phase hm.off :)
  have htxn : t.txn = s.txn := (congrArg State.txn hm.off :)
  have hjob : t.job = s.job := (congrArg State.job hm.off :)
  have hlive {r : FlashRequest} (hr : r ∈ liveRequests t) (hv : ∀ v, r.who ≠ .voice v) : r ∈ liveRequests s :=
    mem_live_of_desk hm.desk (FlashRequest.not_ofVoice hv) hr
  refine ⟨fun r hr hs => ?_, fun r hr hs => ?_, fun hp => ⟨?_, fun r hr => ⟨fun hs => ?_, fun hs => ?_⟩⟩, ?_, fun r hr hs => ?_, ?_⟩
  · exact h.waiting r (mem_waiting_of_desk hm.desk (FlashRequest.not_ofVoice fun v hv => by rw [hs] at hv; cases hv) hr) hs
  · exact hphase ▸ h.startUp r (hlive hr fun v hv => by rw [hs] at hv; cases hv) hs
  · exact hm.pending.trans (h.loading (hphase ▸ hp)).1
  · exact ((h.loading (hphase ▸ hp)).2 r (hlive hr fun v hv => by rw [hs] at hv; cases hv)).1 hs
  · exact ((h.loading (hphase ▸ hp)).2 r (hlive hr fun v hv => by rw [hs] at hv; cases hv)).2 hs
  · rw [storeRequests_of_desk, hm.desk, ← storeRequests_of_desk]
    exact h.single
  · exact hjob ▸ h.store r (hlive hr fun v hv => by rw [hs] at hv; cases hv) hs
  · rw [htxn, hjob]
    exact h.bank

theorem liveRequests_requestFlash_perm (who : Requester) (op : FlashOp) (s : State) :
    (liveRequests (requestFlash who op s)).Perm (⟨who, op, s.partTime⟩ :: liveRequests s) := by
  obtain h | ⟨a, b, hs, h⟩ := liveRequests_requestFlash who op s
  · rw [h]
    exact List.perm_append_comm (l₂ := [_])
  · rw [h, hs, List.append_assoc]
    exact List.perm_middle

theorem waiting_requestFlash {who : Requester} {op : FlashOp} {s : State} {r : FlashRequest}
    (h : r ∈ (requestFlash who op s).port.waiting) : r ∈ s.port.waiting ∨ r = ⟨who, op, s.partTime⟩ := by
  unfold requestFlash at h
  dsimp only at h
  split at h
  · exact .inl h
  · exact (List.mem_append.1 h).imp id List.mem_singleton.1

/-- A request of the Store or for the directory enters a sound set after the start-up, the Store's beside its own job
and no other request of it. -/
theorem PortSound.request {s : State} (h : PortSound s) {who : Requester} (op : FlashOp) (hstart : who ≠ .startUp)
    (hp : s.phase = .running) (hnone : who = .store → (∀ r ∈ liveRequests s, r.who ≠ .store) ∧ s.job = op.job) :
    PortSound (requestFlash who op s) := by
  have hperm := liveRequests_requestFlash_perm who op s
  have hsame : (requestFlash who op s).offSound = s.offSound := requestFlash_offSound who op s
  have hphase : (requestFlash who op s).phase = .running := (congrArg State.phase hsame :).trans hp
  have hjob : (requestFlash who op s).job = s.job := (congrArg State.job hsame :)
  have htxn : (requestFlash who op s).txn = s.txn := (congrArg State.txn hsame :)
  have hmem {r : FlashRequest} (hr : r ∈ liveRequests (requestFlash who op s)) :
      r = ⟨who, op, s.partTime⟩ ∨ r ∈ liveRequests s := List.mem_cons.1 (hperm.subset hr)
  have hloading {P : Prop} (hl : (requestFlash who op s).phase = .loading) : P := by
    rw [hphase] at hl
    cases hl
  refine ⟨fun r hr => ?_, fun r hr hs => ?_, fun hl => hloading hl, ?_, fun r hr hs => ?_, ?_⟩
  · obtain hr | rfl := waiting_requestFlash hr
    · exact h.waiting r hr
    · exact hstart
  · obtain rfl | hr := hmem hr
    · exact absurd hs hstart
    · rw [h.startUp r hr hs] at hp
      cases hp
  · rw [(hperm.filter _).length_eq]
    by_cases hw : who = .store
    · have hnil : (liveRequests s).filter (fun r => r.who == .store) = [] :=
        List.filter_eq_nil_iff.2 fun r hr => by simpa using (hnone hw).1 r hr
      simp [hw, hnil]
    · simpa [hw] using h.single
  · rw [hjob]
    obtain rfl | hr := hmem hr
    · exact (hnone hs).2
    · exact h.store r hr hs
  · rw [htxn, hjob]
    exact h.bank

/-- The requests that count when the operation in progress has ended (R175, R178). -/
theorem liveRequests_portFreed (s : State) :
    liveRequests (portFreed s) = s.port.waiting ++ (if s.phase = .loading then [startUpRead s.partTime] else []) := by
  unfold liveRequests portFreed
  by_cases hp : s.phase = .loading
  · simp only [if_pos hp]
  · simp only [if_neg hp]

theorem waiting_live {s : State} {r : FlashRequest} (h : r ∈ s.port.waiting) : r ∈ liveRequests s :=
  List.mem_append_left _ h

theorem mem_live_portFreed {s : State} {r : FlashRequest} (h : r ∈ liveRequests (portFreed s)) :
    r ∈ s.port.waiting ∨ (s.phase = .loading ∧ r = startUpRead s.partTime) := by
  rw [liveRequests_portFreed] at h
  obtain h | h := List.mem_append.1 h
  · exact .inl h
  · split at h
    next hp => exact .inr ⟨hp, List.mem_singleton.1 h⟩
    next => cases h

theorem PortSound.portFreed {s : State} (h : PortSound s) : PortSound (portFreed s) := by
  refine ⟨h.waiting, fun r hr hs => ?_, fun hp => ⟨(h.loading hp).1, fun r hr => ?_⟩, ?_, fun r hr hs => ?_, h.bank⟩
  · obtain hr | ⟨hp, -⟩ := mem_live_portFreed hr
    · exact absurd hs (h.waiting r hr)
    · exact hp
  · obtain hr | ⟨-, rfl⟩ := mem_live_portFreed hr
    · exact (h.loading hp).2 r (waiting_live hr)
    · exact ⟨nofun, nofun⟩
  · refine le_trans ?_ h.single
    rw [liveRequests_portFreed, List.filter_append, List.length_append]
    have hnew : ((if s.phase = .loading then [startUpRead s.partTime] else []).filter (fun r => r.who == .store)).length = 0 := by
      split <;> rfl
    rw [hnew]
    unfold liveRequests
    rw [List.filter_append, List.length_append]
    exact Nat.le_add_right _ _
  · obtain hr | ⟨-, rfl⟩ := mem_live_portFreed hr
    · exact h.store r (waiting_live hr) hs
    · cases hs

/-- When the Store's own request has been served, none is left (R167). -/
theorem PortSound.no_store_waiting {s : State} (h : PortSound s) {r : FlashRequest} (hb : s.port.busy = some (r, false))
    (hw : r.who = .store) : ∀ x ∈ liveRequests (Machine.portFreed s), x.who ≠ .store := by
  intro x hx hs
  obtain hx | ⟨-, rfl⟩ := mem_live_portFreed hx
  · have hlen := h.single
    have hlive : liveRequests s = s.port.waiting ++ [r] := by
      unfold liveRequests
      rw [hb]
    have hmem : x ∈ s.port.waiting.filter (fun r => r.who == .store) := List.mem_filter.2 ⟨hx, by rw [hs]; rfl⟩
    rw [hlive, List.filter_append, List.length_append] at hlen
    have hone : ([r].filter (fun r => r.who == .store)).length = 1 := by simp [hw]
    have := List.length_pos_of_mem hmem
    omega
  · cases hs

theorem mem_of_arbiterChoice {l : List FlashRequest} {r : FlashRequest} (h : arbiterChoice l = some r) : r ∈ l := by
  unfold arbiterChoice at h
  split at h
  next x hx =>
    cases h
    obtain ⟨v, -, hv⟩ := List.exists_of_findSome?_eq_some hx
    exact List.mem_of_find?_eq_some hv
  next => exact List.mem_of_head? h

theorem PortSound.startFlashRequest {s : State} (h : PortSound s) : PortSound (startFlashRequest s) := by
  unfold Machine.startFlashRequest
  split
  · exact h
  next hb =>
    split
    next r hr =>
      have hmem := mem_of_arbiterChoice hr
      have hlive : liveRequests s = s.port.waiting := by
        unfold liveRequests
        rw [Option.not_isSome_iff_eq_none.1 hb]
        exact List.append_nil _
      refine h.of_fewer (fun x hx => List.mem_of_mem_erase hx) (List.Perm.subperm ?_) rfl rfl rfl rfl rfl
      rw [hlive]
      exact (List.perm_append_comm (l₂ := [r])).trans (List.perm_cons_erase hmem).symm
    next => exact h

/-! ### Steps of the whole -/

/-- What the invariants of the Flash Port and of the voices read, but for the supply state. -/
def State.desk (s : State) : Sound × FlashPort × StartPhase × TxnState × TxnTarget × FlashJob :=
  (s.sound, s.port, s.phase, s.txn.state, s.txn.target, s.job)

/-- A change after which the engine mode is still to be decided. -/
structure Calm (s t : State) : Prop where
  port : PortSound s → PortSound t
  tidy : PortSound s → Tidy s → Tidy t

/-- A change that keeps both invariants. -/
structure DeskStep (s t : State) : Prop extends Calm s t where
  mode : PortSound s → ModeFits s → ModeFits t

theorem Calm.trans {a b c : State} (h : Calm a b) (k : Calm b c) : Calm a c := ⟨k.port ∘ h.port, fun hs ht => k.tidy (h.port hs) (h.tidy hs ht)⟩

theorem Tidy.of_voices {s t : State} (h : t.sound.voices = s.sound.voices) (hs : Tidy s) : Tidy t :=
  hs.of_spans (congrArg List.length h) fun w => by
    unfold voice
    rw [h]

theorem ModeFits.of_eq {s t : State} (hmode : t.sound.mode = s.sound.mode) (hq : quietCause t = quietCause s)
    (h : ModeFits s) : ModeFits t := by
  unfold ModeFits
  rw [hmode, hq]
  exact h

theorem Calm.of_desk {s t : State} (h : t.desk = s.desk) : Calm s t := by
  obtain ⟨hsound, h⟩ := Prod.mk.inj h
  obtain ⟨hport, h⟩ := Prod.mk.inj h
  obtain ⟨hphase, h⟩ := Prod.mk.inj h
  obtain ⟨hstate, h⟩ := Prod.mk.inj h
  obtain ⟨htarget, hjob⟩ := Prod.mk.inj h
  exact ⟨fun k => k.of_same hport hphase (congrArg Sound.dirPending hsound) hjob hstate htarget,
    fun _ => Tidy.of_voices (congrArg Sound.voices hsound)⟩

theorem DeskStep.of_desk {s t : State} (h : t.desk = s.desk) (hsupply : t.supply.state = s.supply.state) :
    DeskStep s t := by
  refine ⟨.of_desk h, fun _ => ModeFits.of_eq (congrArg (fun d => d.1.mode) h) ?_⟩
  unfold quietCause
  have hq : ((s.txn.state != .closed && s.txn.target == .bank) || s.job != .none || s.sound.dirPending) =
      ((t.txn.state != .closed && t.txn.target == .bank) || t.job != .none || t.sound.dirPending) :=
    (congrArg (fun d : Sound × FlashPort × StartPhase × TxnState × TxnTarget × FlashJob =>
      (d.2.2.2.1 != .closed && d.2.2.2.2.1 == .bank) || d.2.2.2.2.2 != .none || d.1.dirPending) h).symm
  simp only [hsupply, Bool.or_assoc] at hq ⊢
  rw [hq]

theorem Calm.decided {s u : State} (h : Calm s u) : DeskStep s (updateMode u) := by
  obtain ⟨hmove, hfits, htidy⟩ := updateMode_move u
  exact ⟨⟨fun hs => (h.port hs).of_move hmove, fun hs => htidy ∘ h.tidy hs⟩, fun _ _ => hfits⟩

theorem Calm.supplied {s u : State} (h : Calm s u) : DeskStep s (soundSupplyChange u) := by
  obtain ⟨hmove, hfits, htidy⟩ := soundSupplyChange_move u
  exact ⟨⟨fun hs => (h.port hs).of_move hmove, fun hs => htidy ∘ h.tidy hs⟩, fun _ _ => hfits⟩

namespace DeskStep

theorem refl (s : State) : DeskStep s s := of_desk rfl rfl

theorem trans {a b c : State} (h : DeskStep a b) (k : DeskStep b c) : DeskStep a c :=
  ⟨h.toCalm.trans k.toCalm, fun ha hm => k.mode (h.port ha) (h.mode ha hm)⟩

/-- A step that is one of a sound Flash Port. -/
theorem of_sound {s t : State} (h : PortSound s → DeskStep s t) : DeskStep s t :=
  ⟨⟨fun hs => (h hs).port hs, fun hs => (h hs).tidy hs⟩, fun hs => (h hs).mode hs⟩

theorem of_tidyStep {s t : State} (h : TidyStep s t) : DeskStep s t :=
  ⟨⟨fun hs => hs.of_move h.toSoundMove, fun _ => h.tidy⟩, fun _ => ModeFits.of_step h.toSoundStep⟩

theorem of_offSmoke {s t : State} (h : t.offSmoke = s.offSmoke) : DeskStep s t :=
  of_desk (congrArg State.desk h :) (congrArg (fun u : State => u.supply.state) h :)

theorem of_core {s t : State} (h : t.core = s.core) : DeskStep s t :=
  of_desk (congrArg State.desk h :) (congrArg (fun u : State => u.supply.state) h :)

/-! ### The supply -/

theorem supplyEntry_desk (old new : SupplyState) (s : State) : (supplyEntry old new s).desk = s.desk := by
  unfold supplyEntry
  split
  · split <;> rfl
  · rfl
  · dsimp only
    split <;> rfl
  · rfl

theorem motorReacts_desk (old : SupplyState) (s : State) : (motorReacts old s).desk = s.desk := by
  have h : (if old = .track ∧ s.supply.state ≠ .track then abandonCheck s else s).desk = s.desk := by
    unfold abandonCheck
    split <;> [split; skip] <;> rfl
  unfold motorReacts
  generalize (if old = .track ∧ s.supply.state ≠ .track then abandonCheck s else s) = u at h ⊢
  dsimp only
  split <;> exact h

theorem smokeDecide_desk (s : State) : (smokeDecide s).desk = s.desk := (congrArg State.desk (smokeDecide_offSmoke s) :)

theorem changeSupply (n : SupplyState) (s : State) : DeskStep s (changeSupply n s) := by
  unfold Machine.changeSupply
  dsimp only
  split
  · exact refl s
  · rw [loadsReact_eq]
    exact (Calm.of_desk ((smokeDecide_desk _).trans ((motorReacts_desk _ _).trans (supplyEntry_desk _ _ s)))).supplied

theorem activity (s : State) : DeskStep s (activity s) := by
  unfold Machine.activity
  dsimp only
  split
  · refine trans ?_ (changeSupply _ _)
    exact of_desk rfl rfl
  · exact of_desk rfl rfl

theorem budgetPeriod (vt vs : Nat) (s : State) : DeskStep s (budgetPeriod vt vs s) := by
  have hhold (u : State) : DeskStep u (publishGrants (decideHold u)) := by
    unfold decideHold
    split <;> exact of_desk rfl rfl
  have hsensed : DeskStep s (senseSupply vt vs s) := of_desk rfl rfl
  exact (hsensed.trans (decideSupply_keeps refl trans changeSupply (fun _ _ => of_desk rfl rfl) _)).trans (hhold _)

theorem locoLaws : LocoLaws DeskStep where
  refl := refl
  trans := trans
  start c held s := of_tidyStep (startRequest_tidyStep c held s)
  trigger c s := of_tidyStep (triggerEnd_spanStep c s).tidyStep
  decide s := of_offSmoke (smokeDecide_offSmoke s)
  chuffed s := of_offSmoke (smokeChuff_offSmoke s)
  demand _ _ := of_desk rfl rfl
  holds _ _ := of_desk rfl rfl
  switches _ _ := of_desk rfl rfl
  turn d s := by
    unfold turned abandonCheck
    split <;> exact of_desk rfl rfl
  activity := activity

/-! ### The transaction and the jobs (R170 to R174) -/

theorem endTxn (s : State) : DeskStep s (endTxn s) :=
  Calm.decided ⟨fun h => ⟨h.waiting, h.startUp, h.loading, h.single, h.store, fun hc => absurd rfl hc⟩, fun _ => Tidy.of_voices rfl⟩

theorem requestFlash_sound (who : Requester) (op : FlashOp) (s : State) : (requestFlash who op s).sound = s.sound := by
  unfold requestFlash
  dsimp only
  split <;> rfl

theorem modeFits_requestFlash (who : Requester) (op : FlashOp) {s : State} (h : ModeFits s) :
    ModeFits (requestFlash who op s) := by
  have hoff := requestFlash_offSound who op s
  have hsupply : (requestFlash who op s).supply = s.supply := (congrArg State.supply hoff :)
  have htxn : (requestFlash who op s).txn = s.txn := (congrArg State.txn hoff :)
  have hjob : (requestFlash who op s).job = s.job := (congrArg State.job hoff :)
  refine h.of_eq (congrArg Sound.mode (requestFlash_sound who op s)) ?_
  unfold quietCause
  rw [hsupply, htxn, hjob, requestFlash_sound]

/-- A job of the Store begins after the start-up beside no other, and its request enters the Flash Port (R173, R174). -/
theorem beginJob {s u : State} (op : FlashOp) (hp : s.phase = .running) (hjob : PortSound s → s.job = .none)
    (hport : u.port = s.port) (hphase : u.phase = s.phase) (hpend : u.sound = s.sound) (hu : u.job = op.job)
    (hbank : u.txn.state ≠ .closed → u.job = .save) : DeskStep s (requestFlash .store op (updateMode u)) := by
  have hlive : liveRequests u = liveRequests s := by
    unfold liveRequests
    rw [hport]
  have hnone (hs : PortSound s) : ∀ r ∈ liveRequests u, r.who ≠ .store :=
    hlive ▸ hs.no_store (by rw [hjob hs]; nofun) (by rw [hjob hs]; nofun)
  have hcalm : Calm s u := by
    refine ⟨fun hs => ⟨hport ▸ hs.waiting, hphase ▸ hlive ▸ hs.startUp, hphase ▸ hpend ▸ hlive ▸ hs.loading, hlive ▸ hs.single,
      fun r hr hw => absurd hw (hnone hs r hr), fun hc _ => .inr (hbank hc)⟩, fun _ => Tidy.of_voices (congrArg Sound.voices hpend)⟩
  have hmode := hcalm.decided
  obtain ⟨hmove, hfits, -⟩ := updateMode_move u
  refine ⟨⟨fun hs => ?_, fun hs ht => ?_⟩, fun _ _ => modeFits_requestFlash _ _ hfits⟩
  · refine (hmode.port hs).request op nofun ?_ fun _ => ⟨fun r hr hw => ?_, ?_⟩
    · exact ((congrArg State.phase hmove.off :) : (updateMode u).phase = u.phase).trans (hphase.trans hp)
    · exact hnone hs r (mem_live_of_desk hmove.desk (FlashRequest.not_ofVoice fun v hv => by rw [hw] at hv; cases hv) hr) hw
    · exact ((congrArg State.job hmove.off :) : (updateMode u).job = u.job).trans hu
  · exact (hmode.tidy hs ht).of_voices (congrArg Sound.voices (requestFlash_sound _ _ _))

theorem closeBank {s : State} (hp : s.phase = .running) (hopen : s.txn.state ≠ .closed) (hbank : s.txn.target = .bank)
    (hsave : s.job ≠ .save) : DeskStep s (closeBank s) :=
  beginJob (.writePage s.txn.start (stagedBytes s)) hp
    (fun hs => (hs.bank hopen hbank).resolve_right hsave) rfl rfl rfl rfl fun hc => absurd rfl hc

theorem beginSave {s : State} (hp : s.phase = .running) (hj : s.job = .none) : DeskStep s (beginSave s) :=
  beginJob .eraseSettings hp (fun _ => hj) rfl rfl rfl rfl fun _ => rfl

/-! ### Operations that end (R175) -/

theorem portFreed (s : State) : DeskStep s (portFreed s) :=
  ⟨⟨PortSound.portFreed, fun _ => Tidy.of_voices rfl⟩, fun _ => ModeFits.of_eq rfl rfl⟩

theorem flashEffect_desk (op : FlashOp) (ok : Bool) (s : State) :
    (flashEffect op ok s).desk = s.desk ∧ (flashEffect op ok s).supply.state = s.supply.state ∧
      (flashEffect op ok s).port = s.port := by
  obtain ⟨fl, n, h⟩ := flashEffect_frame op ok s
  rw [h]
  exact ⟨rfl, rfl, rfl⟩

/-- A job of the Store that has just been served, so that no request of it is left. -/
structure Served (j : FlashJob) (u : State) : Prop where
  sound : PortSound u
  running : u.phase = .running
  job : u.job = j
  none : ∀ r ∈ liveRequests u, r.who ≠ .store

theorem served {s : State} {r : FlashRequest} {op : FlashOp} (ok : Bool) (hs : PortSound s)
    (hb : s.port.busy = some (r, false)) (hw : r.who = .store) (hop : r.op = op) :
    Served op.job (Machine.portFreed (flashEffect op ok s)) := by
  obtain ⟨hdesk, -, hport⟩ := flashEffect_desk op ok s
  have hu : PortSound (flashEffect op ok s) := (Calm.of_desk hdesk).port hs
  have hlive : r ∈ liveRequests s := by
    unfold liveRequests
    rw [hb]
    exact List.mem_append_right _ List.mem_cons_self
  have hphase : s.phase = .running := by
    cases hp : s.phase with
    | running => rfl
    | loading => exact absurd hw ((hs.loading hp).2 r hlive).2
  refine ⟨hu.portFreed, ?_, ?_, hu.no_store_waiting (hport ▸ hb) hw⟩
  · exact ((congrArg (fun d => d.2.2.1) hdesk :) : (flashEffect op ok s).phase = s.phase).trans hphase
  · exact ((congrArg (fun d => d.2.2.2.2.2) hdesk :) : (flashEffect op ok s).job = s.job).trans (hop ▸ hs.store_job hlive hw)

theorem endSave {u : State} (h : ∀ r ∈ liveRequests u, r.who ≠ .store) : DeskStep u (endSave u) :=
  Calm.decided ⟨fun hu => ⟨hu.waiting, hu.startUp, hu.loading, hu.single, fun r hr hw => absurd hw (h r hr), fun _ _ => .inl rfl⟩,
    fun _ => Tidy.of_voices rfl⟩

theorem requestDirectory {u : State} (hp : u.phase = .running) (hq : ModeFits u → u.sound.mode = .quiet) :
    DeskStep u (requestDirectory u) := by
  have hnot {P : Prop} (hl : u.phase = .loading) : P := by
    rw [hp] at hl
    cases hl
  refine ⟨⟨fun hu => ?_, fun _ => Tidy.of_voices ?_⟩, fun _ hm => ?_⟩
  · unfold Machine.requestDirectory
    exact PortSound.request (s := { u with sound := { u.sound with dirPending := true } })
      ⟨hu.waiting, hu.startUp, fun hl => hnot hl, hu.single, hu.store, hu.bank⟩ _ nofun hp nofun
  · refine (congrArg Sound.voices (requestFlash_sound .directory _ _)).trans ?_
    rfl
  · refine modeFits_requestFlash _ _ ?_
    unfold ModeFits
    rw [quietCause_iff]
    exact ⟨fun _ => .inr (.inr (.inr (.inr rfl))), fun _ => hq hm⟩

/-- A BANK job that goes on to its directory read (R174). -/
theorem bankRead {u : State} (h : Served .bank u) (fs : List FaultRecord) :
    DeskStep u { u with faults := fs, job := .bankRead } := by
  obtain ⟨hs, -, hj, hnone⟩ := h
  have hclosed (hc : u.txn.state ≠ .closed) (ht : u.txn.target = .bank) : False := by
    have hb := hs.bank hc ht
    rw [hj] at hb
    obtain hb | hb := hb <;> cases hb
  refine ⟨⟨fun hu => ⟨hu.waiting, hu.startUp, hu.loading, hu.single, fun r hr hw => absurd hw (hnone r hr),
    fun hc ht => (hclosed hc ht).elim⟩, fun _ => Tidy.of_voices rfl⟩, fun _ hm => ?_⟩
  unfold ModeFits at hm ⊢
  rw [quietCause_iff] at hm ⊢
  exact ⟨fun _ => .inr (.inr (.inr (.inl nofun))), fun _ => hm.2 (.inr (.inr (.inr (.inl (by rw [hj]; nofun)))))⟩

theorem pageWritten (ok : Bool) {u : State} (h : Served .bank u) : DeskStep u (pageWritten ok u) := by
  have hnext (fs : List FaultRecord) :
      DeskStep u (Machine.requestDirectory { u with faults := fs, job := .bankRead }) := by
    refine (bankRead h fs).trans (requestDirectory (by exact h.running) fun hm => ?_)
    exact hm.2 ((quietCause_iff _).2 (.inr (.inr (.inr (.inl nofun)))))
  cases ok with
  | true => exact hnext u.faults
  | false => exact hnext (reportFault .flashError false u).faults

theorem storeDone (ok d : Bool) (r : FlashRequest) (react : State → State) {s : State} (hb : s.port.busy = some (r, d))
    (hw : r.who = .store) (hr : StoreReacts ok r.op react) : DeskStep s (storeDone r.op d ok react s) := by
  have hfreed : DeskStep s (Machine.portFreed (flashEffect r.op ok s)) := by
    obtain ⟨hdesk, hsupply, -⟩ := flashEffect_desk r.op ok s
    exact (of_desk hdesk hsupply).trans (portFreed _)
  unfold Machine.storeDone
  dsimp only
  cases d with
  | true => exact hfreed
  | false =>
    rw [if_neg (by nofun)]
    refine of_sound fun hs => hfreed.trans ?_
    have hserved := served ok hs hb hw rfl
    have hfault (u : State) (hu : ∀ r ∈ liveRequests u, r.who ≠ .store) :
        DeskStep u (Machine.endSave (reportFault .flashError false u)) := by
      refine trans ?_ (endSave (by exact hu))
      exact of_desk rfl rfl
    generalize Machine.portFreed (flashEffect r.op ok s) = u at hserved ⊢
    obtain ⟨hop, rfl⟩ | ⟨⟨image, hop⟩, rfl⟩ | ⟨⟨page, bytes, hop⟩, rfl⟩ := hr
    · rw [hop] at hserved
      unfold eraseDone
      split
      · refine ⟨⟨fun hu => ?_, fun _ => Tidy.of_voices (congrArg Sound.voices (requestFlash_sound _ _ _))⟩,
          fun _ => modeFits_requestFlash _ _⟩
        exact hu.request _ nofun hserved.running fun _ => ⟨hserved.none, hserved.job⟩
      · exact hfault u hserved.none
    · unfold imageWritten
      split
      · refine trans ?_ (endSave (by exact hserved.none))
        exact of_desk rfl rfl
      · exact hfault u hserved.none
    · rw [hop] at hserved
      exact pageWritten ok hserved

/-! ### Reads that end (R113, R121) -/

theorem voiceReadDone (ok : Bool) (v addr len : Nat) (d : Bool) (s : State) :
    DeskStep s (voiceReadDone v addr len d ok s) := by
  have hspent : DeskStep s (if flashEnd < addr + len then spendFree s else s) := by
    split <;> exact of_desk rfl rfl
  have hfreed := hspent.trans (portFreed _)
  unfold Machine.voiceReadDone
  generalize Machine.portFreed (if flashEnd < addr + len then spendFree s else s) = u at hfreed
  dsimp only
  split
  · exact hfreed
  · split
    · refine hfreed.trans (trans ?_ (of_tidyStep (cueEnd_done v _).tidyStep))
      exact of_desk rfl rfl
    · refine hfreed.trans (trans ?_ (of_tidyStep (voiceDataArrived_tidyStep v _)))
      exact of_desk rfl rfl

/-- The directory read is in progress only after the start-up (R113, R178). -/
theorem directory_running {s : State} (hs : PortSound s) {r : FlashRequest} (hb : s.port.busy = some (r, false))
    (hw : r.who = .directory) : s.phase = .running := by
  have hlive : r ∈ liveRequests s := by
    unfold liveRequests
    rw [hb]
    exact List.mem_append_right _ List.mem_cons_self
  cases hp : s.phase with
  | running => rfl
  | loading => exact absurd hw ((hs.loading hp).2 r hlive).1

/-- The directory copy, the rotation and the resident clips are replaced, and a BANK job is over (R113, R174). -/
theorem directoryCopied {u : State} (hp : u.phase = .running) (fs : List FaultRecord) (clips : List Clip)
    (rot : List Byte) :
    Calm u { u with
      faults := fs
      job := if u.job = .bankRead then .none else u.job
      sound := { u.sound with
        directory := clips, rotation := rot, dirPending := false
        voices := u.sound.voices.map (fun vo => { vo with resident := none }) } } := by
  refine ⟨fun hu => ⟨hu.waiting, hu.startUp, fun hl => ?_, hu.single, fun r hr hw => ?_, fun hc ht => ?_⟩, fun _ => ?_⟩
  · have hl : u.phase = .loading := hl
    rw [hp] at hl
    cases hl
  · have hj := hu.store r hr hw
    dsimp only
    rw [if_neg ?_, hj]
    rw [hj]
    split <;> nofun
  · dsimp only
    split
    · exact .inl rfl
    · exact hu.bank hc ht
  · exact Tidy.of_spans (List.length_map ..) (span_of_map rfl fun _ => rfl)

theorem directoryReadDone (ok : Bool) {r : FlashRequest} {s : State} (hb : s.port.busy = some (r, false))
    (hw : r.who = .directory) : DeskStep s (directoryReadDone ok s) := by
  refine of_sound fun hs => ?_
  have hp := directory_running hs hb hw
  unfold Machine.directoryReadDone
  dsimp only
  generalize (if ok = true then parseDirectory (flashBytes s 4096 1284) else none) = parsed
  refine ((portFreed s).toCalm.trans ?_).decided
  cases parsed with
  | none => exact directoryCopied (u := Machine.portFreed s) hp _ [] [0, 0, 0]
  | some clips => exact directoryCopied (u := Machine.portFreed s) hp _ clips [0, 0, 0]

/-! ### The resets and the start-up (R178) -/

theorem voice_resetSound (s : State) (h : s.sound = resetSound) (v : Nat) : voice s v = resetVoice := by
  have hvoices : s.sound.voices = List.replicate 6 resetVoice := congrArg Sound.voices h
  unfold voice
  rw [hvoices, List.getD_eq_getElem?_getD, List.getElem?_replicate]
  split <;> rfl

/-- A reset leaves the Flash Port with the start-up read alone (R175, R178). -/
theorem portSound_reset {t : State} (now : Time) (p : FlashPort) (hport : t.port = resetFlashPort now p)
    (hphase : t.phase = .loading) (hsound : t.sound = resetSound) (htxn : t.txn = resetTxn) : PortSound t := by
  have hlive : ∀ r ∈ liveRequests t, r.who = .startUp := by
    intro r hr
    unfold liveRequests resetFlashPort at *
    rw [hport] at hr
    cases hb : p.busy <;> simp [hb] at hr
    subst hr
    rfl
  have hdirectory : ∀ r ∈ liveRequests t, r.who ≠ .directory := fun r hr hw => by
    rw [hlive r hr] at hw
    cases hw
  have hstore : ∀ r ∈ liveRequests t, r.who ≠ .store := fun r hr hw => by
    rw [hlive r hr] at hw
    cases hw
  refine ⟨fun r hr => ?_, fun _ _ _ => hphase, fun _ => ⟨?_, fun r hr => ⟨hdirectory r hr, hstore r hr⟩⟩, ?_,
    fun r hr hw => absurd hw (hstore r hr), fun hc => ?_⟩
  · rw [hport] at hr
    cases hr
  · rw [hsound]
    rfl
  · rw [List.filter_eq_nil_iff.2 fun r hr => by simpa using hstore r hr]
    exact Nat.zero_le _
  · rw [htxn] at hc
    exact absurd rfl hc

/-- After a reset the six voices are IDLE and the engine is QUIET (R120, R130). -/
theorem voices_reset {t : State} (hsound : t.sound = resetSound) : Tidy t ∧ ModeFits t := by
  refine ⟨⟨by rw [hsound]; rfl, fun w _ => ?_, fun v w p q _ hp => ?_⟩, ?_⟩
  · rw [voice_resetSound t hsound]
    rfl
  · rw [voice_resetSound t hsound] at hp
    cases hp
  · unfold ModeFits
    rw [quietCause_iff, hsound]
    exact ⟨fun _ => .inr (.inr (.inr (.inr rfl))), fun _ => rfl⟩

theorem reset {s t : State} (now : Time) (p : FlashPort) (hport : t.port = resetFlashPort now p) (hphase : t.phase = .loading)
    (hsound : t.sound = resetSound) (htxn : t.txn = resetTxn) : DeskStep s t :=
  ⟨⟨fun _ => portSound_reset now p hport hphase hsound htxn, fun _ _ => (voices_reset hsound).1⟩,
    fun _ _ => (voices_reset hsound).2⟩

theorem startUpDone (ok : Bool) (vt vs : Nat) {r : FlashRequest} {s : State} (hb : s.port.busy = some (r, false))
    (hw : r.who = .startUp) : DeskStep s (startUpDone ok vt vs s) := by
  refine of_sound fun hs => ?_
  have hlive : liveRequests s = s.port.waiting ++ [r] := by
    unfold liveRequests
    rw [hb]
  have hp : s.phase = .loading := hs.startUp r (hlive ▸ List.mem_append_right _ List.mem_cons_self) hw
  have hpend : s.sound.dirPending = true := (hs.loading hp).1
  have hloaded : (Machine.portFreed (endReset (loadSettings ok s))).desk =
      (s.sound, { s.port with busy := none }, .running, s.txn.state, s.txn.target, s.job) := by
    unfold loadSettings
    dsimp only
    generalize checkedImage _ _ = img
    generalize (ok && imageValid (flashBytes s 0 778)) = valid
    split <;> split <;> rfl
  have hstarted (u : State) : (supplyStart vt vs u).desk = u.desk := by
    unfold supplyStart
    dsimp only
    refine (smokeDecide_desk _).trans ?_
    split <;> rfl
  have hdesk := (hstarted _).trans hloaded
  unfold Machine.startUpDone
  generalize supplyStart vt vs (Machine.portFreed (endReset (loadSettings ok s))) = u at hdesk ⊢
  obtain ⟨hsound, h⟩ := Prod.mk.inj hdesk
  obtain ⟨hport, h⟩ := Prod.mk.inj h
  obtain ⟨hphase, h⟩ := Prod.mk.inj h
  obtain ⟨hstate, h⟩ := Prod.mk.inj h
  obtain ⟨htarget, hjob⟩ := Prod.mk.inj h
  have hulive : liveRequests u = s.port.waiting := by
    unfold liveRequests
    rw [hport]
    exact List.append_nil _
  have hquiet (hm : ModeFits s) : u.sound.mode = .quiet := by
    rw [hsound]
    exact hm.2 ((quietCause_iff s).2 (.inr (.inr (.inr (.inr hpend)))))
  have hu : DeskStep s u := by
    refine ⟨⟨fun _ => ⟨?_, fun r hr h => ?_, fun hl => ?_, ?_, fun r hr h => ?_, ?_⟩,
      fun _ => Tidy.of_voices (congrArg Sound.voices hsound)⟩, fun _ hm => ?_⟩
    · rw [hport]
      exact hs.waiting
    · rw [hulive] at hr
      exact absurd h (hs.waiting r hr)
    · rw [hphase] at hl
      cases hl
    · rw [hulive]
      refine le_trans ?_ hs.single
      rw [hlive, List.filter_append, List.length_append]
      exact Nat.le_add_right _ _
    · rw [hulive] at hr
      rw [hjob]
      exact hs.store r (waiting_live hr) h
    · rw [hstate, htarget, hjob]
      exact hs.bank
    · refine ⟨fun _ => (quietCause_iff u).2 (.inr (.inr (.inr (.inr ?_)))), fun _ => hquiet hm⟩
      rw [hsound, hpend]
  refine hu.trans (requestDirectory hphase fun hm => hm.2 ((quietCause_iff u).2 (.inr (.inr (.inr (.inr ?_))))))
  rw [hsound, hpend]

/-! ### Every effect -/

theorem coreLaws : CoreLaws DeskStep where
  toTableLaws := locoLaws.tableLaws (fun _ _ _ _ _ => of_desk rfl rfl) endTxn
  toMotionLaws := locoLaws.motionLaws
  side := of_core
  powerOn s := reset 0 s.port rfl rfl rfl rfl
  softReset s := reset s.partTime s.port rfl rfl rfl rfl
  freed _ s _ := portFreed s
  consist addr pos flags mask src s _ _ := locoLaws.consistRequest (fun _ _ _ _ => of_desk rfl rfl) addr pos flags mask src s
  learnt _ := of_desk rfl rfl
  applied s _ _ _ :=
    locoLaws.applySettings (locoLaws.tableLaws (fun _ _ _ _ _ => of_desk rfl rfl) endTxn)
      (fun _ _ _ _ => of_desk rfl rfl) (fun _ _ => of_desk rfl rfl) (fun _ _ => of_desk rfl rfl)
      (fun old u => by unfold chuffSourceChanged; split <;> exact of_desk rfl rfl) (fun _ => of_desk rfl rfl)
      (fun c u => of_tidyStep (ambientChanged_tidyStep c u)) _ _ s
  staged x s hstate htarget := by
    refine of_desk ?_ rfl
    unfold State.desk
    rw [hstate, htarget]
  openTxn x s hj := Calm.decided
    ⟨fun hs => ⟨hs.waiting, hs.startUp, hs.loading, hs.single, hs.store, fun _ _ => .inl hj⟩, fun _ => Tidy.of_voices rfl⟩
  closeBank _ hp hopen hbank hsave := closeBank hp hopen hbank hsave
  beginSave _ hp hj := beginSave hp hj
  store ok r d react _ hb hw hr := storeDone ok d r react hb hw hr
  check s := by
    unfold checkTaken
    split
    · exact refl s
    · split <;> exact of_desk rfl rfl
  cleared s := by
    refine trans ?_ (of_offSmoke (smokeCleared_offSmoke _))
    exact of_desk rfl rfl
  short c s := by
    unfold shortSensed
    split
    · split
      · exact of_desk rfl rfl
      · split
        · exact refl s
        · exact of_desk rfl rfl
    · exact refl s
  retry s := by
    unfold faultRetried
    split
    · exact locoLaws.ite (of_desk rfl rfl)
    · exact refl s
  camInput l s := by
    unfold camInput
    split <;> exact of_desk rfl rfl
  camChuff s := by
    unfold camChuffed
    refine locoLaws.ite (trans ?_ (locoLaws.chuff _))
    exact of_desk rfl rfl
  budget := budgetPeriod
  sample s := of_tidyStep (sampleEvent_tidyStep s)
  volume n s := of_tidyStep (SpanStep.tidyStep ⟨⟨⟨rfl, rfl, rfl, rfl⟩, rfl⟩, fun _ => rfl⟩)
  envelope v s _ := of_tidyStep (envelopeStep_tidyStep v s)
  voiceRead ok v addr len _ d s _ _ := voiceReadDone ok v addr len d s
  directory ok _ _ hb hw := directoryReadDone ok hb hw
  flashStart s := ⟨⟨PortSound.startFlashRequest, fun _ => by
    unfold startFlashRequest
    split
    · exact id
    · split <;> exact Tidy.of_voices rfl⟩, fun _ => by
    unfold startFlashRequest
    split
    · exact id
    · split <;> exact ModeFits.of_eq rfl rfl⟩
  smoke t s := of_offSmoke (smokePeriod_offSmoke t s)
  puff s := of_offSmoke (puffEnds_offSmoke s)
  fan s := of_offSmoke (fanStops_offSmoke s)

theorem effect {s t : State} (h : Effect s t) : DeskStep s t := by
  obtain h | ⟨c, m, -, rfl⟩ | ⟨ok, vt, vs, r, hb, hw, rfl⟩ := coreLaws.effect h
  · exact h
  · exact locoLaws.controlPeriod (fun _ _ => of_desk rfl rfl) (fun _ _ => of_desk rfl rfl) (fun _ _ => of_desk rfl rfl) c m s
  · exact startUpDone ok vt vs hb hw

theorem step {s t : State} (h : Machine.step s = .next t) : DeskStep s t := by
  obtain ⟨-, rfl⟩ | ⟨rest, he⟩ := step_effect h
  · unfold tick
    dsimp only
    split <;> exact of_desk rfl rfl
  · refine trans ?_ (effect he)
    exact of_desk rfl rfl

end DeskStep

/-- Settles O9: no command but the Store's own gives it a request, and a voice starts only on a partition that fits. -/
theorem stepKeepsVoicesSound : Obligations.StepKeepsVoicesSound := by
  unfold Obligations.StepKeepsVoicesSound
  refine ⟨fun s t hs h => (DeskStep.step h).port hs, fun s t hv hs h => ?_⟩
  obtain ⟨htidy, hmode⟩ := (voicesSound_iff s).1 hv
  exact (voicesSound_iff t).2 ⟨(DeskStep.step h).tidy hs htidy, (DeskStep.step h).mode hs hmode⟩

end Sys2Proof.Machine
end

section
/-! The hold list, BEACON holds by position, and the pending reversal under every step (R25, R27 to R30, R41). Settles
O7. -/

namespace Sys2Proof.Machine

/-! ### What the Motion Controller's invariant reads -/

/-- What the Motion Controller's invariant reads of a state. -/
def State.course (s : State) : List Hold × List Byte × Dir × Dir × Bool × StartPhase :=
  (s.holds, s.settings, s.demand.commanded, s.demand.applied, s.demand.pending, s.phase)

/-- A BEACON hold's origin fits a position that is MID or TRAIL, or another (R41). -/
def Hold.Fits (member : Prop) (h : Hold) : Prop :=
  h.source = .beacon → (h.origin = some .own → ¬ member) ∧ (h.origin = some .consist → member)

/-- The hold list holds one entry of a source, and its BEACON entry fits the position (R29, R30, R41). -/
structure HoldsFit (s : State) : Prop where
  distinct : HoldsDistinct s
  fits : ∀ h ∈ s.holds, h.Fits (IsMember s)

/-- A reversal is pending just while the wanted and the applied direction differ (R27, R28). -/
def DirFits (s : State) : Prop := s.demand.pending = true ↔ wantedDir s ≠ s.demand.applied

/-- Before the start-up has ended no reversal is pending and no BEACON hold stands. -/
def FreshWhileLoading (s : State) : Prop :=
  s.phase = .loading → s.demand.pending = false ∧ ∀ h ∈ s.holds, h.source ≠ .beacon

theorem motionSound_iff (s : State) : MotionSound s ↔ HoldsFit s ∧ DirFits s ∧ FreshWhileLoading s :=
  ⟨fun h => ⟨⟨h.distinct, fun x hx hb => ⟨h.own x hx hb, h.consist x hx hb⟩⟩, h.direction, h.loading⟩,
    fun ⟨h, hd, hl⟩ => ⟨h.distinct, fun x hx hb => (h.fits x hx hb).1, fun x hx hb => (h.fits x hx hb).2, hd, hl⟩⟩

theorem FreshWhileLoading.of_running {s : State} (h : s.phase = .running) : FreshWhileLoading s := fun hl => by
  rw [h] at hl
  cases hl

/-- The position and the reversed flag are read off the settings (R74). -/
theorem isMember_of_settings {s t : State} (h : t.settings = s.settings) : IsMember t = IsMember s := by
  unfold IsMember consistPosition set8
  rw [h]

theorem wantedDir_of_eq {s t : State} (hr : consistReversed t = consistReversed s)
    (hc : t.demand.commanded = s.demand.commanded) : wantedDir t = wantedDir s := by
  unfold wantedDir
  rw [hr, hc]

theorem consistReversed_of_settings {s t : State} (h : t.settings = s.settings) : consistReversed t = consistReversed s := by
  unfold consistReversed set8
  rw [h]

theorem HoldsFit.of_same {s t : State} (h : HoldsFit s) (hh : t.holds = s.holds) (hset : t.settings = s.settings) :
    HoldsFit t := by
  refine ⟨?_, ?_⟩
  · unfold HoldsDistinct
    rw [hh]
    exact h.distinct
  · rw [hh, isMember_of_settings hset]
    exact h.fits

/-- A change after which the invariant stands, once the settings hold a consist record. -/
structure Steer (s t : State) : Prop where
  record : 10 ≤ s.settings.length → 10 ≤ t.settings.length
  sound : 10 ≤ s.settings.length → MotionSound s → MotionSound t

namespace Steer

theorem of_sound {s t : State} (hset : t.settings = s.settings) (h : MotionSound s → MotionSound t) : Steer s t :=
  ⟨fun hr => by rw [hset]; exact hr, fun _ => h⟩

theorem of_course {s t : State} (h : t.course = s.course) : Steer s t := by
  obtain ⟨hh, h⟩ := Prod.mk.inj h
  obtain ⟨hset, h⟩ := Prod.mk.inj h
  obtain ⟨hc, h⟩ := Prod.mk.inj h
  obtain ⟨ha, h⟩ := Prod.mk.inj h
  obtain ⟨hp, hphase⟩ := Prod.mk.inj h
  refine of_sound hset fun hs => (motionSound_iff t).2 ?_
  have hw := wantedDir_of_eq (consistReversed_of_settings hset) hc
  have hm := isMember_of_settings hset
  obtain ⟨⟨hd, hf⟩, hdir, hl⟩ := (motionSound_iff s).1 hs
  refine ⟨⟨?_, ?_⟩, ?_, ?_⟩
  · unfold HoldsDistinct
    rw [hh]
    exact hd
  · rw [hh, hm]
    exact hf
  · unfold DirFits
    rw [hp, hw, ha]
    exact hdir
  · unfold FreshWhileLoading
    rw [hphase, hp, hh]
    exact hl

/-- A change that may be judged in a state that is sound. -/
theorem of_motion {s t : State} (hset : t.settings = s.settings) (h : MotionSound s → Steer s t) : Steer s t :=
  ⟨fun hr => by rw [hset]; exact hr, fun hr hs => (h hs).sound hr hs⟩

theorem refl (s : State) : Steer s s := of_course rfl

theorem trans {a b c : State} (h : Steer a b) (k : Steer b c) : Steer a c :=
  ⟨k.record ∘ h.record, fun hr hs => k.sound (h.record hr) (h.sound hr hs)⟩

theorem ite {p : Prop} [Decidable p] {s t : State} (h : Steer s t) : Steer s (if p then t else s) := by
  split
  · exact h
  · exact refl s

theorem of_offSound {s t : State} (h : t.offSound = s.offSound) : Steer s t := of_course (congrArg State.course h :)

theorem of_offLoads {s t : State} (h : t.offLoads = s.offLoads) : Steer s t := of_course (congrArg State.course h :)

theorem of_offSmoke {s t : State} (h : t.offSmoke = s.offSmoke) : Steer s t := of_course (congrArg State.course h :)

theorem of_body {s t : State} (h : t.body = s.body) : Steer s t := of_course (congrArg State.course h :)

/-! ### The hold list (R30) -/

theorem installHold {h : Hold} {s : State} (hb : h.source = .beacon → s.phase = .running) (hf : h.Fits (IsMember s)) :
    Steer s (installHold h s) := by
  refine of_sound rfl fun hs => (motionSound_iff _).2 ?_
  obtain ⟨⟨hd, hfits⟩, hdir, hl⟩ := (motionSound_iff s).1 hs
  refine ⟨⟨insertHold_nodup _ _ hd, fun x hx => ?_⟩, hdir, fun hload => ⟨(hl hload).1, fun x hx => ?_⟩⟩
  · obtain rfl | hx := mem_insertHold hx
    · exact hf
    · exact hfits x hx
  · obtain rfl | hx := mem_insertHold hx
    · exact fun hsrc => absurd ((hb hsrc).symm.trans hload) nofun
    · exact (hl hload).2 x hx

theorem installOther {h : Hold} (hb : h.source ≠ .beacon) (s : State) : Steer s (Machine.installHold h s) :=
  installHold (fun h => absurd h hb) fun h => absurd h hb

theorem holdsFit_filter {s : State} (p : Hold → Bool) (h : HoldsFit s) : HoldsFit { s with holds := s.holds.filter p } :=
  ⟨filter_sources_nodup _ _ h.distinct, fun x hx => h.fits x (List.mem_filter.1 hx).1⟩

theorem installPlain {src : HoldSource} (hb : src ≠ .beacon) (d : Decel) (s : State) :
    Steer s (Machine.installHold (plainStop src d) s) := installOther hb s

theorem removeHold (src : HoldSource) (s : State) : Steer s (removeHold src s) := by
  refine of_sound rfl fun hs => (motionSound_iff _).2 ?_
  obtain ⟨hf, hdir, hl⟩ := (motionSound_iff s).1 hs
  exact ⟨holdsFit_filter _ hf, hdir,
    fun hload => ⟨(hl hload).1, fun x hx => (hl hload).2 x (List.mem_filter.1 hx).1⟩⟩

/-- The BEACON entry takes a new record of the same origin (R39). -/
theorem mapBeacon {h : Hold} {s : State} (hb : h.source = .beacon) (hf : h.Fits (IsMember s)) :
    Steer s { s with holds := s.holds.map (fun x => if x.source = .beacon then h else x) } := by
  refine of_sound rfl fun hs => (motionSound_iff _).2 ?_
  obtain ⟨⟨hd, hfits⟩, hdir, hl⟩ := (motionSound_iff s).1 hs
  have hsource (x : Hold) : (if x.source = .beacon then h else x).source = x.source := by
    split
    next hx => rw [hb, hx]
    next => rfl
  refine ⟨⟨?_, fun x hx => ?_⟩, hdir, fun hload => ⟨(hl hload).1, fun x hx => ?_⟩⟩
  · unfold HoldsDistinct
    rw [List.map_map]
    have hmap : (Hold.source ∘ fun x : Hold => if x.source = .beacon then h else x) = Hold.source := funext hsource
    rw [hmap]
    exact hd
  · obtain ⟨y, hy, rfl⟩ := List.mem_map.1 hx
    split
    · exact hf
    · exact hfits y hy
  · obtain ⟨y, hy, rfl⟩ := List.mem_map.1 hx
    rw [hsource]
    exact (hl hload).2 y hy

theorem findHold_spec {s : State} {h : Hold} {src : HoldSource} (hf : findHold s src = some h) :
    h ∈ s.holds ∧ h.source = src :=
  ⟨List.mem_of_find?_eq_some hf, beq_iff_eq.1 (List.find?_some hf :)⟩

/-! ### Directions (R27, R28) -/

/-- A comparison of the directions leaves them fitting, whatever they were before. -/
theorem reconciled {s u : State} (h : Reconciled s u) (hphase : u.phase = .running) (hf : HoldsFit s) : MotionSound u := by
  refine (motionSound_iff u).2 ⟨⟨?_, ?_⟩, ?_, .of_running hphase⟩
  · unfold HoldsDistinct
    rw [h.holds]
    exact hf.distinct
  · rw [h.holds, isMember_of_settings h.settings]
    exact hf.fits
  · unfold DirFits
    rw [h.wantedDir_eq]
    exact h.pending

theorem reconcile (agreed : Bool) {s : State} (hp : s.phase = .running) (hf : HoldsFit s) :
    MotionSound (reconcile agreed s) :=
  reconciled (reconcile_reconciled agreed s) ((locoPhase.reconcile agreed s).trans hp) hf

theorem driveStored (step : Nat) (d : Dir) (src : Source) {s : State} (hp : s.phase = .running) :
    Steer s (driveStored step d src s) := by
  have hrec := driveStored_reconciled step d src s
  refine of_sound hrec.settings fun hs => reconciled hrec ((locoPhase.driveStored step d src s).trans hp) ?_
  have hfit := ((motionSound_iff s).1 hs).1
  refine HoldsFit.of_same (s := { s with holds := (driveWritten step d src s).holds }) ?_ rfl rfl
  unfold driveWritten
  dsimp only
  split
  · exact holdsFit_filter _ hfit
  · exact hfit

theorem featureEvents_course (old s : State) : (featureEvents old s).course = s.course := by
  have hbraked : (braked old s).course = s.course := by
    unfold braked
    split <;> rfl
  exact ((congrArg State.course (featureEvents_offLoads old s) :) : _ = (braked old s).course).trans hbraked

theorem featureEvents (old s : State) : Steer s (featureEvents old s) := of_course (featureEvents_course old s)

/-- A flip to the wanted direction ends the reversal that was pending (R28). -/
theorem completeReversal (s : State) : Steer s (completeReversal s) := by
  unfold Machine.completeReversal
  refine ite ?_
  rw [flipApplied_eq]
  refine trans ?_ (featureEvents s _)
  obtain ⟨m, hm, -⟩ := turned_eq (wantedDir s) s
  rw [hm]
  refine of_sound rfl fun hs => (motionSound_iff _).2 ?_
  obtain ⟨hf, -, hl⟩ := (motionSound_iff s).1 hs
  exact ⟨hf.of_same rfl rfl, ⟨nofun, fun h => absurd rfl h⟩, fun hload => ⟨rfl, (hl hload).2⟩⟩

/-! ### Targeted stops and caps (R38 to R40) -/

theorem dwellEnds (s : State) : Steer s (dwellEnds s) := by
  unfold Machine.dwellEnds
  split
  next h hfound =>
    dsimp only
    split
    · obtain ⟨hmem, hb⟩ := findHold_spec hfound
      refine of_sound (reconcile_reconciled _ _).settings fun hs => ?_
      obtain ⟨hf, -, hl⟩ := (motionSound_iff s).1 hs
      have hgone : HoldsFit (Machine.removeHold .beacon s) := holdsFit_filter _ hf
      refine reconcile _ ?_ (hgone.of_same rfl rfl)
      cases hp : s.phase with
      | running => exact hp
      | loading => exact absurd hb ((hl hp).2 h hmem)
    · exact removeHold .beacon s
  · exact refl s

theorem enterDwell {h : Hold} {s : State} (hb : h.source = .beacon) (hf : h.Fits (IsMember s)) :
    Steer s (enterDwell h s) := by
  have hentered := mapBeacon (s := s) (h := { h with phase := some .dwell, expiry := dwellExpiry s.partTime h.dwell }) hb hf
  unfold Machine.enterDwell
  dsimp only
  split
  · exact hentered.trans (dwellEnds _)
  · exact hentered

/-- The locomotive's blocks leave the settings alone. -/
theorem locoSettings : LocoLaws (fun s t => t.settings = s.settings) :=
  .of_offLoco (fun h => (congrArg State.settings h :)) fun h h' => h'.trans h

theorem beginDwell (s : State) : Steer s (beginDwell s) := by
  refine of_motion (locoSettings.beginDwell s) fun hs => ?_
  unfold Machine.beginDwell
  split
  next h hfound =>
    obtain ⟨hmem, hb⟩ := findHold_spec hfound
    exact ite (enterDwell hb (((motionSound_iff s).1 hs).1.fits h hmem))
  next => exact refl s

theorem expireCap (s : State) : Steer s (expireCap s) := by
  unfold Machine.expireCap
  split
  · exact ite (removeHold .beacon s)
  · exact refl s

theorem dwellReached (s : State) : Steer s (dwellReached s) := by
  unfold Machine.dwellReached
  split
  · exact ite (dwellEnds s)
  · exact refl s

theorem originTaken_own (s : State) : originTaken s .own = true ↔ ¬ IsMember s := by
  unfold originTaken IsMember
  simp

theorem originTaken_consist (s : State) : originTaken s .consist = true ↔ IsMember s := by
  unfold originTaken IsMember
  simp

/-- A hold of an origin that is taken fits the position (R41). -/
theorem fits_of_originTaken {s : State} {o : Origin} {h : Hold} (ho : h.origin = some o) (ht : originTaken s o = true) :
    h.Fits (IsMember s) := by
  unfold Hold.Fits
  rw [ho]
  cases o with
  | own => exact fun _ => ⟨fun _ => (originTaken_own s).1 ht, nofun⟩
  | consist => exact fun _ => ⟨nofun, fun _ => (originTaken_consist s).1 ht⟩

theorem installStop (decel : Decel) (dwell : Option Nat) (rev : Bool) (o : Origin) {s : State} (hp : s.phase = .running) :
    Steer s (installStop decel dwell rev o s) := by
  unfold Machine.installStop
  dsimp only
  split
  next ht =>
    have hset := installHold (s := s) (fun _ => hp) (fits_of_originTaken (h :=
      { source := .beacon, kind := .stop, capValue := 0, decel := decel, expiry := .absent, phase := some .approach,
        dwell := dwell, reverseAtEnd := rev, origin := some o, created := s.partTime }) rfl ht)
    split
    · exact hset.trans (enterDwell rfl (fits_of_originTaken rfl ht))
    · exact hset
  next => exact refl s

theorem installCap (value limit : Nat) (o : Origin) {s : State} (hp : s.phase = .running) :
    Steer s (installCap value limit o s) := by
  unfold Machine.installCap
  split
  next ht => exact installHold (fun _ => hp) (fits_of_originTaken rfl ht)
  next => exact refl s

theorem stopTaken (src : Option Source) (s : State) : Steer s (stopTaken src s) := by
  unfold Machine.stopTaken
  split
  · exact installPlain (src := .localMaster) nofun _ s
  · exact installPlain (src := .emergency) nofun _ s

theorem resume (a : Asked) (s : State) : Steer s (actResume a s).2 := by
  have hfold (l : List HoldSource) (u : State) : Steer u (l.foldl (fun s x => Machine.removeHold x s) u) := by
    induction l generalizing u with
    | nil => exact refl u
    | cons x l ih => exact (removeHold x u).trans (ih _)
  unfold actResume
  split
  · exact hfold _ s
  · exact refl s

/-! ### A new consist record (R41, R75, R78) -/

/-- The BEACON entry is the only one of its source. -/
theorem beacon_unique {s : State} (hd : HoldsDistinct s) {h x : Hold} (hh : h ∈ s.holds) (hx : x ∈ s.holds)
    (hb : h.source = .beacon) (hxb : x.source = .beacon) : x = h :=
  List.inj_on_of_nodup_map hd hx hh (hxb.trans hb.symm)

/-- A BEACON entry that a new record no longer allows (R41, R78). -/
def beaconGone (old s : State) (h : Hold) : Bool :=
  match h.origin with
  | some .consist => !originTaken s .consist || consistAddress s != consistAddress old
  | _ => !originTaken s .own

/-- The hold list under a new record (R41, R78). -/
def beaconKept (old s : State) : State :=
  match findHold s .beacon with
  | some h => if beaconGone old s h then Machine.removeHold .beacon s else s
  | none => s

theorem consistTold_eq (old s : State) : consistTold old s =
    if consistReversed s = consistReversed old then beaconKept old s
    else Machine.reconcile (dirAgrees old) (beaconKept old s) := rfl

theorem beaconKept_frame (old s : State) : ∃ l, beaconKept old s = { s with holds := l } := by
  unfold beaconKept
  split
  · split
    · exact ⟨_, rfl⟩
    · exact ⟨s.holds, rfl⟩
  · exact ⟨s.holds, rfl⟩

theorem fits_of_not_gone {old s : State} {h : Hold} (hg : beaconGone old s h = false) : h.Fits (IsMember s) := by
  intro _
  unfold beaconGone at hg
  split at hg
  next ho =>
    obtain ⟨hg, -⟩ := Bool.or_eq_false_iff.1 hg
    rw [ho]
    exact ⟨nofun, fun _ => (originTaken_consist s).1 (by simpa using hg)⟩
  next ho =>
    exact ⟨fun _ => (originTaken_own s).1 (by simpa using hg), fun hc => absurd hc ho⟩

theorem holdsFit_beaconKept (old : State) {s : State} (hd : HoldsDistinct s) : HoldsFit (beaconKept old s) := by
  unfold beaconKept
  split
  next h hfound =>
    obtain ⟨hmem, hb⟩ := findHold_spec hfound
    split
    next =>
      refine ⟨filter_sources_nodup _ _ hd, fun x hx hxb => ?_⟩
      have hne := (List.mem_filter.1 hx).2
      rw [hxb] at hne
      cases hne
    next hg =>
      refine ⟨hd, fun x hx hxb => ?_⟩
      rw [beacon_unique hd hmem hx hb hxb]
      exact fits_of_not_gone (Bool.eq_false_iff.2 hg) hb
  next hnone =>
    refine ⟨hd, fun x hx hxb => ?_⟩
    have hx := List.find?_eq_none.1 hnone x hx
    rw [hxb] at hx
    exact absurd rfl hx

/-- The Motion Controller is told of a new record: its holds and its direction fit it, whatever the record was (R27, R41,
R78). -/
theorem consistTold {old s : State} (hp : s.phase = .running) (hd : HoldsDistinct s)
    (hdir : s.demand.pending = true ↔ wantedDir old ≠ s.demand.applied)
    (hc : s.demand.commanded = old.demand.commanded) : MotionSound (consistTold old s) := by
  have hfit := holdsFit_beaconKept old hd
  rw [consistTold_eq]
  obtain ⟨l, hl⟩ := beaconKept_frame old s
  rw [hl] at hfit ⊢
  split
  next hrev =>
    refine (motionSound_iff _).2 ⟨hfit, ?_, .of_running hp⟩
    have hw : wantedDir { s with holds := l } = wantedDir old := wantedDir_of_eq hrev hc
    unfold DirFits
    rw [hw]
    exact hdir
  next => exact reconcile _ hp hfit

theorem length_le_overlay (base bs : List Byte) (start : Nat) : base.length ≤ (overlay base start bs).length := by
  simp only [overlay, List.length_append, List.length_take, List.length_drop]
  omega

theorem consistRequest (addr pos flags : Nat) (mask : List Byte) (src : Source) {s : State} (hp : s.phase = .running) :
    Steer s (consistRequest addr pos flags mask src s).2 := by
  unfold Machine.consistRequest
  split
  · exact refl s
  · split
    · exact refl s
    · split
      · exact refl s
      · refine ⟨fun hr => ?_, fun _ hs => ?_⟩
        · rw [locoSettings.consistTold]
          exact hr.trans (length_le_overlay _ _ _)
        · obtain ⟨hf, hdir, -⟩ := (motionSound_iff s).1 hs
          exact consistTold hp hf.distinct hdir rfl

theorem learnBurst (s : State) : Steer s (learnBurst s) := by
  have hbyte (start k : Nat) (bs : List Byte) (hk : k < 6) (hstart : 480 ≤ start) (hr : 10 ≤ s.settings.length) :
      byteAt (overlay s.settings start bs) k = byteAt s.settings k := by
    have hlen : k < (s.settings.take start).length := by
      rw [List.length_take]
      omega
    unfold byteAt overlay
    rw [List.append_assoc, List.getD_append _ _ _ _ hlen, List.getD_eq_getElem?_getD, List.getElem?_take_of_lt (by omega),
      List.getD_eq_getElem?_getD]
  refine ⟨fun hr => hr.trans (length_le_overlay _ _ _), fun hr hs => ?_⟩
  have hpos : consistPosition (Machine.learnBurst s) = consistPosition s :=
    congrArg positionOf (hbyte _ 4 _ (by omega) (by omega) hr)
  have hrev : consistReversed (Machine.learnBurst s) = consistReversed s :=
    congrArg (fun n => n % 2 == 1) (hbyte _ 5 _ (by omega) (by omega) hr)
  obtain ⟨⟨hd, hf⟩, hdir, hl⟩ := (motionSound_iff s).1 hs
  refine (motionSound_iff _).2 ⟨⟨hd, ?_⟩, ?_, hl⟩
  · unfold IsMember
    rw [hpos]
    exact hf
  · unfold DirFits
    rw [wantedDir_of_eq hrev rfl]
    exact hdir

/-! ### The supply -/

theorem changeSupply (n : SupplyState) (s : State) : Steer s (changeSupply n s) := by
  have hentry : Steer s (supplyEntry s.supply.state n s) := by
    unfold supplyEntry
    split
    · split
      · exact of_course rfl
      · refine trans ?_ (removeHold .supply _)
        exact of_course rfl
    · exact of_course rfl
    · dsimp only
      split
      · exact of_course rfl
      · refine trans ?_ (installPlain (src := .supply) nofun _ _)
        exact of_course rfl
    · exact of_course rfl
  have hreacts (old : SupplyState) (u : State) : (motorReacts old u).course = u.course := by
    have h : (if old = .track ∧ u.supply.state ≠ .track then abandonCheck u else u).course = u.course := by
      unfold abandonCheck
      split <;> [split; skip] <;> rfl
    unfold motorReacts
    generalize (if old = .track ∧ u.supply.state ≠ .track then abandonCheck u else u) = v at h ⊢
    dsimp only
    split <;> exact h
  unfold Machine.changeSupply
  dsimp only
  split
  · exact refl s
  · rw [loadsReact_eq]
    refine trans ?_ (of_offSound (soundSupplyChange_offSound _))
    refine trans ?_ (of_offSmoke (smokeDecide_offSmoke _))
    exact hentry.trans (of_course (hreacts _ _))

theorem budgetPeriod (vt vs : Nat) (s : State) : Steer s (budgetPeriod vt vs s) := by
  have hhold (u : State) : Steer u (publishGrants (decideHold u)) := by
    unfold decideHold
    split
    · refine trans (trans ?_ (installPlain (src := .supply) nofun .normal { u with supply := { u.supply with holdFlag := true } })) ?_
      · exact of_course rfl
      · exact of_course rfl
    · exact of_course rfl
  have hsensed : Steer s (senseSupply vt vs s) := of_course rfl
  exact (hsensed.trans (decideSupply_keeps refl trans changeSupply (fun _ _ => of_course rfl) _)).trans (hhold _)

/-! ### Every effect -/

theorem activity (s : State) : Steer s (activity s) := of_offLoads (activity_offLoads s)

theorem momentaryStart (c : Option Nat) (s : State) : Steer s (momentaryStart c s) := of_offSound (momentaryStart_offSound c s)

theorem chuff (s : State) : Steer s (chuff s) := (momentaryStart _ s).trans (of_offSmoke (smokeChuff_offSmoke _))

theorem motionLaws : MotionLaws Steer where
  driveStored step d src _ hp := driveStored step d src hp
  funcTaken g mask values src s := by
    refine trans (trans ?_ (featureEvents s _)) (activity _)
    exact of_course rfl
  beaconFunction i d s := by
    refine trans ?_ (featureEvents s _)
    exact of_course rfl
  switchExpires i s := by
    unfold switchExpires
    split
    · refine ite (trans ?_ (featureEvents s _))
      exact of_course rfl
    · exact refl s
  momentaryStart := momentaryStart
  stopTaken := stopTaken
  resume := resume
  installStop decel dwell rev o _ hp := installStop decel dwell rev o hp
  installCap value limit o _ hp := installCap value limit o hp
  dwellReached := dwellReached

theorem tableLaws : TableLaws Steer where
  refl := refl
  trans := trans
  table _ _ _ _ _ := of_course rfl
  endTxn s := of_body (endTxn_body s)
  radioLoss s := installPlain (src := .radioLoss) nofun .normal s
  removeHold := removeHold
  activity := activity

/-- An applied SETTINGS write: what the new record does to holds and direction comes first (R168). -/
theorem applySettings (start : Nat) (bs : List Byte) {s : State} (hp : s.phase = .running) :
    Steer s (applySettings start bs s).2 := by
  unfold Machine.applySettings markUnsaved
  dsimp only
  have hlen (hr : 10 ≤ s.settings.length) : s.settings.length ≤ (checkedImage (inRange start bs.length) (overlay s.settings start bs)).length := by
    rw [checkedImage_length _ _ (hr.trans (length_le_overlay _ _ _))]
    exact length_le_overlay _ _ _
  generalize checkedImage (inRange start bs.length) (overlay s.settings start bs) = img at hlen ⊢
  generalize hu : ({ s with settings := img, unsaved := true, changedSinceCopy := true } : State) = u
  have hcourse := featureEvents_course s u
  have hafter := settingsInstalled_after tableLaws s u (fun _ => of_course rfl)
    (fun w => by unfold chuffSourceChanged; split <;> exact of_course rfl)
    (fun w => by unfold setpointChanged; split <;> exact of_course rfl)
    (fun w => by unfold periodChanged; split <;> exact of_course rfl)
    (fun c w => of_offSound (ambientChanged_offSound c w))
  generalize Machine.featureEvents s u = v at hcourse hafter
  subst hu
  obtain ⟨hh, h⟩ := Prod.mk.inj hcourse
  obtain ⟨hset, h⟩ := Prod.mk.inj h
  obtain ⟨hc, h⟩ := Prod.mk.inj h
  obtain ⟨ha, h⟩ := Prod.mk.inj h
  obtain ⟨hpend, hphase⟩ := Prod.mk.inj h
  have hrecord (hr : 10 ≤ s.settings.length) : 10 ≤ (Machine.consistTold s v).settings.length := by
    rw [locoSettings.consistTold, hset]
    exact hr.trans (hlen hr)
  refine ⟨fun hr => hafter.record (hrecord hr), fun hr hs => hafter.sound (hrecord hr) (consistTold (hphase.trans hp) ?_ ?_ hc)⟩
  · unfold HoldsDistinct
    rw [hh]
    exact hs.distinct
  · rw [hpend, ha]
    exact hs.direction

theorem motionSound_reset : MotionSound State.reset := by
  have hdir : wantedDir State.reset = .fwd := by decide +kernel
  exact (motionSound_iff _).2 ⟨⟨List.nodup_nil, fun _ hx => absurd hx List.not_mem_nil⟩,
    ⟨fun h => absurd h Bool.false_ne_true, fun h => absurd hdir h⟩, fun _ => ⟨rfl, fun _ hx => absurd hx List.not_mem_nil⟩⟩

theorem reset {s t : State} (h : t.course = State.reset.course) : Steer s t := by
  have hlen : 10 ≤ State.reset.settings.length := by
    show 10 ≤ factorySettings.length
    rw [OuterKept.factorySettings_length]
    omega
  exact ⟨fun _ => (of_course h).record hlen, fun _ _ => (of_course h).sound hlen motionSound_reset⟩

theorem takeMotorFault (k : FaultKind) (retry : Option Time) (s : State) : Steer s (takeMotorFault k retry s) := by
  exact (installPlain (src := .motorFault) nofun .instant s).trans (of_course rfl)

theorem bodyLaws : BodyLaws Steer where
  toMotionLaws := motionLaws
  refl := refl
  trans := trans
  body := of_body
  radioLoss := tableLaws.radioLoss
  removeHold := removeHold
  activity := activity
  powerOn _ := reset rfl
  softReset _ := reset rfl
  consist addr pos flags mask src _ hp _ := consistRequest addr pos flags mask src hp
  learnt := learnBurst
  applied _ hp _ _ := applySettings _ _ hp
  check s := by
    unfold checkTaken
    split
    · exact refl s
    · split <;> exact of_course rfl
  cleared s := by
    refine trans (trans ?_ (removeHold .motorFault _)) (of_offSmoke (smokeCleared_offSmoke _))
    exact of_course rfl
  short c s := by
    unfold shortSensed
    split
    · split
      · exact of_course rfl
      · split
        · exact refl s
        · refine trans ?_ (takeMotorFault _ _ _)
          exact of_course rfl
    · exact refl s
  retry s := by
    unfold faultRetried
    split
    · refine ite (trans ?_ (removeHold .motorFault _))
      exact of_course rfl
    · exact refl s
  camInput l s := by
    unfold camInput
    split <;> exact of_course rfl
  camChuff s := by
    unfold camChuffed
    refine ite (trans ?_ (chuff _))
    exact of_course rfl
  budget := budgetPeriod
  smoke t s := of_offSmoke (smokePeriod_offSmoke t s)
  puff s := of_offSmoke (puffEnds_offSmoke s)
  fan s := of_offSmoke (fanStops_offSmoke s)

theorem motionEvent (old : MotionPhase) (s : State) : Steer s (motionEvent old s) := by
  unfold Machine.motionEvent
  split
  · exact momentaryStart _ s
  · exact ite (momentaryStart _ s)

theorem beforeSettle (old : MotionPhase) (isChuff : Bool) (s : State) : Steer s (beforeSettle old isChuff s) :=
  (((completeReversal s).trans (beginDwell _)).trans (expireCap _)).trans ((ite (chuff _)).trans (motionEvent old _))

theorem controlPeriod (c m : Nat) (s : State) : Steer s (controlPeriod c m s) :=
  controlPeriod_keeps (Q := Steer) trans (fun _ _ => of_course rfl) (fun _ _ => of_course rfl) takeMotorFault beforeSettle c m s

/-- The start-up load ends with the wanted direction applied and no BEACON hold (R25, R178). -/
theorem endReset {s : State} (hs : MotionSound s) (hp : s.phase = .loading) {u : State} (hh : u.holds = s.holds)
    (hd : u.demand = s.demand) : MotionSound (endReset u) := by
  obtain ⟨hpend, hbeacon⟩ := hs.loading hp
  refine (motionSound_iff _).2 ⟨⟨?_, fun x hx hb => ?_⟩, ⟨fun h => ?_, fun h => absurd rfl h⟩, .of_running rfl⟩
  · unfold HoldsDistinct
    exact hh ▸ hs.distinct
  · exact absurd hb (hbeacon x (hh ▸ hx))
  · have h : u.demand.pending = true := h
    rw [hd, hpend] at h
    cases h

theorem loadSettings_same (ok : Bool) (s : State) :
    (loadSettings ok s).holds = s.holds ∧ (loadSettings ok s).demand = s.demand := by
  unfold loadSettings
  dsimp only
  generalize checkedImage _ _ = img
  generalize (ok && imageValid (flashBytes s 0 778)) = valid
  split <;> split <;> exact ⟨rfl, rfl⟩

theorem supplyStart (vt vs : Nat) (s : State) : Steer s (supplyStart vt vs s) := by
  have hpublish (u : State) : Steer u (publishGrants (smokeDecide u)) :=
    trans (b := smokeDecide u) (of_offSmoke (smokeDecide_offSmoke u)) (of_course rfl)
  unfold Machine.supplyStart
  dsimp only
  refine trans ?_ (hpublish _)
  split
  · exact of_course rfl
  · exact (installPlain (src := .supply) nofun .normal s).trans (of_course rfl)

theorem startUpDone (ok : Bool) (vt vs : Nat) {s : State} (hs : MotionSound s) (hp : s.phase = .loading)
    (hset : SettingsSound s) : MotionSound (startUpDone ok vt vs s) := by
  obtain ⟨hh, hd⟩ := loadSettings_same ok s
  have hlen : 10 ≤ (Machine.endReset (loadSettings ok s)).settings.length := by
    show 10 ≤ (loadSettings ok s).settings.length
    rw [((OuterKept.loadSettings ok s).settings hset).length]
    omega
  have hfreed (u : State) : Steer u (portFreed u) := of_course rfl
  exact (((hfreed _).trans (supplyStart vt vs _)).trans (of_offSound (requestDirectory_offSound _))).sound hlen
    (endReset hs hp hh hd)

theorem effect {s t : State} (h : Effect s t) (hs : SettingsSound s) (hport : PortSound s) (hm : MotionSound s) :
    MotionSound t := by
  have hr : 10 ≤ s.settings.length := by
    rw [hs.length]
    omega
  obtain h | ⟨c, m, -, rfl⟩ | ⟨ok, vt, vs, r, hb, hw, rfl⟩ := bodyLaws.coreLaws.effect h
  · exact h.sound hr hm
  · exact (controlPeriod c m s).sound hr hm
  · refine startUpDone ok vt vs hm (hport.startUp r ?_ hw) hs
    unfold liveRequests
    rw [hb]
    exact List.mem_append_right _ List.mem_cons_self

theorem tick (s : State) : Steer s (tick s) := by
  unfold Machine.tick
  dsimp only
  split <;> exact of_course rfl

end Steer

/-- Settles O7: a hold enters and leaves by its source, a BEACON entry enters where its origin is taken, and every change
of the wanted direction or of the record is reconciled. -/
theorem stepKeepsMotionSound : Obligations.StepKeepsMotionSound := by
  unfold Obligations.StepKeepsMotionSound
  intro s t hm hs hport h
  obtain ⟨-, rfl⟩ | ⟨rest, he⟩ := step_effect h
  · exact (Steer.tick s).sound (by rw [hs.length]; omega) hm
  · exact Steer.effect he ⟨hs.length, hs.staged, hs.inside, hs.slot⟩
      ⟨hport.waiting, hport.startUp, hport.loading, hport.single, hport.store, hport.bank⟩
      ⟨hm.distinct, hm.own, hm.consist, hm.direction, hm.loading⟩

end Sys2Proof.Machine
end

section
/-! The machine's first statements, the speed table and what the Motion Controller publishes. Settles O1, O3, O12 and
O13. -/

namespace Sys2Proof.Machine

/-! ### A step (section 4) -/

theorem tickPort_eq (p : PortState) :
    tickPort p = { p with rx := { p.rx with gap := if p.rx.state = .hunt then p.rx.gap else p.rx.gap + 1 } } := by
  unfold tickPort
  split <;> rfl

/-- Settles O1: the queue's front decides which equation of `step` applies. -/
theorem stepRunsTheFrontCommand : Obligations.StepRunsTheFrontCommand := by
  unfold Obligations.StepRunsTheFrontCommand
  refine ⟨fun _ _ _ => rfl, fun s hs => ?_⟩
  have hstep : step s = .next (tick s) := by
    unfold step
    rw [hs]
  rw [hstep]
  unfold tick
  dsimp only
  rw [tickPort_eq, tickPort_eq]
  cases hp : s.phase <;> rfl

/-- Settles O3, one lemma per invariant. -/
theorem resetMeetsTheInvariants : Obligations.ResetMeetsTheInvariants := by
  unfold Obligations.ResetMeetsTheInvariants
  refine ⟨ClaimsKept.claimsSound_reset, ⟨rfl, rfl⟩, OuterKept.settingsSound_reset, OuterKept.queuesSound_reset,
    Steer.motionSound_reset, (motorSound_iff _).2 ⟨Lit.resetMotor_sound 0, nofun⟩,
    (voicesSound_iff _).2 (DeskStep.voices_reset rfl), SmokeSound.reset rfl rfl, Nat.zero_le _, ?_⟩
  exact DeskStep.portSound_reset 0 { waiting := [], busy := none } rfl rfl rfl rfl

/-! ### Step to speed (R4, R5) -/

/-- A truncated quotient of a rising and of a falling segment. -/
theorem between_of_tdiv (a b x : Nat) (hx : x ≤ 25) :
    (min a b : Int) ≤ (a : Int) + Int.tdiv (((b : Int) - (a : Int)) * (x : Int)) 25 ∧
      (a : Int) + Int.tdiv (((b : Int) - (a : Int)) * (x : Int)) 25 ≤ (max a b : Int) := by
  have hquot (d : Nat) : d * x / 25 ≤ d := Nat.div_le_of_le_mul (by rw [Nat.mul_comm 25]; exact Nat.mul_le_mul_left d hx)
  obtain h | h := Nat.le_total a b
  · obtain ⟨d, rfl⟩ := Nat.exists_eq_add_of_le h
    have heq : Int.tdiv (((a + d : Nat) - (a : Int)) * (x : Int)) 25 = ((d * x / 25 : Nat) : Int) := by
      rw [show ((a + d : Nat) - (a : Int)) * (x : Int) = ((d * x : Nat) : Int) by push_cast; ring]
      exact (Int.ofNat_tdiv _ _).symm
    have := hquot d
    rw [heq]
    omega
  · obtain ⟨d, rfl⟩ := Nat.exists_eq_add_of_le h
    have heq : Int.tdiv (((b : Int) - ((b + d : Nat) : Int)) * (x : Int)) 25 = -((d * x / 25 : Nat) : Int) := by
      rw [show ((b : Int) - ((b + d : Nat) : Int)) * (x : Int) = -((d * x : Nat) : Int) by push_cast; ring, Int.neg_tdiv]
      exact congrArg Neg.neg (Int.ofNat_tdiv _ _).symm
    have := hquot d
    rw [heq]
    omega

theorem stepSpeed_last (s : State) : stepSpeed s 250 = speedPoint s 10 := rfl

theorem stepSpeed_segment (s : State) {t k : Nat} (hk : k < 10) (hlo : 25 * k ≤ t) (hhi : t < 25 * (k + 1)) :
    (stepSpeed s t : Int) = (speedPoint s k : Int)
      + Int.tdiv (((speedPoint s (k + 1) : Int) - (speedPoint s k : Int)) * ((t : Int) - 25 * (k : Int))) 25 ∧
    min (speedPoint s k) (speedPoint s (k + 1)) ≤ stepSpeed s t ∧
      stepSpeed s t ≤ max (speedPoint s k) (speedPoint s (k + 1)) := by
  have hdiv : t / 25 = k := by omega
  obtain ⟨x, rfl⟩ := Nat.exists_eq_add_of_le hlo
  obtain ⟨hmin, hmax⟩ := between_of_tdiv (speedPoint s k) (speedPoint s (k + 1)) x (by omega)
  have hx : ((25 * k + x : Nat) : Int) - 25 * (k : Int) = (x : Int) := by omega
  unfold stepSpeed
  dsimp only
  rw [hdiv, if_neg (by omega), hx]
  generalize Int.tdiv _ _ = q at *
  omega

/-! ### One move of the reference (R6, R7) -/

theorem moveReference_rampUp {m : Motor} {target : Nat} (h : m.R < target) (a : Nat) (d : EffDecel) :
    moveReference target (some a) d m = { m with
      R := min (m.R + (m.rising + a) / 100) target
      rising := if m.R + (m.rising + a) / 100 < target then (m.rising + a) % 100 else 0
      falling := 0 } := by
  unfold moveReference rampUp
  rw [if_pos h]
  dsimp only
  by_cases harrives : m.R + (m.rising + a) / 100 < target
  · rw [if_neg (by omega), if_pos harrives]
  · rw [if_pos (by omega), if_neg harrives]

theorem moveReference_rampDown {m : Motor} {target : Nat} (h : target < m.R) (a : Option Nat) (r : Nat) :
    moveReference target a (.rate r) m = { m with
      R := max (m.R - (m.falling + r) / 100) target
      rising := 0
      falling := if target + (m.falling + r) / 100 < m.R then (m.falling + r) % 100 else 0 } := by
  unfold moveReference rampDown
  rw [if_neg (by omega), if_pos h]
  dsimp only
  by_cases harrives : target + (m.falling + r) / 100 < m.R
  · rw [if_neg (by omega), if_pos harrives]
  · rw [if_pos (by omega), if_neg harrives]

theorem moveReference_up_instant {m : Motor} {target : Nat} (h : m.R < target) (d : EffDecel) :
    moveReference target none d m = moveInstant target m := by
  unfold moveReference
  rw [if_pos h]

theorem moveReference_down_instant {m : Motor} {target : Nat} (h : target < m.R) (a : Option Nat) :
    moveReference target a .instant m = moveInstant target m := by
  unfold moveReference
  rw [if_neg (by omega), if_pos h]

theorem moveReference_there {m : Motor} {target : Nat} (h : m.R = target) (a : Option Nat) (d : EffDecel) :
    moveReference target a d m = { m with rising := 0, falling := 0 } := by
  unfold moveReference
  rw [if_neg (by omega), if_neg (by omega)]

/-- Settles O12: the equations of the speed table and of the reference's move, one per segment and per direction. -/
theorem speedTableAndRamps : Obligations.SpeedTableAndRamps := by
  unfold Obligations.SpeedTableAndRamps
  refine ⟨fun s t _ => ⟨?last, fun k => stepSpeed_segment s, ?trimmed⟩, fun m target =>
    ⟨moveReference_rampUp, moveReference_rampDown, moveReference_up_instant, moveReference_down_instant,
      moveReference_there⟩⟩
  case last =>
    rintro rfl
    exact stepSpeed_last s
  case trimmed =>
    unfold trimmedSpeed trim
    cases s.demand.applied <;> rfl

/-! ### Features asked (R101, R102) -/

theorem qualifies_iff (q : Nat) (d : Dir) : qualifies q d = true ↔ (q = 1 → d = .fwd) ∧ (q = 2 → d = .rev) := by
  unfold qualifies
  split
  · simp_all
  · split <;> simp_all

theorem featureActive_iff (s : State) (sw : Switch) (code b : Nat) :
    featureActive s sw code b = true ↔ sw.on = true ∧ b % 64 = code ∧
      (sw.expiry ≠ none ∨ ((b / 64 = 1 → s.demand.applied = .fwd) ∧ (b / 64 = 2 → s.demand.applied = .rev))) := by
  unfold featureActive
  rw [Bool.and_eq_true, Bool.and_eq_true, Bool.or_eq_true, qualifies_iff, beq_iff_eq, Option.isSome_iff_ne_none,
    and_assoc]

theorem asked_iff (s : State) (code : Nat) :
    asked s code = true ↔ ∃ i, i < 32 ∧ ∃ sw, s.switches[i]? = some sw ∧ sw.on = true ∧
      ∃ b ∈ [set8 s (96 + 2 * i), set8 s (97 + 2 * i)], b % 64 = code ∧
        (sw.expiry ≠ none ∨ ((b / 64 = 1 → s.demand.applied = .fwd) ∧ (b / 64 = 2 → s.demand.applied = .rev))) := by
  unfold asked
  rw [List.any_eq_true]
  refine exists_congr fun i => ?_
  rw [List.mem_range]
  refine and_congr_right fun _ => ?_
  cases s.switches[i]? with
  | none => simp
  | some sw =>
    dsimp only
    rw [Bool.or_eq_true, featureActive_iff, featureActive_iff]
    simp only [Option.some.injEq, exists_eq_left', List.mem_cons, List.not_mem_nil, or_false, exists_eq_or_imp,
      exists_eq_left]
    tauto

/-! ### The effective target (R35) -/

theorem stopHeld_iff (s : State) : stopHeld s = true ↔ ∃ h ∈ s.holds, h.kind = .stop := by
  unfold stopHeld
  simp only [List.any_eq_true, beq_iff_eq]

theorem mem_capValues (s : State) (v : Nat) : v ∈ capValues s ↔ ∃ h ∈ s.holds, h.kind = .cap ∧ h.capValue = v := by
  unfold capValues
  simp only [List.mem_filterMap, Option.ite_none_right_eq_some, Option.some.injEq]

theorem underCaps_mem (speed : Nat) (caps : List Nat) : underCaps speed caps = speed ∨ underCaps speed caps ∈ caps := by
  unfold underCaps
  induction caps generalizing speed with
  | nil => exact Or.inl rfl
  | cons c caps ih =>
    obtain h | h := ih (min speed c)
    · obtain hm | hm := min_choice speed c
      · exact Or.inl (h.trans hm)
      · exact Or.inr (by rw [List.foldl_cons, h, hm]; exact List.mem_cons_self)
    · exact Or.inr (List.mem_cons_of_mem _ h)

/-- The trimmed speed of the step, halved in the yard (R35). -/
def askedSpeed (s : State) : Nat :=
  let speed := if s.demand.step = 0 then 0 else trimmedSpeed s s.demand.step
  if asked s 43 = true then speed / 2 else speed

theorem sEff_stopped {s : State} (h : (∃ x ∈ s.holds, x.kind = .stop) ∨ s.demand.pending = true ∨ asked s 42 = true) :
    sEff s = 0 := by
  unfold sEff
  refine if_pos ?_
  rwa [Bool.or_eq_true, Bool.or_eq_true, stopHeld_iff, or_assoc]

theorem sEff_going {s : State} (hstop : ¬ ∃ x ∈ s.holds, x.kind = .stop) (hpending : s.demand.pending = false)
    (hbrake : ¬ asked s 42 = true) : sEff s = underCaps (askedSpeed s) (capValues s) := by
  unfold sEff
  refine if_neg ?_
  rw [Bool.or_eq_true, Bool.or_eq_true, stopHeld_iff, hpending]
  rintro ((h | h) | h)
  · exact hstop h
  · cases h
  · exact hbrake h

/-! ### The deceleration in effect (R36) -/

theorem foldl_harder_instant (l : List EffDecel) : l.foldl EffDecel.harder .instant = .instant := by
  induction l with
  | nil => rfl
  | cons y l ih => exact ih

theorem foldl_harder_of_mem_instant (l : List EffDecel) (x : EffDecel) (h : EffDecel.instant ∈ l) :
    l.foldl EffDecel.harder x = .instant := by
  induction l generalizing x with
  | nil => cases h
  | cons y l ih =>
    obtain rfl | h := List.mem_cons.1 h
    · rw [List.foldl_cons, show EffDecel.harder x .instant = .instant by cases x <;> rfl, foldl_harder_instant]
    · exact ih _ h

theorem hardest_of_mem_instant {d : Nat} {l : List EffDecel} (h : EffDecel.instant ∈ l) : hardest d l = .instant := by
  cases l with
  | nil => cases h
  | cons x l =>
    obtain rfl | h := List.mem_cons.1 h
    · exact foldl_harder_instant l
    · exact foldl_harder_of_mem_instant l x h

theorem foldl_harder_rate (l : List EffDecel) (a : Nat) (h : EffDecel.instant ∉ l) :
    ∃ r, l.foldl EffDecel.harder (.rate a) = .rate r ∧ (r = a ∨ EffDecel.rate r ∈ l) ∧ a ≤ r ∧
      ∀ x, EffDecel.rate x ∈ l → x ≤ r := by
  induction l generalizing a with
  | nil => exact ⟨a, rfl, Or.inl rfl, Nat.le_refl a, fun _ h => by cases h⟩
  | cons y l ih =>
    obtain ⟨hy, hl⟩ := not_or.1 (mt List.mem_cons.2 h)
    cases y with
    | instant => exact absurd rfl hy
    | rate b =>
      obtain ⟨r, hr, hmem, hle, hall⟩ := ih (max a b) hl
      refine ⟨r, hr, ?_, (Nat.le_max_left _ _).trans hle, ?_⟩
      · obtain rfl | hmem := hmem
        · obtain hm | hm := max_choice a b
          · exact Or.inl hm
          · exact Or.inr (by rw [hm]; exact List.mem_cons_self)
        · exact Or.inr (List.mem_cons_of_mem _ hmem)
      · intro x hx
        obtain hx | hx := List.mem_cons.1 hx
        · cases hx
          exact (Nat.le_max_right _ _).trans hle
        · exact hall x hx

/-- The largest of some rates, none of which is INSTANT. -/
theorem hardest_rate {d : Nat} {l : List EffDecel} (hl : l ≠ []) (h : EffDecel.instant ∉ l) :
    ∃ r, hardest d l = .rate r ∧ EffDecel.rate r ∈ l ∧ ∀ x, EffDecel.rate x ∈ l → x ≤ r := by
  cases l with
  | nil => exact absurd rfl hl
  | cons y l =>
    obtain ⟨hy, htail⟩ := not_or.1 (mt List.mem_cons.2 h)
    cases y with
    | instant => exact absurd rfl hy
    | rate a =>
      obtain ⟨r, hr, hmem, hle, hall⟩ := foldl_harder_rate l a htail
      refine ⟨r, hr, hmem.elim (fun h => h ▸ List.mem_cons_self) (List.mem_cons_of_mem _), fun x hx => ?_⟩
      obtain hx | hx := List.mem_cons.1 hx
      · cases hx
        exact hle
      · exact hall x hx

theorem asks_instant_iff (d : Nat) (x : Decel) : x.asks d = .instant ↔ x = .instant := by
  cases x <;> simp [Decel.asks]

theorem asks_rate_iff (d r : Nat) (x : Decel) : x.asks d = .rate r ↔ x = .rate r ∨ (x = .normal ∧ r = d) := by
  cases x <;> simp [Decel.asks, eq_comm]

theorem mem_askedDecels (s : State) (x : EffDecel) :
    x ∈ askedDecels s ↔ (asked s 42 = true ∧ x = .rate (set16 s 60)) ∨
      ∃ h ∈ s.holds, h.kind = .stop ∧ h.decel.asks (set16 s 58) = x := by
  unfold askedDecels
  rw [List.mem_append]
  refine or_congr ?_ ?_
  · show x ∈ (if asked s 42 = true then _ else _) ↔ _
    split <;> simp_all
  · simp only [List.mem_filterMap, Option.ite_none_right_eq_some, Option.some.injEq]

theorem mem_askedDecels_instant (s : State) :
    EffDecel.instant ∈ askedDecels s ↔ ∃ h ∈ s.holds, h.kind = .stop ∧ h.decel = .instant := by
  simp only [mem_askedDecels, asks_instant_iff, reduceCtorEq, and_false, false_or]

theorem mem_askedDecels_rate (s : State) (r : Nat) :
    EffDecel.rate r ∈ askedDecels s ↔ (asked s 42 = true ∧ r = set16 s 60) ∨
      ∃ h ∈ s.holds, h.kind = .stop ∧ (h.decel = .rate r ∨ (h.decel = .normal ∧ r = set16 s 58)) := by
  simp only [mem_askedDecels, asks_rate_iff, EffDecel.rate.injEq]

theorem decelInEffect_off {s : State} (h : ¬ asked s 44 = false) : decelInEffect s = .instant := by
  unfold decelInEffect
  exact if_pos (eq_true_of_ne_false h)

theorem decelInEffect_on {s : State} (h : asked s 44 = false) : decelInEffect s = hardest (set16 s 58) (askedDecels s) := by
  unfold decelInEffect
  exact if_neg (by rw [show featMomentumOff = 44 from rfl, h]; exact Bool.false_ne_true)

theorem askedDecels_nil {s : State} (hstop : ¬ ∃ h ∈ s.holds, h.kind = .stop) (hbrake : ¬ asked s 42 = true) :
    askedDecels s = [] := by
  refine List.eq_nil_iff_forall_not_mem.2 fun x hx => ?_
  obtain ⟨hb, -⟩ | ⟨h, hh, hk, -⟩ := (mem_askedDecels s x).1 hx
  · exact hbrake hb
  · exact hstop ⟨h, hh, hk⟩

/-- The largest rate asked, while some rate but none that is INSTANT is asked (R36). -/
theorem decelInEffect_rate {s : State} (hmomentum : asked s 44 = false)
    (hasked : (∃ h ∈ s.holds, h.kind = .stop) ∨ asked s 42 = true)
    (hnone : ∀ h ∈ s.holds, h.kind = .stop → h.decel ≠ .instant) :
    ∃ r, decelInEffect s = .rate r ∧ EffDecel.rate r ∈ askedDecels s ∧ ∀ x, EffDecel.rate x ∈ askedDecels s → x ≤ r := by
  rw [decelInEffect_on hmomentum]
  refine hardest_rate ?_ fun h => ?_
  · obtain ⟨h, hh, hk⟩ | hb := hasked
    · exact List.ne_nil_of_mem ((mem_askedDecels s _).2 (Or.inr ⟨h, hh, hk, rfl⟩))
    · exact List.ne_nil_of_mem ((mem_askedDecels s _).2 (Or.inl ⟨hb, rfl⟩))
  · obtain ⟨x, hx, hk, hd⟩ := (mem_askedDecels_instant s).1 h
    exact hnone x hx hk hd

/-- Settles O13: the features asked, the target by its branches, and the deceleration as the maximum of those asked. -/
theorem targetAndDecelerationFollowTheDemand : Obligations.TargetAndDecelerationFollowTheDemand := by
  unfold Obligations.TargetAndDecelerationFollowTheDemand
  intro s
  refine ⟨asked_iff s, sEff_stopped, ?going, decelInEffect_off, ?instant, ?none, ?rate⟩
  case going =>
    intro hstop hpending hbrake
    rw [sEff_going hstop hpending hbrake]
    refine ⟨underCaps_le_speed _ _, fun h hh hk => underCaps_le_cap ((mem_capValues s _).2 ⟨h, hh, hk, rfl⟩), ?_⟩
    refine (underCaps_mem _ _).imp id fun hmem => ?_
    obtain ⟨h, hh, hk, hv⟩ := (mem_capValues s _).1 hmem
    exact ⟨h, hh, hk, hv.symm⟩
  case instant =>
    intro hmomentum hinstant
    rw [decelInEffect_on hmomentum]
    exact hardest_of_mem_instant ((mem_askedDecels_instant s).2 hinstant)
  case none =>
    intro hmomentum hstop hbrake
    rw [decelInEffect_on hmomentum, askedDecels_nil hstop hbrake]
    rfl
  case rate =>
    intro hmomentum hasked hnone
    obtain ⟨r, hr, hmem, hall⟩ := decelInEffect_rate hmomentum hasked hnone
    have hholds (h : Hold) (hh : h ∈ s.holds) (hk : h.kind = .stop) :
        (h.decel = .normal → set16 s 58 ≤ r) ∧ (∀ x, h.decel = .rate x → x ≤ r) :=
      ⟨fun hd => hall _ ((mem_askedDecels_rate s _).2 (Or.inr ⟨h, hh, hk, Or.inr ⟨hd, rfl⟩⟩)),
        fun x hd => hall x ((mem_askedDecels_rate s _).2 (Or.inr ⟨h, hh, hk, Or.inl hd⟩))⟩
    exact ⟨r, hr, fun hb => hall _ ((mem_askedDecels_rate s _).2 (Or.inl ⟨hb, rfl⟩)), hholds,
      (mem_askedDecels_rate s r).1 hmem⟩

end Sys2Proof.Machine
end

section
/-! What follows a published set (R27, R28, R34, R39, R142; log 12): its parts, what it changes, what of the motor's record
it reads, and the statement `FollowsPublishing`. -/

namespace Sys2Proof.Machine

/-! ### The motor's record and the events given to the loads -/

/-- The state with another motor's record. -/
def State.withMotor (m : Motor) (s : State) : State := { s with motor := m }

/-- The two states agree but on the motor's record. -/
def Twin (s t : State) : Prop := ∃ m, t = s.withMotor m

namespace Twin

theorem startRequest (c : Nat) (held : Bool) (m : Motor) (s : State) :
    startRequest c held (s.withMotor m) = (Machine.startRequest c held s).withMotor m := by
  have hother : Machine.startRequest c held (s.withMotor m) = soundIn (s.withMotor m) (Machine.startRequest c held s) :=
    startRequest_soundIn c held (s.withMotor m) s
  have hself : Machine.startRequest c held s = soundIn s (Machine.startRequest c held s) := startRequest_soundIn c held s s
  rw [hother]
  generalize Machine.startRequest c held s = r at hself ⊢
  rw [hself]
  rfl

theorem momentaryStart (c : Option Nat) (m : Motor) (s : State) :
    momentaryStart c (s.withMotor m) = (Machine.momentaryStart c s).withMotor m := by
  cases c with
  | none => rfl
  | some c => exact startRequest c false m s

theorem triggerEnd (c : Nat) (m : Motor) (s : State) :
    triggerEnd c (s.withMotor m) = (Machine.triggerEnd c s).withMotor m := by
  unfold Machine.triggerEnd
  rw [show cueHeld (s.withMotor m) c = cueHeld s c from rfl]
  split <;> rfl

theorem fanOnEntry (st : SmokeState) (m : Motor) (s : State) :
    fanOnEntry st (s.withMotor m) = (Machine.fanOnEntry st s).withMotor m := by
  unfold Machine.fanOnEntry
  cases st with
  | heating | ready | fault => rfl
  | off | shed =>
    dsimp only
    rw [show chamberHot (s.withMotor m) = chamberHot s from rfl]
    split <;> rfl

theorem enterSmoke (st : SmokeState) (m : Motor) (s : State) :
    enterSmoke st (s.withMotor m) = (Machine.enterSmoke st s).withMotor m := by
  have hentry : (if (s.withMotor m).smoke.state = st then s.withMotor m
        else Machine.fanOnEntry st { s.withMotor m with smoke := { s.smoke with state := st } }) =
      (if s.smoke.state = st then s else Machine.fanOnEntry st { s with smoke := { s.smoke with state := st } }).withMotor m := by
    rw [show (s.withMotor m).smoke.state = s.smoke.state from rfl]
    split
    · rfl
    · exact fanOnEntry st m { s with smoke := { s.smoke with state := st } }
  exact congrArg (fun u : State => applyHeater { u with
    smoke := { u.smoke with demand := heaterDemand u st }
    freeCount := if u.smoke.temp.isNone then u.freeCount + 1 else u.freeCount }) hentry

theorem smokeDecide (m : Motor) (s : State) : smokeDecide (s.withMotor m) = (Machine.smokeDecide s).withMotor m := by
  unfold Machine.smokeDecide
  rw [show (s.withMotor m).smoke = s.smoke from rfl, show smokeStateOf (s.withMotor m) = smokeStateOf s from rfl]
  dsimp only
  split
  · rfl
  · split
    · rfl
    · exact enterSmoke _ m s

theorem cueChange (was is : Bool) (c : Nat) (m : Motor) (s : State) :
    cueChange was is c (s.withMotor m) = (Machine.cueChange was is c s).withMotor m := by
  unfold Machine.cueChange
  split
  · exact triggerEnd c m s
  · split
    · exact startRequest c true m s
    · rfl

theorem foldl_cueChange (was is : Bool) (l : List Nat) (m : Motor) (s : State) :
    l.foldl (fun s c => Machine.cueChange was is c s) (s.withMotor m) =
      (l.foldl (fun s c => Machine.cueChange was is c s) s).withMotor m := by
  induction l generalizing s with
  | nil => rfl
  | cons c l ih =>
    rw [List.foldl_cons, List.foldl_cons, cueChange]
    exact ih _

theorem featureEvents (m n : Motor) (old s : State) :
    featureEvents (old.withMotor n) (s.withMotor m) = (Machine.featureEvents old s).withMotor m := by
  have hbrake (b : Bool) (u : State) :
      (if b = true then brakeOn (u.withMotor m) else u.withMotor m) = (if b = true then brakeOn u else u).withMotor m := by
    cases b
    · rfl
    · exact momentaryStart _ m { u with demand := { u.demand with step := 0 } }
  unfold Machine.featureEvents
  dsimp only
  rw [show asked (old.withMotor n) = asked old from rfl, show asked (s.withMotor m) = asked s from rfl,
    foldl_cueChange, foldl_cueChange, hbrake]
  split
  · exact smokeDecide m _
  · rfl

/-- A flip is its features' events and a change of the motor's record. -/
theorem flipApplied_eq_withMotor (d : Dir) (s : State) : ∃ x, Machine.flipApplied d s =
    (Machine.featureEvents s { s with demand := { s.demand with applied := d, pending := false } }).withMotor x := by
  obtain ⟨x, hx, -⟩ := turned_eq d s
  refine ⟨x, ?_⟩
  rw [flipApplied_eq, hx]
  exact featureEvents x s.motor s { s with demand := { s.demand with applied := d, pending := false } }

theorem flipApplied (d : Dir) {s t : State} (h : Twin s t) : Twin (flipApplied d s) (flipApplied d t) := by
  obtain ⟨m, rfl⟩ := h
  obtain ⟨x, hx⟩ := flipApplied_eq_withMotor d s
  obtain ⟨y, hy⟩ := flipApplied_eq_withMotor d (s.withMotor m)
  refine ⟨y, ?_⟩
  rw [hy, hx]
  have hevents := featureEvents m m s { s with demand := { s.demand with applied := d, pending := false } }
  exact (congrArg (State.withMotor y) hevents :)

theorem completeReversal {s t : State} (h : Twin s t) : Twin (completeReversal s) (completeReversal t) := by
  have hflip := h.flipApplied (wantedDir s)
  obtain ⟨m, rfl⟩ := h
  unfold Machine.completeReversal
  rw [show pubStands (s.withMotor m) = pubStands s from rfl, show (s.withMotor m).demand = s.demand from rfl]
  split
  · exact hflip
  · exact ⟨m, rfl⟩

theorem turnedOrWaiting {s t : State} (h : Twin s t) : Twin (turnedOrWaiting s) (turnedOrWaiting t) := by
  have hflip := h.flipApplied (wantedDir s)
  obtain ⟨m, rfl⟩ := h
  unfold Machine.turnedOrWaiting
  rw [show pubStands (s.withMotor m) = pubStands s from rfl]
  split
  · exact hflip
  · exact ⟨m, rfl⟩

theorem reconcile (agreed : Bool) {s t : State} (h : Twin s t) : Twin (reconcile agreed s) (reconcile agreed t) := by
  have hturn := h.turnedOrWaiting
  obtain ⟨m, rfl⟩ := h
  by_cases hw : wantedDir s = s.demand.applied
  · rw [reconcile_agrees agreed hw, reconcile_agrees (s := s.withMotor m) agreed hw]
    exact ⟨m, rfl⟩
  · rw [reconcile_differs agreed hw, reconcile_differs (s := s.withMotor m) agreed hw]
    obtain ⟨x, hx⟩ := hturn
    rw [hx]
    split
    · exact ⟨x, momentaryStart _ x _⟩
    · exact ⟨x, rfl⟩

theorem dwellEnds {s t : State} (h : Twin s t) : Twin (dwellEnds s) (dwellEnds t) := by
  obtain ⟨m, rfl⟩ := h
  unfold Machine.dwellEnds
  rw [show findHold (s.withMotor m) .beacon = findHold s .beacon from rfl]
  split
  · dsimp only
    split
    · exact reconcile _ ⟨m, rfl⟩
    · exact ⟨m, rfl⟩
  · exact ⟨m, rfl⟩

theorem beginDwell {s t : State} (h : Twin s t) : Twin (beginDwell s) (beginDwell t) := by
  obtain ⟨m, rfl⟩ := h
  unfold Machine.beginDwell
  rw [show findHold (s.withMotor m) .beacon = findHold s .beacon from rfl, show (s.withMotor m).pub = s.pub from rfl]
  split
  · split
    · unfold enterDwell
      dsimp only
      split
      · exact dwellEnds ⟨m, rfl⟩
      · exact ⟨m, rfl⟩
    · exact ⟨m, rfl⟩
  · exact ⟨m, rfl⟩

theorem expireCap {s t : State} (h : Twin s t) : Twin (expireCap s) (expireCap t) := by
  obtain ⟨m, rfl⟩ := h
  unfold Machine.expireCap
  rw [show findHold (s.withMotor m) .beacon = findHold s .beacon from rfl, show (s.withMotor m).pub = s.pub from rfl]
  split
  · split <;> exact ⟨m, rfl⟩
  · exact ⟨m, rfl⟩

end Twin

/-! ### What follows changes -/

/-- Everything is the same but what may follow a published set. -/
def PeriodFrame (s t : State) : Prop :=
  t = { s with
    motor := t.motor, demand := t.demand, holds := t.holds, sound := t.sound, port := t.port
    smoke := t.smoke, freeCount := t.freeCount }

theorem PeriodFrame.trans {a b c : State} (h : PeriodFrame a b) (k : PeriodFrame b c) : PeriodFrame a c := by
  unfold PeriodFrame at h k
  rw [h] at k
  exact k

theorem startRequest_frame (c : Nat) (held : Bool) (s : State) :
    startRequest c held s = { s with
      sound := (startRequest c held s).sound, port := (startRequest c held s).port } := by
  have hsound := startRequest_soundIn c held s s
  have hview := startRequest_offSound c held s
  have hself : soundIn s s = s := rfl
  rw [hself] at hsound
  generalize startRequest c held s = r at hsound hview ⊢
  have hset : r.settings = s.settings := (congrArg State.settings hview :)
  have hpub : r.pub = s.pub := (congrArg State.pub hview :)
  have htime : r.partTime = s.partTime := (congrArg State.partTime hview :)
  unfold soundIn at hsound
  rw [hset, hpub, htime] at hsound
  exact hsound

theorem smokeDecide_frame (s : State) :
    smokeDecide s = { s with smoke := (smokeDecide s).smoke, freeCount := (smokeDecide s).freeCount } := by
  have hview := smokeDecide_offSmoke s
  have hfaults : (smokeDecide s).faults = s.faults := (congrArg State.faults (smokeDecide_offLoads s) :)
  generalize smokeDecide s = u at hview hfaults ⊢
  have hframe := congrArg (fun x : State => { x with
    smoke := u.smoke, freeCount := u.freeCount, faults := u.faults }) hview
  rw [hfaults] at hframe
  calc u = { u with faults := s.faults } := by rw [← hfaults]
    _ = _ := hframe

theorem periodFrame_turnLaws : TurnLaws PeriodFrame where
  refl _ := rfl
  trans := PeriodFrame.trans
  start c held s := by
    unfold PeriodFrame
    rw [startRequest_frame]
  trigger c s := by
    unfold PeriodFrame triggerEnd
    split <;> rfl
  decide s := by
    unfold PeriodFrame
    rw [smokeDecide_frame]
  chuffed s := by
    unfold smokeChuff
    split <;> rfl
  demand _ _ := rfl
  holds _ _ := rfl
  turn d s := by
    obtain ⟨m, hm, -⟩ := turned_eq d s
    rw [hm]
    rfl

end Sys2Proof.Machine
end

section
/-! The statement `FollowsPublishing`, from what each of its operations does to the demand, the hold list, the smoke and
the sound (R27, R28, R34, R39, R117, R118, R142). -/

namespace Sys2Proof.Machine

/-! ### A flip (R12, R28) -/

theorem asked_turned (old : State) (d : Dir) (s : State) : asked (featureEvents old (turned d s)) = asked (turned d s) := by
  refine (asked_of_offLoads (featureEvents_offLoads old _)).trans ?_
  unfold braked
  split <;> rfl

theorem flipApplied_demand (d : Dir) (s : State) : (flipApplied d s).demand = { s.demand with
    applied := d, pending := false
    step := if asked s 42 = false ∧ asked (flipApplied d s) 42 = true then 0 else s.demand.step } := by
  obtain ⟨m, hm, -⟩ := turned_eq d s
  have hdemand : (flipApplied d s).demand = (braked s (turned d s)).demand :=
    (congrArg State.demand (featureEvents_offLoads s (turned d s)) :)
  rw [hdemand, flipApplied_eq, asked_turned]
  unfold braked
  rw [hm]
  split <;> rfl

theorem flipApplied_holds (d : Dir) (s : State) : (flipApplied d s).holds = s.holds := by
  obtain ⟨m, hm, -⟩ := turned_eq d s
  refine (congrArg State.holds (featureEvents_offLoads s (turned d s)) :).trans ?_
  show (braked s (turned d s)).holds = s.holds
  unfold braked
  rw [hm]
  split <;> rfl

theorem completeReversal_turns {s : State} (hp : s.demand.pending = true) (hs : s.pub.R = 0 ∧ s.pub.Mf < 20) :
    completeReversal s = flipApplied (wantedDir s) s := by
  unfold completeReversal
  rw [hp, (pubStands_iff s).2 hs]
  rfl

theorem completeReversal_waits {s : State} (h : s.demand.pending = false ∨ ¬ (s.pub.R = 0 ∧ s.pub.Mf < 20)) :
    completeReversal s = s := by
  unfold completeReversal
  refine if_neg fun hc => ?_
  obtain ⟨hp, hs⟩ := Bool.and_eq_true_iff.1 hc
  obtain h | h := h
  · rw [h] at hp
    cases hp
  · exact h ((pubStands_iff s).1 hs)

theorem completeReversal_holds (s : State) : (completeReversal s).holds = s.holds := by
  unfold completeReversal
  split
  · exact flipApplied_holds _ s
  · rfl

theorem completeReversal_frame (s : State) : PeriodFrame s (completeReversal s) :=
  periodFrame_turnLaws.completeReversal s

theorem completeReversal_pub (s : State) : (completeReversal s).pub = s.pub :=
  (congrArg State.pub (completeReversal_frame s) :)

/-! ### The BEACON entry (R34, R39, R40) -/

/-- The hold list of a list without its BEACON entries. -/
abbrev otherHolds (l : List Hold) : List Hold := l.filter (fun h => h.source != .beacon)

theorem find_beacon_map {h' : Hold} (hb : h'.source = .beacon) {l : List Hold} {h : Hold}
    (hf : l.find? (fun x => x.source == .beacon) = some h) :
    (l.map (fun x => if x.source = .beacon then h' else x)).find? (fun x => x.source == .beacon) = some h' := by
  induction l with
  | nil => cases hf
  | cons x l ih =>
    by_cases hx : x.source = .beacon
    · simp [hx, hb]
    · rw [List.find?_cons_of_neg (by simpa using hx)] at hf
      rw [List.map_cons, if_neg hx, List.find?_cons_of_neg (by simpa using hx)]
      exact ih hf

theorem otherHolds_map {h' : Hold} (hb : h'.source = .beacon) (l : List Hold) :
    otherHolds (l.map (fun x => if x.source = .beacon then h' else x)) = otherHolds l := by
  induction l with
  | nil => rfl
  | cons x l ih =>
    by_cases hx : x.source = .beacon
    · simpa [hx, hb] using ih
    · simpa [hx] using ih

theorem otherHolds_otherHolds (l : List Hold) : otherHolds (otherHolds l) = otherHolds l := by
  simp [List.filter_filter]

theorem find_beacon_otherHolds (l : List Hold) : (otherHolds l).find? (fun x => x.source == .beacon) = none := by
  simp

/-- The BEACON entry goes and the commanded direction is inverted (R39). -/
def dwellReversed (s : State) : State :=
  { s with
    holds := otherHolds s.holds
    demand := { s.demand with commanded := s.demand.commanded.flip, lastWriter := some .beacon } }

theorem dwellEnds_eq {s : State} {h : Hold} (hf : findHold s .beacon = some h) :
    dwellEnds s = if h.reverseAtEnd = true then reconcile (dirAgrees s) (dwellReversed s) else removeHold .beacon s := by
  unfold dwellEnds
  rw [hf]
  rfl

/-- The BEACON entry stands in DWELL (R39). -/
def inDwell (h : Hold) (s : State) : State :=
  { s with holds := s.holds.map (fun x => if x.source = .beacon
      then { h with phase := some .dwell, expiry := dwellExpiry s.partTime h.dwell } else x) }

theorem inDwell_otherHolds {h : Hold} (hb : h.source = .beacon) (s : State) :
    otherHolds (inDwell h s).holds = otherHolds s.holds :=
  otherHolds_map (h' := { h with phase := some .dwell, expiry := dwellExpiry s.partTime h.dwell }) hb s.holds

theorem findHold_inDwell {s : State} {h : Hold} (hf : findHold s .beacon = some h) :
    findHold (inDwell h s) .beacon =
      some { h with phase := some .dwell, expiry := dwellExpiry s.partTime h.dwell } :=
  find_beacon_map (h' := { h with phase := some .dwell, expiry := dwellExpiry s.partTime h.dwell })
    (Steer.findHold_spec hf).2 hf

theorem enterDwell_stays {s : State} {h : Hold} (hd : h.dwell ≠ some 0) : enterDwell h s = inDwell h s := by
  unfold enterDwell
  exact if_neg hd

theorem enterDwell_over {s : State} {h : Hold} (hf : findHold s .beacon = some h) (hd : h.dwell = some 0) :
    enterDwell h s =
      if h.reverseAtEnd = true then reconcile (dirAgrees s) (dwellReversed s) else removeHold .beacon s := by
  have hother := inDwell_otherHolds (Steer.findHold_spec hf).2 s
  have hreversed : dwellReversed (inDwell h s) = dwellReversed s :=
    (congrArg (fun l => { dwellReversed s with holds := l }) hother :)
  have hremoved : removeHold .beacon (inDwell h s) = removeHold .beacon s :=
    (congrArg (fun l => { s with holds := l }) hother :)
  have henter : enterDwell h s = dwellEnds (inDwell h s) := if_pos hd
  rw [henter, dwellEnds_eq (findHold_inDwell hf), hreversed, hremoved]
  rfl

theorem beginDwell_stands {s : State} (h : ∀ x, findHold s .beacon = some x → ¬ EntersDwell x s) : beginDwell s = s := by
  unfold beginDwell
  split
  next x hx => exact if_neg (h x hx)
  next => rfl

theorem beginDwell_enters {s : State} {h : Hold} (hf : findHold s .beacon = some h) (he : EntersDwell h s) :
    beginDwell s = enterDwell h s := by
  unfold beginDwell
  rw [hf]
  exact if_pos he

theorem removeHold_holds_other (s : State) : (removeHold .beacon s).holds = otherHolds s.holds := rfl

/-- A dwell that is over takes the BEACON entry out, whether it reverses or not. -/
theorem enterDwell_over_holds {s : State} {h : Hold} (hf : findHold s .beacon = some h) (hd : h.dwell = some 0) :
    (enterDwell h s).holds = otherHolds s.holds := by
  rw [enterDwell_over hf hd]
  split
  · exact (reconcile_reconciled _ _).holds
  · rfl

/-- A cap has run out by the published odometer (R34). -/
def CapOver (h : Hold) (s : State) : Prop :=
  ∃ o, h.expiry = .atOdometer o ∧ (s.pub.odometer - o).toNat < 2147483648

theorem expireCap_over {s : State} {h : Hold} (hf : findHold s .beacon = some h) (ho : CapOver h s) :
    expireCap s = removeHold .beacon s := by
  obtain ⟨o, he, hreached⟩ := ho
  obtain ⟨source, kind, value, decel, expiry, phase, dwell, reverse, origin, created⟩ := h
  cases he
  unfold expireCap
  rw [hf]
  exact if_pos (decide_eq_true hreached)

theorem expireCap_stands {s : State} (h : ∀ x, findHold s .beacon = some x → ¬ CapOver x s) : expireCap s = s := by
  unfold expireCap
  split
  next hf => exact if_neg fun hreached => h _ hf ⟨_, rfl, of_decide_eq_true hreached⟩
  next => rfl

theorem expireCap_frame (s : State) : ∃ l, expireCap s = { s with holds := l } := by
  unfold expireCap
  split
  · split <;> exact ⟨_, rfl⟩
  · exact ⟨_, rfl⟩

theorem expireCap_otherHolds (s : State) : otherHolds (expireCap s).holds = otherHolds s.holds := by
  unfold expireCap
  split
  · split
    · exact otherHolds_otherHolds _
    · rfl
  · rfl

theorem beginDwell_otherHolds (s : State) : otherHolds (beginDwell s).holds = otherHolds s.holds := by
  unfold beginDwell
  split
  next h hf =>
    split
    · by_cases hd : h.dwell = some 0
      · rw [enterDwell_over_holds hf hd]
        exact otherHolds_otherHolds _
      · rw [enterDwell_stays hd]
        exact inDwell_otherHolds (Steer.findHold_spec hf).2 s
    · rfl
  next => rfl

/-! ### The chuff, the motion event and the classification -/

/-- What follows the turns and the holds: the chuff and the motion event. -/
def eventsOf (old : MotionPhase) (isChuff : Bool) (s : State) : State := motionEvent old (if isChuff = true then chuff s else s)

theorem smokeChuff_offLoads (s : State) : (smokeChuff s).offLoads = s.offLoads := by
  unfold smokeChuff
  split <;> rfl

theorem chuff_offLoads (s : State) : (chuff s).offLoads = s.offLoads :=
  (smokeChuff_offLoads _).trans (offLoads_of_offSound (momentaryStart_offSound _ s))

theorem motionEvent_offSound (old : MotionPhase) (s : State) : (motionEvent old s).offSound = s.offSound := by
  unfold motionEvent
  split
  · exact momentaryStart_offSound _ s
  · split
    · exact momentaryStart_offSound _ s
    · rfl

theorem eventsOf_offLoads (old : MotionPhase) (b : Bool) (s : State) : (eventsOf old b s).offLoads = s.offLoads := by
  refine (offLoads_of_offSound (motionEvent_offSound old _)).trans ?_
  split
  · exact chuff_offLoads s
  · rfl

theorem chuff_smoke (s : State) : (chuff s).smoke = (smokeChuff s).smoke := by
  have hview : (momentaryStart (exhaustCue s) s).offSound = s.offSound := momentaryStart_offSound _ s
  unfold chuff
  generalize momentaryStart (exhaustCue s) s = u at hview ⊢
  have hsmoke : u.smoke = s.smoke := (congrArg State.smoke hview :)
  have hpub : u.pub = s.pub := (congrArg State.pub hview :)
  have hset : u.settings = s.settings := (congrArg State.settings hview :)
  have htime : u.partTime = s.partTime := (congrArg State.partTime hview :)
  unfold smokeChuff set8
  rw [hsmoke, hpub, hset, htime]
  split
  · rfl
  · exact hsmoke

theorem eventsOf_smoke (old : MotionPhase) (b : Bool) (s : State) :
    (eventsOf old b s).smoke = if b = true then (smokeChuff s).smoke else s.smoke := by
  refine (congrArg State.smoke (motionEvent_offSound old _) :).trans ?_
  show (if b = true then chuff s else s).smoke = _
  split
  · exact chuff_smoke s
  · rfl

theorem settle_frame (ended : Bool) (s : State) : ∃ m, settle ended s = s.withMotor m := by
  unfold settle classify
  split
  · exact ⟨_, rfl⟩
  · split
    · exact ⟨s.motor, rfl⟩
    · exact ⟨s.motor, rfl⟩
    · exact ⟨_, rfl⟩

/-- What a control period leaves, from the turns and holds that follow its set. -/
theorem afterPublish_eq_events (old : MotionPhase) (isChuff ended : Bool) (s : State) : ∃ m,
    afterPublish old isChuff ended s = (eventsOf old isChuff (expireCap (beginDwell (completeReversal s)))).withMotor m :=
  settle_frame ended _

theorem PeriodFrame.afterPublish (old : MotionPhase) (isChuff ended : Bool) (s : State) :
    PeriodFrame s (afterPublish old isChuff ended s) := by
  obtain ⟨m, hm⟩ := settle_frame ended (beforeSettle old isChuff s)
  have hframe : PeriodFrame s (beforeSettle old isChuff s) := periodFrame_turnLaws.beforeSettle old isChuff s
  rw [afterPublish_eq, hm]
  exact hframe.trans rfl

end Sys2Proof.Machine
end

section
/-! What follows a published set is what `FollowsPublishing` says (log 12). -/

namespace Sys2Proof.Machine

/-! ### The dwell that begins -/

theorem beginDwell_of_not_reverses {u : State} (h : ¬ ReversesAtOnce u u) : ∃ l, beginDwell u = { u with holds := l } := by
  by_cases he : ∃ x, findHold u .beacon = some x ∧ EntersDwell x u
  · obtain ⟨x, hf, he⟩ := he
    rw [beginDwell_enters hf he]
    by_cases hd : x.dwell = some 0
    · rw [enterDwell_over hf hd, if_neg fun hr => h ⟨x, hf, he, hd, hr⟩]
      exact ⟨_, rfl⟩
    · exact ⟨_, enterDwell_stays hd⟩
  · exact ⟨u.holds, beginDwell_stands fun x hf hx => he ⟨x, hf, hx⟩⟩

theorem beginDwell_of_reverses {u : State} (h : ReversesAtOnce u u) :
    beginDwell u = reconcile (dirAgrees u) (dwellReversed u) := by
  obtain ⟨x, hf, he, hd, hr⟩ := h
  rw [beginDwell_enters hf he, enterDwell_over hf hd, if_pos hr]

/-- The BEACON entry after the turn, the dwell and the cap's expiry, from the one before (R34, R39, R40). -/
theorem findHold_expired {u : State} {h : Hold} (hf : findHold u .beacon = some h) :
    (EntersDwell h u → h.dwell = some 0 → findHold (expireCap (beginDwell u)) .beacon = none) ∧
    (EntersDwell h u → h.dwell ≠ some 0 → findHold (expireCap (beginDwell u)) .beacon =
      some { h with phase := some .dwell, expiry := dwellExpiry u.partTime h.dwell }) ∧
    (¬ EntersDwell h u → CapOver h u → findHold (expireCap (beginDwell u)) .beacon = none) ∧
    (¬ EntersDwell h u → ¬ CapOver h u → findHold (expireCap (beginDwell u)) .beacon = some h) := by
  have hstands (he : ¬ EntersDwell h u) : beginDwell u = u := beginDwell_stands fun x hx hex => he (by
    rw [hf] at hx
    exact Option.some.inj hx ▸ hex)
  refine ⟨fun he hd => ?ended, fun he hd => ?stays, fun he hc => ?capOver, fun he hc => ?cap⟩
  case ended =>
    rw [beginDwell_enters hf he]
    have hnone : findHold (enterDwell h u) .beacon = none := by
      unfold findHold
      rw [enterDwell_over_holds hf hd]
      exact find_beacon_otherHolds _
    rw [expireCap_stands fun x hx => absurd hx (by rw [hnone]; exact (Option.some_ne_none x).symm)]
    exact hnone
  case stays =>
    rw [beginDwell_enters hf he, enterDwell_stays hd, expireCap_stands, findHold_inDwell hf]
    rintro x hx ⟨o, ho, -⟩
    rw [findHold_inDwell hf] at hx
    obtain rfl := Option.some.inj hx
    generalize hw : h.dwell = w at ho
    cases w <;> cases ho
  case capOver =>
    rw [hstands he, expireCap_over hf hc]
    exact find_beacon_otherHolds _
  case cap =>
    rw [hstands he, expireCap_stands fun x hx hover => hc (by rw [hf] at hx; exact Option.some.inj hx ▸ hover)]
    exact hf

theorem findHold_expired_none {u : State} (hf : findHold u .beacon = none) :
    findHold (expireCap (beginDwell u)) .beacon = none := by
  have hnone (x : Hold) : findHold u .beacon ≠ some x := by
    rw [hf]
    exact (Option.some_ne_none x).symm
  rw [beginDwell_stands fun x hx => absurd hx (hnone x), expireCap_stands fun x hx => absurd hx (hnone x)]
  exact hf

/-! ### The demand -/

/-- The directions after the turn and the dwell, where no dwell reverses (R28). -/
theorem demand_not_reversed {u : State} (h : ¬ ReversesAtOnce u u) :
    (expireCap (beginDwell u)).demand = u.demand ∧ asked (expireCap (beginDwell u)) = asked u ∧
      (expireCap (beginDwell u)).smoke = u.smoke := by
  obtain ⟨l, hl⟩ := beginDwell_of_not_reverses h
  obtain ⟨k, hk⟩ := expireCap_frame (beginDwell u)
  rw [hk, hl]
  exact ⟨rfl, rfl, rfl⟩

/-- The directions after a dwell of 0 s that reverses (R27, R39). -/
theorem demand_reversed {u : State} (h : ReversesAtOnce u u) :
    Reconciled (dwellReversed u) (beginDwell u) ∧ ∃ l, expireCap (beginDwell u) = { beginDwell u with holds := l } := by
  refine ⟨?_, expireCap_frame _⟩
  rw [beginDwell_of_reverses h]
  exact reconcile_reconciled _ _

/-! ### The sound -/

/-- The chuff and the motion event as the Sound Engine takes them, read off any state it hears alike (R117, R118). -/
theorem eventsOf_heard (old : MotionPhase) (isChuff : Bool) {q u : State} (h : q = soundIn q u) :
    let v := if isChuff = true then momentaryStart (exhaustCue u) u else u
    let w :=
      if old = .stopped ∧ u.pub.phase = .accelerating then momentaryStart (namedCue (set8 u 453)) v
      else if old ≠ .stopped ∧ u.pub.phase = .stopped then momentaryStart (namedCue (set8 u 454)) v
      else v
    (eventsOf old isChuff q).sound = w.sound ∧ (eventsOf old isChuff q).port = w.port := by
  have hset : q.settings = u.settings := (congrArg State.settings h :)
  have hpub : q.pub = u.pub := (congrArg State.pub h :)
  have hcue (n : Nat) : namedCue (set8 q n) = namedCue (set8 u n) := by
    unfold set8
    rw [hset]
  intro v w
  have hv : (if isChuff = true then chuff q else q) = soundIn (if isChuff = true then chuff q else q) v := by
    show _ = soundIn _ (if isChuff = true then momentaryStart (exhaustCue u) u else u)
    split
    · have hstart : momentaryStart (exhaustCue q) q = soundIn q (momentaryStart (exhaustCue u) u) := by
        have hc : exhaustCue q = exhaustCue u := hcue 458
        rw [hc]
        calc momentaryStart (exhaustCue u) q = momentaryStart (exhaustCue u) (soundIn q u) := congrArg _ h
          _ = soundIn q (momentaryStart (exhaustCue u) u) := momentaryStart_soundIn _ q u
      unfold chuff
      rw [hstart]
      generalize momentaryStart (exhaustCue u) u = x
      unfold smokeChuff
      split <;> rfl
    · exact h
  have hchuffed : (if isChuff = true then chuff q else q).pub = q.pub ∧
      (if isChuff = true then chuff q else q).settings = q.settings := by
    split
    · exact ⟨(congrArg State.pub (chuff_offLoads q) :), (congrArg State.settings (chuff_offLoads q) :)⟩
    · exact ⟨rfl, rfl⟩
  unfold eventsOf motionEvent
  generalize (if isChuff = true then chuff q else q) = x at hv hchuffed
  have hx (n : Nat) : namedCue (set8 x n) = namedCue (set8 u n) := by
    rw [← hcue n]
    unfold set8
    rw [hchuffed.2]
  rw [hx, hx, hchuffed.1, hpub]
  show _ = State.sound (if old = .stopped ∧ u.pub.phase = .accelerating then _ else _) ∧
    _ = State.port (if old = .stopped ∧ u.pub.phase = .accelerating then _ else _)
  split
  · exact momentaryStart_heard _ hv
  · split
    · exact momentaryStart_heard _ hv
    · exact ⟨(congrArg State.sound hv :), (congrArg State.port hv :)⟩

theorem Twin.soundIn {s t : State} (h : Twin s t) : t = Machine.soundIn t s := by
  obtain ⟨m, rfl⟩ := h
  rfl

/-! ### The whole -/

/-- `t` is what a control period from `s` leaves, and `q` the state whose pending reversal has just been looked at. -/
structure PeriodEnd (s q t : State) : Prop where
  found : q.holds = s.holds
  set : q.pub = t.pub
  now : q.partTime = s.partTime
  demand : t.demand = (expireCap (beginDwell q)).demand
  list : t.holds = (expireCap (beginDwell q)).holds
  asked : asked t = asked (expireCap (beginDwell q))
  wanted : wantedDir t = wantedDir (expireCap (beginDwell q))
  turns : s.demand.pending = true → t.pub.R = 0 ∧ t.pub.Mf < 20 → q.demand = { s.demand with
    applied := wantedDir s, pending := false
    step := if Machine.asked s 42 = false ∧ Machine.asked q 42 = true then 0 else s.demand.step }
  waits : s.demand.pending = false ∨ ¬ (t.pub.R = 0 ∧ t.pub.Mf < 20) → q.demand = s.demand ∧ q.smoke = s.smoke

namespace PeriodEnd
variable {s q t : State} (k : PeriodEnd s q t)
include k

theorem findHold_eq : findHold q .beacon = findHold s .beacon := by
  unfold findHold
  rw [k.found]

theorem findHold_end : findHold t .beacon = findHold (expireCap (beginDwell q)) .beacon := by
  unfold findHold
  rw [k.list]

theorem reverses_iff : ReversesAtOnce q q ↔ ReversesAtOnce s t := by
  unfold ReversesAtOnce EntersDwell
  rw [k.findHold_eq, k.set]

theorem demand_stands (h : ¬ ReversesAtOnce s t) :
    (s.demand.pending = true → t.pub.R = 0 ∧ t.pub.Mf < 20 → t.demand = { s.demand with
      applied := wantedDir s, pending := false
      step := if Machine.asked s 42 = false ∧ Machine.asked t 42 = true then 0 else s.demand.step }) ∧
    (s.demand.pending = false ∨ ¬ (t.pub.R = 0 ∧ t.pub.Mf < 20) → t.demand = s.demand) := by
  obtain ⟨hdemand, hasked, -⟩ := demand_not_reversed (mt k.reverses_iff.1 h)
  refine ⟨fun hp hs => ?_, fun hw => ?_⟩
  · rw [k.demand, k.asked, hdemand, hasked]
    exact k.turns hp hs
  · rw [k.demand, hdemand]
    exact (k.waits hw).1

/-- Whether the turn was made or waits, it leaves the commanded direction. -/
theorem commanded_eq : q.demand.commanded = s.demand.commanded := by
  by_cases h : s.demand.pending = true ∧ t.pub.R = 0 ∧ t.pub.Mf < 20
  · rw [k.turns h.1 h.2]
  · have hw : s.demand.pending = false ∨ ¬ (t.pub.R = 0 ∧ t.pub.Mf < 20) := by
      simpa [not_and_or] using not_and_or.1 h
    rw [(k.waits hw).1]

theorem demand_reverses (h : ReversesAtOnce s t) :
    t.demand.commanded = s.demand.commanded.flip ∧ t.demand.lastWriter = some .beacon ∧
      (t.demand.pending = true ↔ wantedDir t ≠ t.demand.applied) ∧
      (t.pub.R = 0 ∧ t.pub.Mf < 20 → t.demand.pending = false) := by
  obtain ⟨hrec, l, hl⟩ := demand_reversed (k.reverses_iff.2 h)
  have hdemand : t.demand = (beginDwell q).demand := by rw [k.demand, hl]
  have hwanted : wantedDir t = wantedDir (dwellReversed q) := by
    rw [k.wanted, hl]
    exact hrec.wantedDir_eq
  rw [hwanted, hdemand]
  refine ⟨?_, hrec.lastWriter, hrec.pending, fun hs => ?_⟩
  · rw [← k.commanded_eq]
    exact hrec.commanded
  · have happlied := hrec.applied
    rw [if_pos (show (dwellReversed q).pub.R = 0 ∧ (dwellReversed q).pub.Mf < 20 by rw [show (dwellReversed q).pub = q.pub from rfl, k.set]; exact hs)]
      at happlied
    exact Bool.eq_false_iff.2 fun hp => hrec.pending.1 hp happlied.symm

/-- Nothing else turns the locomotive. -/
theorem turned_stands (h : t.demand.applied ≠ s.demand.applied) : t.pub.R = 0 ∧ t.pub.Mf < 20 := by
  by_contra hs
  have hq := (k.waits (.inr hs)).1
  by_cases hr : ReversesAtOnce s t
  · obtain ⟨hrec, l, hl⟩ := demand_reversed (k.reverses_iff.2 hr)
    have happlied := hrec.applied
    rw [if_neg (show ¬ ((dwellReversed q).pub.R = 0 ∧ (dwellReversed q).pub.Mf < 20) by
      rw [show (dwellReversed q).pub = q.pub from rfl, k.set]; exact hs)] at happlied
    refine h ?_
    rw [k.demand, hl, ← hq]
    exact happlied
  · exact h (by rw [(k.demand_stands hr).2 (.inr hs)])

theorem others_stand : t.holds.filter (fun h => h.source != .beacon) = s.holds.filter (fun h => h.source != .beacon) := by
  rw [k.list, ← k.found]
  exact (expireCap_otherHolds _).trans (beginDwell_otherHolds q)

theorem beacon_none (h : findHold s .beacon = none) : findHold t .beacon = none := by
  rw [k.findHold_end]
  exact findHold_expired_none (k.findHold_eq.trans h)

theorem beacon_follows {h : Hold} (hf : findHold s .beacon = some h) :
    (EntersDwell h t → h.dwell = some 0 → findHold t .beacon = none) ∧
    (EntersDwell h t → h.dwell ≠ some 0 → findHold t .beacon = some { h with
      phase := some .dwell
      expiry := match h.dwell with
        | none => .absent
        | some d => .atTime (s.partTime + BitVec.ofNat 32 (d * 1000)) }) ∧
    (¬ EntersDwell h t → ∀ o, h.expiry = .atOdometer o → (t.pub.odometer - o).toNat < 2147483648 →
      findHold t .beacon = none) ∧
    (¬ EntersDwell h t → (∀ o, h.expiry = .atOdometer o → ¬ (t.pub.odometer - o).toNat < 2147483648) →
      findHold t .beacon = some h) := by
  have henters : EntersDwell h q = EntersDwell h t := by
    unfold EntersDwell
    rw [k.set]
  have hover : CapOver h q ↔ ∃ o, h.expiry = .atOdometer o ∧ (t.pub.odometer - o).toNat < 2147483648 := by
    unfold CapOver
    rw [k.set]
  obtain ⟨hended, hstays, hcapOver, hcap⟩ := findHold_expired (k.findHold_eq.trans hf)
  rw [henters, ← k.findHold_end] at hended hstays hcapOver hcap
  rw [hover] at hcapOver hcap
  refine ⟨hended, fun he hd => ?_, fun he o ho hr => hcapOver he ⟨o, ho, hr⟩, fun he hall => ?_⟩
  · rw [hstays he hd, k.now]
    cases h.dwell <;> rfl
  · exact hcap he fun ⟨o, ho, hr⟩ => hall o ho hr

end PeriodEnd

/-- The smoke after a turn that waits, the holds and the chuff. -/
theorem smokeChuff_ready {u : State} (h : (smokeChuff u).smoke.state = .ready) :
    (smokeChuff u).smoke.fan = .puff ∧ (smokeChuff u).smoke.fanLevel = set8 u 229 ∧
      (smokeChuff u).smoke.puffEnd =
        some (u.partTime + BitVec.ofNat 32 (set8 u 231 * (100 + (clamp 0 100 u.pub.L).toNat) / 100)) := by
  by_cases hr : u.smoke.state = .ready
  · unfold smokeChuff
    rw [if_pos hr]
    exact ⟨rfl, rfl, rfl⟩
  · unfold smokeChuff at h
    rw [if_neg hr] at h
    exact absurd h hr

/-- The state at the end of the turn and of the holds, but for the loads the one before them (R28, R34, R39). -/
theorem settled_frame (p : State) : PeriodFrame p (expireCap (beginDwell (completeReversal p))) :=
  ((completeReversal_frame p).trans (periodFrame_turnLaws.beginDwell _)).trans (periodFrame_turnLaws.expireCap _)

theorem periodEnd (s : State) (M m : Motor) (P : Published) (isChuff : Bool) :
    PeriodEnd s (completeReversal { s with motor := M, pub := P }) ((eventsOf s.pub.phase isChuff
      (expireCap (beginDwell (completeReversal { s with motor := M, pub := P })))).withMotor m) := by
  have hholds := completeReversal_holds { s with motor := M, pub := P }
  have hframe := completeReversal_frame { s with motor := M, pub := P }
  have hend := settled_frame { s with motor := M, pub := P }
  have hturn := completeReversal_turns (s := { s with motor := M, pub := P })
  have hwait := completeReversal_waits (s := { s with motor := M, pub := P })
  have hdemand := flipApplied_demand (wantedDir s) { s with motor := M, pub := P }
  generalize completeReversal { s with motor := M, pub := P } = q at hholds hframe hend hturn hwait ⊢
  have hloads := eventsOf_offLoads s.pub.phase isChuff (expireCap (beginDwell q))
  generalize eventsOf s.pub.phase isChuff (expireCap (beginDwell q)) = e at hloads ⊢
  have hset : e.pub = P := (congrArg State.pub hloads :).trans (congrArg State.pub hend :)
  have hed : e.demand = (expireCap (beginDwell q)).demand := (congrArg State.demand hloads :)
  have hes : e.settings = (expireCap (beginDwell q)).settings := (congrArg State.settings hloads :)
  exact
    { found := hholds
      set := (congrArg State.pub hframe :).trans hset.symm
      now := (congrArg State.partTime hframe :)
      demand := hed
      list := (congrArg State.holds hloads :)
      asked := (asked_of_offLoads hloads :)
      wanted := wantedDir_of_eq (consistReversed_of_settings hes) (congrArg Demand.commanded hed)
      turns := fun hp hs => by
        rw [show (State.withMotor m e).pub = P from hset] at hs
        rw [hturn hp hs]
        exact hdemand
      waits := fun hw => by
        rw [show (State.withMotor m e).pub = P from hset] at hw
        rw [hwait hw]
        exact ⟨rfl, rfl⟩ }

theorem soundFollowsPublishing (s : State) (M m : Motor) (P : Published) {isChuff : Bool}
    (hchuff : isChuff = true ↔ set8 s 71 ≠ 1 ∧ set16 s 69 ≤ s.motor.chuffAcc + P.Mf) :
    SoundFollowsPublishing s ((eventsOf s.pub.phase isChuff
      (expireCap (beginDwell (completeReversal { s with motor := M, pub := P })))).withMotor m) := by
  have hset : (eventsOf s.pub.phase isChuff
      (expireCap (beginDwell (completeReversal { s with motor := M, pub := P })))).pub = P :=
    (congrArg State.pub (eventsOf_offLoads s.pub.phase isChuff _) :).trans
      (congrArg State.pub (settled_frame { s with motor := M, pub := P }) :)
  unfold SoundFollowsPublishing
  dsimp only
  rw [show (State.withMotor m (eventsOf s.pub.phase isChuff
    (expireCap (beginDwell (completeReversal { s with motor := M, pub := P }))))).pub = P from hset]
  generalize { (State.withMotor m (eventsOf s.pub.phase isChuff
    (expireCap (beginDwell (completeReversal { s with motor := M, pub := P }))))).motor with state := P.motorState } = x
  have htwin : Twin { s with motor := x, pub := P } { s with motor := M, pub := P } := ⟨M, rfl⟩
  have hheard := eventsOf_heard s.pub.phase isChuff htwin.completeReversal.beginDwell.expireCap.soundIn
  have hend := settled_frame { s with motor := x, pub := P }
  generalize expireCap (beginDwell (completeReversal { s with motor := M, pub := P })) = r at hheard ⊢
  generalize expireCap (beginDwell (completeReversal { s with motor := x, pub := P })) = u at hheard hend ⊢
  have hsettings : u.settings = s.settings := (congrArg State.settings hend :)
  have hpub : u.pub = P := (congrArg State.pub hend :)
  have hcue (n : Nat) : set8 u n = set8 s n := by
    unfold set8
    rw [hsettings]
  have hexhaust : exhaustCue u = exhaustCue s := congrArg namedCue (hcue 458)
  dsimp only at hheard
  rw [hpub, hexhaust, hcue, hcue] at hheard
  simp only [hchuff] at hheard
  exact hheard

/-- A published set and what follows it: `M` is the motor's record as the period leaves it, `P` the set. -/
theorem followsPublishing (s : State) (M : Motor) (P : Published) {isChuff : Bool} (ended : Bool)
    (hchuff : isChuff = true ↔ set8 s 71 ≠ 1 ∧ set16 s 69 ≤ s.motor.chuffAcc + P.Mf) :
    FollowsPublishing s (afterPublish s.pub.phase isChuff ended { s with motor := M, pub := P }) := by
  obtain ⟨m, hm⟩ := afterPublish_eq_events s.pub.phase isChuff ended { s with motor := M, pub := P }
  have hsound := soundFollowsPublishing s M m P hchuff
  have k := periodEnd s M m P isChuff
  have hsmoke := eventsOf_smoke s.pub.phase isChuff
    (expireCap (beginDwell (completeReversal { s with motor := M, pub := P })))
  have hframe := settled_frame { s with motor := M, pub := P }
  have hset : (State.withMotor m (eventsOf s.pub.phase isChuff
      (expireCap (beginDwell (completeReversal { s with motor := M, pub := P }))))).pub = P :=
    k.set.symm.trans (completeReversal_pub _)
  rw [hm]
  generalize completeReversal { s with motor := M, pub := P } = q at k hsound hsmoke hset hframe ⊢
  change (State.withMotor m (eventsOf s.pub.phase isChuff (expireCap (beginDwell q)))).smoke = _ at hsmoke
  generalize State.withMotor m (eventsOf s.pub.phase isChuff (expireCap (beginDwell q))) = t at k hsound hsmoke hset ⊢
  have hchuffs : isChuff = true ↔ set8 s 71 ≠ 1 ∧ set16 s 69 ≤ s.motor.chuffAcc + t.pub.Mf := by
    rw [hset]
    exact hchuff
  refine ⟨fun h => ⟨(k.demand_stands h).1, fun hw => ⟨(k.demand_stands h).2 hw, fun hno => ?unpuffed⟩⟩,
    k.demand_reverses, k.turned_stands, k.others_stand, k.beacon_none, fun _ hf => k.beacon_follows hf,
    fun hc hready => ?puffed, hsound⟩
  case unpuffed =>
    rw [hsmoke, if_neg (mt hchuffs.1 hno), (demand_not_reversed (mt k.reverses_iff.1 h)).2.2]
    exact (k.waits hw).2
  case puffed =>
    rw [if_pos (hchuffs.2 hc)] at hsmoke
    rw [hsmoke] at hready ⊢
    generalize expireCap (beginDwell q) = r at hready hframe ⊢
    have hsettings : r.settings = s.settings := (congrArg State.settings hframe :)
    have hpub : r.pub = t.pub := (congrArg State.pub hframe :).trans hset.symm
    have htime : r.partTime = s.partTime := (congrArg State.partTime hframe :)
    have hpuff := smokeChuff_ready hready
    unfold set8 at hpuff ⊢
    rw [hsettings, hpub, htime] at hpuff
    exact hpuff

end Sys2Proof.Machine
end

section
/-! A control period by its stages (R3, R6 to R11, R13, R22, R24): the motor's record it publishes and leaves. -/

namespace Sys2Proof.Machine

/-! ### The motor's record at stage 7 and after R13 -/

/-- The motor's record after stage 7 (R22, R24), from the one `X` after stages 3 to 6. -/
def finished (s : State) (before : Nat) (driving : Bool) (X : Motor) : Motor :=
  { X with
    odometer := X.odometer + BitVec.ofNat 32 X.Mf
    chuffAcc := if set8 s 71 == 1 then 0 else (chuffStep (set16 s 69) X.chuffAcc X.Mf).1
    labour := if driving then (X.Da : Int) - (feedForward (loopSettings s) X.R : Int) else 0
    phase := phaseOf before X }

/-- A chuff is due at stage 7 (R22). -/
def chuffDue (s : State) (X : Motor) : Bool :=
  !(set8 s 71 == 1) && (chuffStep (set16 s 69) X.chuffAcc X.Mf).2

/-- The set published of a motor's record (R24). -/
def publishedOf (M : Motor) : Published :=
  { R := M.R, Mf := M.Mf, Da := M.Da, C := M.C, L := M.labour, phase := M.phase, motorState := M.state,
    odometer := M.odometer }

/-- The motor's record that the end of a control period leaves (R13, R20). -/
def settledMotor (ended pending : Bool) (m : Motor) : Motor :=
  if (ended || m.checkShorted) = true then { m with checkShorted := false }
  else match m.state with
    | .check => m
    | .fault => m
    | _ => { m with state := if pending then .reversing else if m.R = 0 ∧ m.Mf < 20 then .stopped else .running }

theorem settle_motor (ended : Bool) (s : State) :
    (settle ended s).motor = settledMotor ended s.demand.pending s.motor := by
  unfold settle settledMotor classify
  split
  · rfl
  · cases s.motor.state <;> rfl

theorem settle_demand (ended : Bool) (s : State) : (settle ended s).demand = s.demand := by
  obtain ⟨m, hm⟩ := settle_frame ended s
  rw [hm]
  rfl

/-- A control period, from the motor's record `m0` at stage 0 and the state `u` after stage 6. -/
theorem controlPeriod_stages {s u : State} {m0 : Motor} {c b : Nat}
    (hbegin : (if 0 < sEff s then abandonCheck (startCheck s) else startCheck s) = { s with motor := m0 })
    (hmiddle : middleStages (sEff s) b (accelInUse s) (decelInEffect s) (measure c b { s with motor := m0 }) = u) :
    (let M := finished u (if s.supply.state = .dark then s.pub.R else m0.R)
       (u.supply.state != .dark && !(m0.state == .check) && u.motor.state != .fault) u.motor
     controlPeriod c b s = afterPublish s.pub.phase (chuffDue u u.motor) (m0.state == .check && u.motor.state != .check)
       { u with motor := M, pub := publishedOf M }) := by
  unfold accelInUse at hmiddle
  unfold controlPeriod
  dsimp only
  rw [hbegin, hmiddle]
  rfl

/-- A control period that takes no motor fault, from the motor's records `m0` at stage 0 and `X` after stage 6. -/
theorem controlPeriod_eq {s : State} {m0 X : Motor} {c b : Nat}
    (hbegin : (if 0 < sEff s then abandonCheck (startCheck s) else startCheck s) = { s with motor := m0 })
    (hmiddle : middleStages (sEff s) b (accelInUse s) (decelInEffect s) (measure c b { s with motor := m0 }) =
      { s with motor := X }) :
    (let M := finished s (if s.supply.state = .dark then s.pub.R else m0.R)
       (s.supply.state != .dark && !(m0.state == .check) && X.state != .fault) X
     controlPeriod c b s = afterPublish s.pub.phase (chuffDue s X) (m0.state == .check && X.state != .check)
       { s with motor := M, pub := publishedOf M }) :=
  controlPeriod_stages hbegin hmiddle

theorem exec_controlPeriod {s : State} (h : s.phase = .running) (c b : Nat) :
    exec (.controlPeriod c b) s = .next (controlPeriod c b s) := congrArg _ (if_pos h)

/-- No check runs or is accepted: stage 0 begins with the state as it stands. -/
theorem begin_idle {s : State} (h : s.motor.checking = false) :
    (if 0 < sEff s then abandonCheck (startCheck s) else startCheck s) = { s with motor := s.motor } := by
  have haccepted : s.motor.checkAccepted = false := (Bool.or_eq_false_iff.1 h).2
  have hstart : startCheck s = s := by
    unfold startCheck
    rw [haccepted]
    rfl
  have habandon : abandonCheck s = s := by
    unfold abandonCheck
    rw [h]
    rfl
  rw [hstart, habandon, ite_self]

theorem checking_iff (m : Motor) : m.checking = false ↔ m.state ≠ .check ∧ m.checkAccepted = false := by
  unfold Motor.checking
  rw [Bool.or_eq_false_iff, beq_eq_false_iff_ne]

/-! ### What follows leaves the motor's record -/

theorem eventsOf_motor (old : MotionPhase) (b : Bool) (s : State) : (eventsOf old b s).motor = s.motor :=
  (congrArg State.motor (eventsOf_offLoads old b s) :)

theorem beforeSettle_of_stands {old : MotionPhase} {b : Bool} {p : State} (hturn : completeReversal p = p)
    (hdwell : beginDwell p = p) : (beforeSettle old b p).motor = p.motor ∧ (beforeSettle old b p).demand = p.demand := by
  have hevents : beforeSettle old b p = eventsOf old b (expireCap (beginDwell (completeReversal p))) := rfl
  obtain ⟨l, hl⟩ := expireCap_frame p
  rw [hevents, hturn, hdwell, hl]
  exact ⟨eventsOf_motor _ _ _, (congrArg State.demand (eventsOf_offLoads old b { p with holds := l }) :)⟩

/-- The motor's record with the integral and both accumulators cleared (R12). -/
def Motor.cleared (m : Motor) : Motor := { m with I := 0, rising := 0, falling := 0 }

/-- The motor's record stands or is cleared by a flip. -/
def TurnsIdle (s t : State) : Prop := s.motor.checking = false → t.motor = s.motor ∨ t.motor = s.motor.cleared

theorem turnsIdle_laws : TurnLaws TurnsIdle where
  refl _ _ := .inl rfl
  trans := fun {a b c} h k hc => by
    obtain hb | hb := h hc
    · exact hb ▸ k (hb.symm ▸ hc)
    · have hcleared : b.motor.checking = false := by
        rw [hb]
        exact hc
      obtain hk | hk := k hcleared
      · exact .inr (hk.trans hb)
      · refine .inr ?_
        rw [hk, hb]
        rfl
  start c held s _ := .inl (congrArg State.motor (startRequest_offSound c held s) :)
  trigger c s _ := .inl (congrArg State.motor (triggerEnd_offSound c s) :)
  decide s _ := .inl (smokeDecide_motor s)
  chuffed s _ := .inl (congrArg State.motor (smokeChuff_offLoads s) :)
  demand _ _ _ := .inl rfl
  holds _ _ _ := .inl rfl
  turn d s hc := by
    refine .inr ?_
    unfold turned abandonCheck
    rw [show Motor.checking { s.motor with I := 0, rising := 0, falling := 0 } = false from hc]
    rfl

/-- A turn comes at a standstill whose target is 0, where the integral and the accumulators are 0 anyway. -/
theorem beforeSettle_motor {old : MotionPhase} {b : Bool} {p : State} (hcheck : p.motor.checking = false)
    (hrest : sEff p = 0 → p.pub.R = 0 → p.motor.cleared = p.motor) : (beforeSettle old b p).motor = p.motor := by
  by_cases hr : sEff p = 0 ∧ p.pub.R = 0
  · have h : TurnsIdle p (beforeSettle old b p) := turnsIdle_laws.beforeSettle old b p
    exact (h hcheck).elim id fun h => h.trans (hrest hr.1 hr.2)
  · refine (beforeSettle_of_stands (completeReversal_waits ?_) (beginDwell_stands fun x hx he => ?_)).1
    · by_contra hw
      obtain ⟨hp, hs⟩ := not_or.1 hw
      exact hr ⟨sEff_stopped (.inr (.inl (eq_true_of_ne_false hp))), (not_not.1 hs).1⟩
    · exact hr ⟨sEff_stopped (.inl ⟨x, (Steer.findHold_spec hx).1, he.1⟩), he.2.2⟩

/-- A control period leaves the motor's record of stage 7, classified. -/
theorem afterPublish_motor {old : MotionPhase} {b : Bool} {p : State} (ended : Bool)
    (h : (beforeSettle old b p).motor = p.motor) : (afterPublish old b ended p).motor =
      settledMotor ended (afterPublish old b ended p).demand.pending p.motor := by
  rw [afterPublish_eq, settle_motor, settle_demand, h]

theorem settledMotor_eq (ended pending : Bool) (m : Motor) :
    ∃ st f, settledMotor ended pending m = { m with state := st, checkShorted := f } := by
  unfold settledMotor
  split
  · exact ⟨_, _, rfl⟩
  · split
    · exact ⟨m.state, m.checkShorted, rfl⟩
    · exact ⟨m.state, m.checkShorted, rfl⟩
    · exact ⟨_, m.checkShorted, rfl⟩

/-! ### What is measured and published (R3, R9, R22, R24) -/

theorem filterSpeed_eq (mf b : Nat) : (filterSpeed mf b : Int) = (mf : Int) + Int.tdiv ((b : Int) - (mf : Int)) 4 := by
  have hbounded : 0 ≤ (mf : Int) + Int.tdiv ((b : Int) - (mf : Int)) 4 := by
    obtain h | h := Nat.le_total mf b
    · have hq : 0 ≤ Int.tdiv ((b : Int) - (mf : Int)) 4 := Int.tdiv_nonneg (by omega) (by omega)
      omega
    · obtain ⟨d, rfl⟩ := Nat.exists_eq_add_of_le h
      have hq : Int.tdiv ((b : Int) - ((b + d : Nat) : Int)) 4 = -((d / 4 : Nat) : Int) := by
        rw [show (b : Int) - ((b + d : Nat) : Int) = -(d : Int) by omega, Int.neg_tdiv]
        exact congrArg Neg.neg (Int.ofNat_tdiv d 4).symm
      rw [hq]
      omega
  exact Int.toNat_of_nonneg hbounded

theorem chuffStep_acc (span acc mf : Nat) :
    (chuffStep span acc mf).1 = if span ≤ acc + mf then min (acc + mf - span) (span - 1) else acc + mf := by
  unfold chuffStep
  dsimp only
  split <;> rfl

theorem chuffDue_iff (s : State) (X : Motor) :
    chuffDue s X = true ↔ set8 s 71 ≠ 1 ∧ set16 s 69 ≤ X.chuffAcc + X.Mf := by
  have hstep : (chuffStep (set16 s 69) X.chuffAcc X.Mf).2 = true ↔ set16 s 69 ≤ X.chuffAcc + X.Mf := by
    unfold chuffStep
    dsimp only
    split <;> simp_all
  unfold chuffDue
  rw [Bool.and_eq_true, hstep, Bool.not_eq_true', beq_eq_false_iff_ne]

/-- The motor's record has this period's measurements, and the odometer and the chuff accumulator of the last one. -/
structure Measured (c b : Nat) (s : State) (X : Motor) : Prop where
  current : X.C = c
  speed : X.Mf = filterSpeed s.motor.Mf b
  cap : X.cap = foldCap (set16 s 66) c s.motor.cap
  odometer : X.odometer = s.motor.odometer
  chuffAcc : X.chuffAcc = s.motor.chuffAcc

theorem measured_measure {c b : Nat} (hc : c ≤ 8190) (hb : b ≤ 4095) (s : State) : Measured c b s (measure c b s).motor where
  current := Nat.min_eq_right hc
  speed := congrArg (filterSpeed s.motor.Mf) (Nat.min_eq_right hb)
  cap := by
    show foldCap (set16 s 66) (min 8190 c) s.motor.cap = _
    rw [Nat.min_eq_right hc]
  odometer := rfl
  chuffAcc := rfl

/-- What a period whose record after stage 6 is `X` measures and publishes. -/
theorem measuredAndPublished {s t : State} {X : Motor} {c b before : Nat} {driving : Bool} (hX : Measured c b s X)
    (hpub : t.pub = publishedOf (finished s before driving X))
    (hmotor : ∃ st f, t.motor = { finished s before driving X with state := st, checkShorted := f }) :
    MeasuredAndPublished X.state c b s t := by
  obtain ⟨st, f, hm⟩ := hmotor
  have hMf : t.motor.Mf = filterSpeed s.motor.Mf b := by
    rw [hm]
    exact hX.speed
  refine ⟨?current, ?speed, ?cap, ?odometer, ?chuffAcc, ?set⟩
  case current => rw [hm]; exact hX.current
  case speed => rw [hMf]; exact filterSpeed_eq _ _
  case cap => rw [hm]; exact hX.cap
  case odometer =>
    rw [hMf, hm, ← hX.speed, ← hX.odometer]
    rfl
  case chuffAcc =>
    rw [hMf, hm, ← hX.speed, ← hX.chuffAcc]
    refine Eq.trans ?_ (if_congr (beq_iff_eq (a := set8 s 71)) rfl (chuffStep_acc _ _ _))
    rfl
  case set =>
    rw [hpub, hm]
    rfl

end Sys2Proof.Machine
end

section
/-! A control period that drives, and one in FAULT or in DARK. Settles O14 and O15. -/

namespace Sys2Proof.Machine

/-! ### Stages 3 to 6 (R6 to R10, R15, R16) -/

/-- One move of the reference reads the reference and its accumulators alone. -/
theorem moveReference_congr {m n : Motor} (hR : m.R = n.R) (hup : m.rising = n.rising) (hdown : m.falling = n.falling)
    (target : Nat) (a : Option Nat) (d : EffDecel) :
    (moveReference target a d m).R = (moveReference target a d n).R ∧
    (moveReference target a d m).rising = (moveReference target a d n).rising ∧
    (moveReference target a d m).falling = (moveReference target a d n).falling := by
  obtain h | h | h := Nat.lt_trichotomy m.R target
  · cases a with
    | none =>
      rw [moveReference_up_instant h, moveReference_up_instant (hR ▸ h)]
      exact ⟨rfl, rfl, rfl⟩
    | some a =>
      rw [moveReference_rampUp h, moveReference_rampUp (hR ▸ h), hR, hup]
      exact ⟨rfl, rfl, rfl⟩
  · rw [moveReference_there h, moveReference_there (hR ▸ h)]
    exact ⟨hR, rfl, rfl⟩
  · cases d with
    | instant =>
      rw [moveReference_down_instant h, moveReference_down_instant (hR ▸ h)]
      exact ⟨rfl, rfl, rfl⟩
    | rate r =>
      rw [moveReference_rampDown h, moveReference_rampDown (hR ▸ h), hR, hdown]
      exact ⟨rfl, rfl, rfl⟩

/-- A reference that rests has cleared both accumulators (R7). -/
theorem moveReference_rests {m : Motor} {a : Option Nat} {d : EffDecel} (h : (moveReference 0 a d m).R = 0) :
    (moveReference 0 a d m).rising = 0 ∧ (moveReference 0 a d m).falling = 0 := by
  obtain hm | hm := Nat.eq_zero_or_pos m.R
  · rw [moveReference_there hm]
    exact ⟨rfl, rfl⟩
  · cases d with
    | instant =>
      rw [moveReference_down_instant hm]
      exact ⟨rfl, rfl⟩
    | rate r =>
      rw [moveReference_rampDown hm] at h ⊢
      dsimp only at h ⊢
      exact ⟨rfl, if_neg (by omega)⟩

theorem speedLoop_rests {k : LoopSettings} {target : Nat} {m : Motor} (h : m.R = 0 ∧ target = 0) :
    speedLoop k target m = { m with I := 0, Da := 0 } := if_pos h

theorem speedLoop_goes {k : LoopSettings} {target : Nat} {m : Motor} (h : ¬ (m.R = 0 ∧ target = 0)) :
    speedLoop k target m = { m with
      I := if holdsIntegral k m then m.I else provisionalI k m, Da := min (demandedDuty k m) m.cap } := if_neg h

theorem holdsIntegral_iff (k : LoopSettings) (m : Motor) : holdsIntegral k m = true ↔
    (1023 < rawDrive k m ∧ (0 : Int) < (m.R : Int) - m.Mf) ∨ (rawDrive k m < 0 ∧ (m.R : Int) - m.Mf < 0) ∨
      (m.cap < demandedDuty k m ∧ (0 : Int) < (m.R : Int) - m.Mf) := by
  unfold holdsIntegral
  simp only [Bool.or_eq_true, Bool.and_eq_true, decide_eq_true_eq, or_assoc]

/-- Stages 4 to 6 of one period: the duty and the integral (R8 to R10). -/
theorem speedLoop_duty_integral (k : LoopSettings) (target : Nat) (m : Motor) :
    (m.R = 0 ∧ target = 0 → (speedLoop k target m).Da = 0 ∧ (speedLoop k target m).I = 0) ∧
    (¬ (m.R = 0 ∧ target = 0) → (speedLoop k target m).Da = min (demandedDuty k m) m.cap ∧
      (holdsIntegral k m = true → (speedLoop k target m).I = m.I) ∧
      (¬ holdsIntegral k m = true → (speedLoop k target m).I = provisionalI k m)) := by
  refine ⟨fun h => ?_, fun h => ?_⟩
  · rw [speedLoop_rests h]
    exact ⟨rfl, rfl⟩
  · rw [speedLoop_goes h]
    exact ⟨rfl, fun hh => if_pos hh, fun hh => if_neg hh⟩

/-- What the speed loop leaves alone. -/
theorem speedLoop_same (k : LoopSettings) (target : Nat) (m : Motor) :
    ∃ i da, speedLoop k target m = { m with I := i, Da := da } := by
  unfold speedLoop
  dsimp only
  split <;> exact ⟨_, _, rfl⟩

theorem Measured.of_eq {c b : Nat} {s : State} {X Y : Motor} (h : Measured c b s X) (hC : Y.C = X.C) (hMf : Y.Mf = X.Mf)
    (hcap : Y.cap = X.cap) (hodo : Y.odometer = X.odometer) (hacc : Y.chuffAcc = X.chuffAcc) : Measured c b s Y :=
  ⟨hC.trans h.current, hMf.trans h.speed, hcap.trans h.cap, hodo.trans h.odometer, hacc.trans h.chuffAcc⟩

/-- The motor's record after stage 3 (R6, R7). -/
def movedMotor (c b : Nat) (s : State) : Motor :=
  moveReference (sEff s) (accelInUse s) (decelInEffect s) (measure c b s).motor

theorem drivenMotor_eq (c b : Nat) (s : State) :
    drivenMotor c b s = speedLoop (loopSettings s) (sEff s) (movedMotor c b s) := rfl

theorem movedMotor_reference (c b : Nat) (s : State) :
    let r := moveReference (sEff s) (accelInUse s) (decelInEffect s) s.motor
    (movedMotor c b s).R = r.R ∧ (movedMotor c b s).rising = r.rising ∧ (movedMotor c b s).falling = r.falling :=
  moveReference_congr (m := (measure c b s).motor) (n := s.motor) rfl rfl rfl _ _ _

theorem movedMotor_same (c b : Nat) (s : State) :
    ∃ r up down, movedMotor c b s = { (measure c b s).motor with R := r, rising := up, falling := down } :=
  Lit.moveReference_same _ _ _ _

theorem measured_moved {c b : Nat} (hc : c ≤ 8190) (hb : b ≤ 4095) (s : State) : Measured c b s (movedMotor c b s) := by
  obtain ⟨r, up, down, h⟩ := movedMotor_same c b s
  rw [h]
  exact (measured_measure hc hb s).of_eq rfl rfl rfl rfl rfl

/-- A reference and a target of 0 come with an integral and accumulators of 0 (R7, R10). -/
theorem drivenMotor_rests {c b : Nat} {s : State} (ht : sEff s = 0) (hR : (movedMotor c b s).R = 0) :
    (drivenMotor c b s).I = 0 ∧ (movedMotor c b s).rising = 0 ∧ (movedMotor c b s).falling = 0 := by
  refine ⟨((speedLoop_duty_integral _ _ _).1 ⟨hR, ht⟩).2, ?_⟩
  unfold movedMotor at hR ⊢
  rw [ht] at hR ⊢
  exact moveReference_rests hR

/-- The motor's record after the detectors' counts (R15, R16). -/
def countedMotor (c b : Nat) (s : State) : Motor := countFaults (drivenMotor c b s)

theorem countFaults_counts (m : Motor) :
    (countFaults m).stallCount = (if 1000 ≤ m.Da ∧ m.Mf < m.R / 8 then min 1000 (m.stallCount + 1) else 0) ∧
    (countFaults m).openCount = (if 200 ≤ m.Da ∧ m.C < 20 ∧ m.Mf < 10 then min 100 (m.openCount + 1) else 0) := by
  refine ⟨if_congr ?_ rfl rfl, if_congr ?_ rfl rfl⟩
  · unfold stallCondition
    rw [Bool.and_eq_true, decide_eq_true_eq, decide_eq_true_eq]
  · unfold openCondition
    simp only [Bool.and_eq_true, decide_eq_true_eq, and_assoc]

/-- What the period leaves of the motor's record beside its own values. -/
theorem countedMotor_same (c b : Nat) (s : State) :
    ∃ (r : Nat) (i : Int) (da up down sc oc : Nat), countedMotor c b s = { (measure c b s).motor with
      R := r, I := i, Da := da, rising := up, falling := down, stallCount := sc, openCount := oc } :=
  (Lit.driven_same _ _ _ _ _).2

theorem middleStages_drives {s : State} (h : Drives s) (c b : Nat) :
    middleStages (sEff s) b (accelInUse s) (decelInEffect s) (measure c b { s with motor := s.motor }) =
      detectFaults { s with motor := countedMotor c b s } := by
  obtain ⟨-, hdark, hcheck, -, hfault⟩ := h
  unfold middleStages
  rw [if_neg (show ¬ (measure c b { s with motor := s.motor }).supply.state = .dark from hdark)]
  split
  next hf => exact absurd hf hfault
  next hc _ => exact absurd hc hcheck
  next => rfl

theorem detectFaults_none {s : State} (hopen : s.motor.openCount < 100)
    (hstall : s.motor.stallCount = 0 ∨ s.motor.stallCount < set8 s 68 * 10) : detectFaults s = s := by
  unfold detectFaults
  rw [if_neg (by omega), if_neg (by omega)]

/-! ### A control period that drives -/

theorem Drives.checking {s : State} (h : Drives s) : s.motor.checking = false :=
  (checking_iff _).2 ⟨h.2.2.1, h.2.2.2.1⟩

theorem settledMotor_drives {m : Motor} (hcheck : m.state ≠ .check) (hfault : m.state ≠ .fault) (pending : Bool) :
    settledMotor false pending m = { m with
      state := if m.checkShorted then m.state else if pending then .reversing
        else if m.R = 0 ∧ m.Mf < 20 then .stopped else .running
      checkShorted := false } := by
  unfold settledMotor
  rw [Bool.false_or]
  cases hshort : m.checkShorted with
  | true => rfl
  | false =>
    cases hstate : m.state with
    | check => exact absurd hstate hcheck
    | fault => exact absurd hstate hfault
    | _ => rfl

/-- The period's record at stage 7. -/
def drivenFinished (c b : Nat) (s : State) : Motor := finished s s.motor.R true (countedMotor c b s)

theorem drivenFinished_state (c b : Nat) (s : State) : (drivenFinished c b s).state = s.motor.state ∧
    (drivenFinished c b s).checkAccepted = s.motor.checkAccepted ∧
    (drivenFinished c b s).checkShorted = s.motor.checkShorted ∧ (drivenFinished c b s).fault = s.motor.fault := by
  obtain ⟨r, i, da, up, down, sc, oc, h⟩ := countedMotor_same c b s
  unfold drivenFinished
  rw [h]
  exact ⟨rfl, rfl, rfl, rfl⟩

/-- A control period that drives and detects no fault, by its record of stage 7. -/
theorem controlPeriod_drives {s : State} {c b : Nat} (h : Drives s)
    (hmiddle : detectFaults { s with motor := countedMotor c b s } = { s with motor := countedMotor c b s }) :
    controlPeriod c b s = afterPublish s.pub.phase (chuffDue s (countedMotor c b s)) false
      { s with motor := drivenFinished c b s, pub := publishedOf (drivenFinished c b s) } := by
  obtain ⟨-, hdark, hcheck, -, hfault⟩ := id h
  have hnot : (s.motor.state == .check) = false := beq_eq_false_iff_ne.2 hcheck
  have hdriving : (s.supply.state != .dark && !(s.motor.state == .check) && (countedMotor c b s).state != .fault) = true := by
    have hstate : (countedMotor c b s).state = s.motor.state := (drivenFinished_state c b s).1
    rw [hnot, hstate, bne_iff_ne.2 hdark, bne_iff_ne.2 hfault]
    rfl
  have hperiod := controlPeriod_eq (begin_idle h.checking) ((middleStages_drives h c b).trans hmiddle)
  rw [if_neg hdark, hdriving, hnot] at hperiod
  exact hperiod

theorem cleared_eq {m : Motor} (hI : m.I = 0) (hup : m.rising = 0) (hdown : m.falling = 0) : m.cleared = m := by
  cases m
  cases hI
  cases hup
  cases hdown
  rfl

theorem drivenFinished_rests {s : State} {c b : Nat} (ht : sEff s = 0) (hR : (drivenFinished c b s).R = 0) :
    (drivenFinished c b s).cleared = drivenFinished c b s := by
  obtain ⟨i, da, hloop⟩ := speedLoop_same (loopSettings s) (sEff s) (movedMotor c b s)
  have hdriven : drivenMotor c b s = { movedMotor c b s with I := i, Da := da } := hloop
  have hmoved : (movedMotor c b s).R = 0 := by
    unfold drivenFinished countedMotor at hR
    rw [hdriven] at hR
    exact hR
  obtain ⟨hI, hup, hdown⟩ := drivenMotor_rests (c := c) (b := b) ht hmoved
  rw [hdriven] at hI
  refine cleared_eq ?_ ?_ ?_ <;> (unfold drivenFinished countedMotor; rw [hdriven])
  · exact hI
  · exact hup
  · exact hdown

theorem measured_counted {c b : Nat} (hc : c ≤ 8190) (hb : b ≤ 4095) (s : State) :
    Measured c b s (countedMotor c b s) := by
  obtain ⟨r, i, da, up, down, sc, oc, h⟩ := countedMotor_same c b s
  rw [h]
  exact (measured_measure hc hb s).of_eq rfl rfl rfl rfl rfl

theorem chuffDue_measured {c b : Nat} {s : State} {X : Motor} (h : Measured c b s X) (before : Nat) (driving : Bool) :
    chuffDue s X = true ↔
      set8 s 71 ≠ 1 ∧ set16 s 69 ≤ s.motor.chuffAcc + (publishedOf (finished s before driving X)).Mf := by
  rw [chuffDue_iff, h.chuffAcc]
  rfl

/-- The values of stages 3 to 6 in the record of stage 7: those that only stage 3 and stage 0 set. -/
theorem drivenFinished_moved (c b : Nat) (s : State) :
    (drivenFinished c b s).R = (movedMotor c b s).R ∧ (drivenFinished c b s).rising = (movedMotor c b s).rising ∧
    (drivenFinished c b s).falling = (movedMotor c b s).falling ∧ (drivenFinished c b s).Mf = (movedMotor c b s).Mf ∧
    (drivenFinished c b s).cap = (movedMotor c b s).cap ∧ (drivenFinished c b s).C = (movedMotor c b s).C := by
  obtain ⟨i, da, hloop⟩ := speedLoop_same (loopSettings s) (sEff s) (movedMotor c b s)
  have hdriven : drivenMotor c b s = { movedMotor c b s with I := i, Da := da } := hloop
  unfold drivenFinished countedMotor
  rw [hdriven]
  exact ⟨rfl, rfl, rfl, rfl, rfl, rfl⟩

theorem drivenMotor_counts (c b : Nat) (s : State) : (drivenMotor c b s).stallCount = s.motor.stallCount ∧
    (drivenMotor c b s).openCount = s.motor.openCount := by
  obtain ⟨i, da, hloop⟩ := speedLoop_same (loopSettings s) (sEff s) (movedMotor c b s)
  obtain ⟨r, up, down, hmoved⟩ := movedMotor_same c b s
  rw [drivenMotor_eq, hloop, hmoved]
  exact ⟨rfl, rfl⟩

/-- The detectors' counts of a period that drives (R15, R16). -/
theorem drivenFinished_counts (c b : Nat) (s : State) :
    (let m := drivenFinished c b s
     m.stallCount = (if 1000 ≤ m.Da ∧ m.Mf < m.R / 8 then min 1000 (s.motor.stallCount + 1) else 0) ∧
     m.openCount = (if 200 ≤ m.Da ∧ m.C < 20 ∧ m.Mf < 10 then min 100 (s.motor.openCount + 1) else 0)) := by
  have hcounts := countFaults_counts (drivenMotor c b s)
  obtain ⟨hstall, hopen⟩ := drivenMotor_counts c b s
  rw [hstall, hopen] at hcounts
  unfold drivenFinished countedMotor
  generalize drivenMotor c b s = d at hcounts ⊢
  exact hcounts

/-- The duty and the integral of a period that drives, by stages 4 to 6 (R8 to R10). -/
theorem drivenFinished_duty (c b : Nat) (s : State) :
    (let m := drivenFinished c b s
     let k := loopSettings s
     let n := movedMotor c b s
     (m.R = 0 ∧ sEff s = 0 → m.Da = 0 ∧ m.I = 0) ∧
     (¬ (m.R = 0 ∧ sEff s = 0) → m.Da = min (demandedDuty k n) m.cap ∧
       (holdsIntegral k n = true → m.I = s.motor.I) ∧ (¬ holdsIntegral k n = true → m.I = provisionalI k n))) := by
  obtain ⟨hR, -, -, -, hcap, -⟩ := drivenFinished_moved c b s
  obtain ⟨r, up, down, hmoved⟩ := movedMotor_same c b s
  have hI : (movedMotor c b s).I = s.motor.I := by
    rw [hmoved]
    rfl
  have hloop := speedLoop_duty_integral (loopSettings s) (sEff s) (movedMotor c b s)
  rw [hI] at hloop
  have hduty : (drivenFinished c b s).Da = (drivenMotor c b s).Da ∧ (drivenFinished c b s).I = (drivenMotor c b s).I := by
    unfold drivenFinished countedMotor
    generalize drivenMotor c b s = d
    exact ⟨rfl, rfl⟩
  dsimp only
  rw [hR, hcap, hduty.1, hduty.2]
  exact hloop

/-- What a control period without a motor fault leaves, by its record `M` of stage 7. -/
structure Leaves (s t : State) (M : Motor) (ended : Bool) : Prop where
  motor : t.motor = settledMotor ended t.demand.pending M
  pub : t.pub = publishedOf M
  follows : FollowsPublishing s t
  frame : t = { s with
    motor := t.motor, pub := t.pub, demand := t.demand, holds := t.holds, sound := t.sound, port := t.port
    smoke := t.smoke, freeCount := t.freeCount }

theorem leaves_of_published {s t : State} {X : Motor} {c b before : Nat} {driving ended : Bool} (hX : Measured c b s X)
    (hsame : (beforeSettle s.pub.phase (chuffDue s X)
      { s with motor := finished s before driving X, pub := publishedOf (finished s before driving X) }).motor =
        finished s before driving X)
    (ht : t = afterPublish s.pub.phase (chuffDue s X) ended
      { s with motor := finished s before driving X, pub := publishedOf (finished s before driving X) }) :
    Leaves s t (finished s before driving X) ended := by
  have hmotor := afterPublish_motor ended hsame
  have hframe := PeriodFrame.afterPublish s.pub.phase (chuffDue s X) ended
    { s with motor := finished s before driving X, pub := publishedOf (finished s before driving X) }
  have hfollows := followsPublishing s (finished s before driving X) (publishedOf (finished s before driving X)) ended
    (chuffDue_measured hX before driving)
  rw [← ht] at hmotor hframe hfollows
  have hpub : t.pub = publishedOf (finished s before driving X) := (congrArg State.pub hframe :)
  unfold PeriodFrame at hframe
  exact ⟨hmotor, hpub, hfollows, by rw [hpub]; exact hframe⟩

theorem Leaves.measured {s t : State} {X : Motor} {c b before : Nat} {driving ended : Bool} (hX : Measured c b s X)
    (h : Leaves s t (finished s before driving X) ended) : MeasuredAndPublished X.state c b s t := by
  obtain ⟨st, f, hm⟩ := settledMotor_eq ended t.demand.pending (finished s before driving X)
  exact measuredAndPublished hX h.pub ⟨st, f, h.motor.trans hm⟩

/-- Settles O14: the record of stage 7 is the one computed, what follows leaves it but for R13's classification, and
what follows is `followsPublishing`. -/
theorem controlPeriodDrives : Obligations.ControlPeriodDrives := by
  unfold Obligations.ControlPeriodDrives
  intro s c b hd hc hb hopen hstall
  have hX := measured_counted hc hb s
  obtain ⟨hstallCount, hopenCount⟩ := drivenFinished_counts c b s
  have hnone : detectFaults { s with motor := countedMotor c b s } = { s with motor := countedMotor c b s } := by
    refine detectFaults_none ?_ ?_
    · refine hopenCount.trans_lt ?_
      split <;> omega
    · show (drivenFinished c b s).stallCount = 0 ∨ (drivenFinished c b s).stallCount < set8 s 68 * 10
      rw [hstallCount]
      split <;> omega
  obtain ⟨hstate, haccepted, hshorted, hfault⟩ := drivenFinished_state c b s
  have hleaves := leaves_of_published hX
    (beforeSettle_motor ((checking_iff _).2 ⟨hstate.symm ▸ hd.2.2.1, haccepted.trans hd.2.2.2.1⟩)
      (fun ht hR => drivenFinished_rests ht hR)) (controlPeriod_drives hd hnone)
  have hmotor := hleaves.motor.trans (settledMotor_drives (hstate.symm ▸ hd.2.2.1) (hstate.symm ▸ hd.2.2.2.2) _)
  refine ⟨_, exec_controlPeriod hd.1 c b, ?measured, hleaves.follows, ?values, ?fault, hleaves.frame⟩
  all_goals generalize controlPeriod c b s = t at hmotor hleaves ⊢
  case measured => exact hstate ▸ Leaves.measured (X := countedMotor c b s) (before := s.motor.R) (driving := true) hX hleaves
  case values =>
    obtain ⟨hR, hup, hdown, hMf, hcap, -⟩ := drivenFinished_moved c b s
    obtain ⟨hrR, hrup, hrdown⟩ := movedMotor_reference c b s
    obtain ⟨r, up, down, hmoved⟩ := movedMotor_same c b s
    have hI : (movedMotor c b s).I = s.motor.I := by
      rw [hmoved]
      rfl
    obtain ⟨hrests, hgoes⟩ := drivenFinished_duty c b s
    simp only [holdsIntegral_iff, demandedDuty, rawDrive, provisionalI, feedForward, loopSettings, hI, ← hR, ← hMf, ← hcap] at hgoes
    rw [hmotor]
    dsimp only
    refine ⟨hR.trans hrR, hup.trans hrup, hdown.trans hrdown, hrests, hgoes, hstallCount, hopenCount, rfl, rfl, ?_, rfl⟩
    rw [← hshorted, ← hstate]
    rfl
  case fault =>
    rw [hmotor]
    exact hfault

/-! ### A control period in FAULT and in DARK (R11, R17) -/

/-- The motor's record after stage 6 of a period in DARK (R11). -/
def darkMotor (c b : Nat) (s : State) : Motor :=
  { (measure c b s).motor with R := 0, rising := 0, falling := 0, Da := 0, I := 0 }

/-- The motor's record after stage 6 of a period in FAULT (R17). -/
def faultMotor (c b : Nat) (s : State) : Motor := { movedMotor c b s with Da := 0, I := 0 }

theorem middleStages_dark {s : State} (h : s.supply.state = .dark) (c b : Nat) :
    middleStages (sEff s) b (accelInUse s) (decelInEffect s) (measure c b { s with motor := s.motor }) =
      { s with motor := darkMotor c b s } := by
  unfold middleStages
  exact if_pos h

theorem middleStages_fault {s : State} (h : s.motor.state = .fault) (hd : s.supply.state ≠ .dark) (c b : Nat) :
    middleStages (sEff s) b (accelInUse s) (decelInEffect s) (measure c b { s with motor := s.motor }) =
      { s with motor := faultMotor c b s } := by
  unfold middleStages
  rw [if_neg (show ¬ (measure c b { s with motor := s.motor }).supply.state = .dark from hd),
    show (measure c b { s with motor := s.motor }).motor.state = .fault from h]
  rfl

/-- The motor's record of a period with the bridge off (R11, R17). -/
structure BridgeOff (c b : Nat) (s : State) (X : Motor) : Prop where
  measured : Measured c b s X
  off : X.Da = 0 ∧ X.I = 0
  rests : sEff s = 0 → X.R = 0 → X.rising = 0 ∧ X.falling = 0
  state : X.state = s.motor.state
  accepted : X.checkAccepted = s.motor.checkAccepted
  shorted : X.checkShorted = s.motor.checkShorted
  fault : X.fault = s.motor.fault
  counts : X.stallCount = s.motor.stallCount ∧ X.openCount = s.motor.openCount

theorem darkMotor_off {c b : Nat} (hc : c ≤ 8190) (hb : b ≤ 4095) (s : State) : BridgeOff c b s (darkMotor c b s) where
  measured := (measured_measure hc hb s).of_eq rfl rfl rfl rfl rfl
  off := ⟨rfl, rfl⟩
  rests _ _ := ⟨rfl, rfl⟩
  state := rfl
  accepted := rfl
  shorted := rfl
  fault := rfl
  counts := ⟨rfl, rfl⟩

theorem faultMotor_off {c b : Nat} (hc : c ≤ 8190) (hb : b ≤ 4095) (s : State) : BridgeOff c b s (faultMotor c b s) := by
  have hrests (ht : sEff s = 0) (hR : (movedMotor c b s).R = 0) :
      (movedMotor c b s).rising = 0 ∧ (movedMotor c b s).falling = 0 := (drivenMotor_rests ht hR).2
  have hmeasured := measured_moved hc hb s
  obtain ⟨r, up, down, hmoved⟩ := movedMotor_same c b s
  unfold faultMotor
  rw [hmoved] at hrests hmeasured ⊢
  exact
    { measured := hmeasured.of_eq rfl rfl rfl rfl rfl
      off := ⟨rfl, rfl⟩
      rests := hrests
      state := rfl
      accepted := rfl
      shorted := rfl
      fault := rfl
      counts := ⟨rfl, rfl⟩ }

theorem controlPeriod_off {s : State} {c b : Nat} {X : Motor} (hcheck : s.motor.checking = false)
    (hoff : s.motor.state = .fault ∨ s.supply.state = .dark) (hX : BridgeOff c b s X)
    (hmiddle : middleStages (sEff s) b (accelInUse s) (decelInEffect s) (measure c b { s with motor := s.motor }) =
      { s with motor := X }) :
    Leaves s (controlPeriod c b s)
      (finished s (if s.supply.state = .dark then s.pub.R else s.motor.R) false X) false := by
  have hdriving : (s.supply.state != .dark && !(s.motor.state == .check) && X.state != .fault) = false := by
    rw [hX.state]
    obtain h | h := hoff
    · rw [h]
      exact Bool.and_false _
    · rw [h]
      rfl
  have hended : (s.motor.state == .check && X.state != .check) = false := by
    rw [beq_eq_false_iff_ne.2 ((checking_iff _).1 hcheck).1]
    rfl
  have hperiod := controlPeriod_eq (begin_idle hcheck) hmiddle
  rw [hdriving, hended] at hperiod
  refine leaves_of_published hX.measured (beforeSettle_motor ?_ fun ht hR => ?_) hperiod
  · refine (checking_iff _).2 ?_
    show X.state ≠ .check ∧ X.checkAccepted = false
    rw [hX.state, hX.accepted]
    exact (checking_iff _).1 hcheck
  · obtain ⟨hup, hdown⟩ := hX.rests ht hR
    exact cleared_eq hX.off.2 hup hdown

theorem settledMotor_state {m : Motor} (hcheck : m.state ≠ .check) (pending : Bool) :
    (settledMotor false pending m).state = if m.state = .fault then .fault else if m.checkShorted then m.state
      else if pending then .reversing else if m.R = 0 ∧ m.Mf < 20 then .stopped else .running := by
  by_cases hfault : m.state = .fault
  · unfold settledMotor
    rw [if_pos hfault]
    split
    · exact hfault
    · rw [hfault]
      exact hfault
  · rw [if_neg hfault, settledMotor_drives hcheck hfault]

/-- Settles O15: neither branch of stages 3 to 6 drives or counts, and what follows is `followsPublishing`. -/
theorem controlPeriodInFaultAndInDark : Obligations.ControlPeriodInFaultAndInDark := by
  unfold Obligations.ControlPeriodInFaultAndInDark
  intro s c b hp hcheck haccepted hoff hc hb
  have hidle := (checking_iff _).2 ⟨hcheck, haccepted⟩
  obtain ⟨X, hX, hmiddle, hdark, hlit⟩ : ∃ X, BridgeOff c b s X ∧
      middleStages (sEff s) b (accelInUse s) (decelInEffect s) (measure c b { s with motor := s.motor }) =
        { s with motor := X } ∧
      (s.supply.state = .dark → X.R = 0 ∧ X.rising = 0 ∧ X.falling = 0) ∧
      (¬ s.supply.state = .dark →
        (let r := moveReference (sEff s) (accelInUse s) (decelInEffect s) s.motor
         X.R = r.R ∧ X.rising = r.rising ∧ X.falling = r.falling)) := by
    by_cases hd : s.supply.state = .dark
    · exact ⟨_, darkMotor_off hc hb s, middleStages_dark hd c b, fun _ => ⟨rfl, rfl, rfl⟩, fun h => absurd hd h⟩
    · exact ⟨_, faultMotor_off hc hb s, middleStages_fault (hoff.resolve_right hd) hd c b, fun h => absurd h hd,
        fun _ => movedMotor_reference c b s⟩
  have hleaves := controlPeriod_off hidle hoff hX hmiddle
  refine ⟨_, exec_controlPeriod hp c b, hX.state ▸ hleaves.measured hX.measured, hleaves.follows, ?values, hleaves.frame⟩
  generalize controlPeriod c b s = t at hleaves ⊢
  have hstate := settledMotor_state (m := finished s (if s.supply.state = .dark then s.pub.R else s.motor.R) false X)
    (hX.state ▸ hcheck) t.demand.pending
  rw [← hleaves.motor] at hstate
  obtain ⟨st, f, hm⟩ := settledMotor_eq false t.demand.pending
    (finished s (if s.supply.state = .dark then s.pub.R else s.motor.R) false X)
  rw [← hleaves.motor] at hm
  rw [hm] at hstate ⊢
  refine ⟨hX.off.1, hX.off.2, rfl, hX.fault, hX.counts.1, hX.counts.2, hdark, hlit, rfl, ?_⟩
  rw [← hX.state, ← hX.shorted]
  exact hstate

end Sys2Proof.Machine
end

section
/-! Motor faults and the expiry of holds. Settles O16 and O18. -/

namespace Sys2Proof.Machine

/-! ### Shorts (R14, R20) -/

theorem shortSensed_drives {c : Nat} {s : State} (hc : 7500 ≤ c) (hd : 0 < s.motor.Da) (hs : s.supply.state ≠ .dark) :
    shortSensed c s =
      if s.motor.checking then shortEndsCheck s else if s.motor.state = .fault then s else shortDetected s :=
  if_pos ⟨hc, hd, hs⟩

theorem shortDetected_eq (s : State) : shortDetected s =
    (let history := s.motor.shorts.filter (fun t => decide (ageMs s.partTime t ≤ 10000)) ++ [s.partTime]
     let latched := decide (3 ≤ history.length)
     { s with
       motor := { s.motor with
         shorts := history
         fault := some { kind := .motorShort, retry := if latched then none else some (s.partTime + 1000) }
         state := .fault, Da := 0, I := 0, stallCount := 0, openCount := 0 }
       holds := insertHold { plainStop .motorFault .instant with created := s.partTime } s.holds
       faults := updateAt s.faults 0 (fun r => r.report latched s.partTime) }) := by
  unfold shortDetected
  dsimp only
  generalize s.motor.shorts.filter _ ++ [s.partTime] = history
  by_cases h : 3 ≤ history.length
  · rw [if_pos h, decide_eq_true h]
    rfl
  · rw [if_neg h, decide_eq_false h]
    rfl

/-! ### Faults of a control period (R15, R16) -/

/-- The hold list of a state that follows a published set, but for the BEACON entry. -/
theorem afterPublish_otherHolds (old : MotionPhase) (isChuff ended : Bool) (p : State) :
    otherHolds (afterPublish old isChuff ended p).holds = otherHolds p.holds := by
  obtain ⟨m, hm⟩ := afterPublish_eq_events old isChuff ended p
  have hevents := eventsOf_offLoads old isChuff (expireCap (beginDwell (completeReversal p)))
  have hholds : (afterPublish old isChuff ended p).holds = (expireCap (beginDwell (completeReversal p))).holds := by
    rw [hm]
    exact (congrArg State.holds hevents :)
  rw [hholds, expireCap_otherHolds, beginDwell_otherHolds, completeReversal_holds]

theorem find_otherHolds {src : HoldSource} (hs : src ≠ .beacon) (l : List Hold) :
    (otherHolds l).find? (fun h => h.source == src) = l.find? (fun h => h.source == src) := by
  induction l with
  | nil => rfl
  | cons x l ih =>
    by_cases hx : x.source = .beacon
    · have hne : ¬ (x.source == src) = true := by
        rw [hx, beq_iff_eq]
        exact hs.symm
      have hdrop : otherHolds (x :: l) = otherHolds l := List.filter_cons_of_neg (by rw [hx]; decide)
      rw [hdrop, ih, List.find?_cons_of_neg (p := fun h : Hold => h.source == src) hne]
    · have hkeep : otherHolds (x :: l) = x :: otherHolds l := List.filter_cons_of_pos (by simpa using hx)
      rw [hkeep, List.find?_cons, List.find?_cons, ih]

/-- A motor's record that FAULT has just been entered with (R14 to R16). -/
structure Motor.Failed (m : Motor) : Prop where
  state : m.state = .fault
  off : m.Da = 0 ∧ m.I = 0
  counts : m.stallCount = 0 ∧ m.openCount = 0
  accepted : m.checkAccepted = false

/-- What the rest of a control period leaves of a motor's record in FAULT. -/
theorem afterPublish_failed {old : MotionPhase} {isChuff ended : Bool} {p : State} (h : p.motor.Failed) :
    (afterPublish old isChuff ended p).motor.Failed ∧
      (afterPublish old isChuff ended p).motor.fault = p.motor.fault ∧
      (afterPublish old isChuff ended p).motor.lastStall = p.motor.lastStall := by
  have hcheck : p.motor.checking = false := (checking_iff _).2 ⟨by rw [h.state]; exact nofun, h.accepted⟩
  have hturn : TurnsIdle p (beforeSettle old isChuff p) := turnsIdle_laws.beforeSettle old isChuff p
  have hbefore : (beforeSettle old isChuff p).motor.Failed ∧ (beforeSettle old isChuff p).motor.fault = p.motor.fault ∧
      (beforeSettle old isChuff p).motor.lastStall = p.motor.lastStall := by
    obtain hm | hm := hturn hcheck
    · rw [hm]
      exact ⟨h, rfl, rfl⟩
    · rw [hm]
      exact ⟨⟨h.state, ⟨h.off.1, rfl⟩, h.counts, h.accepted⟩, rfl, rfl⟩
  obtain ⟨hfailed, hfault, hlast⟩ := hbefore
  rw [afterPublish_eq, settle_motor]
  unfold settledMotor
  split
  · exact ⟨⟨hfailed.state, hfailed.off, hfailed.counts, hfailed.accepted⟩, hfault, hlast⟩
  · rw [hfailed.state]
    exact ⟨hfailed, hfault, hlast⟩

/-- A control period that takes a motor fault, by the state `u` in which the fault has been taken. -/
theorem controlPeriod_faults {s u : State} {c b : Nat} (hd : Drives s) (hu : u.motor.Failed)
    (hmiddle : detectFaults { s with motor := countedMotor c b s } = u) :
    (controlPeriod c b s).motor.Failed ∧ (controlPeriod c b s).motor.fault = u.motor.fault ∧
      (controlPeriod c b s).motor.lastStall = u.motor.lastStall ∧
      (controlPeriod c b s).holds.find? (fun h => h.source == .motorFault) =
        u.holds.find? (fun h => h.source == .motorFault) ∧
      (controlPeriod c b s).faults = u.faults ∧ (controlPeriod c b s).supply = u.supply ∧
      (controlPeriod c b s).switches = u.switches ∧ (controlPeriod c b s).drive = u.drive := by
  have hperiod := controlPeriod_stages (begin_idle hd.checking) ((middleStages_drives hd c b).trans hmiddle)
  dsimp only at hperiod
  generalize (u.supply.state != .dark && !(s.motor.state == .check) && u.motor.state != .fault) = driving at hperiod
  generalize (if s.supply.state = .dark then s.pub.R else s.motor.R) = before at hperiod
  generalize (s.motor.state == .check && u.motor.state != .check) = ended at hperiod
  have hfailed := afterPublish_failed (old := s.pub.phase) (isChuff := chuffDue u u.motor) (ended := ended)
    (p := { u with motor := finished u before driving u.motor, pub := publishedOf (finished u before driving u.motor) })
    ⟨hu.state, hu.off, hu.counts, hu.accepted⟩
  have hholds := afterPublish_otherHolds s.pub.phase (chuffDue u u.motor) ended
    { u with motor := finished u before driving u.motor, pub := publishedOf (finished u before driving u.motor) }
  have hframe := PeriodFrame.afterPublish s.pub.phase (chuffDue u u.motor) ended
    { u with motor := finished u before driving u.motor, pub := publishedOf (finished u before driving u.motor) }
  rw [← hperiod] at hfailed hholds hframe
  refine ⟨hfailed.1, hfailed.2.1, hfailed.2.2, ?_, (congrArg State.faults hframe :), (congrArg State.supply hframe :),
    (congrArg State.switches hframe :), (congrArg State.drive hframe :)⟩
  rw [← find_otherHolds (by decide) (controlPeriod c b s).holds, hholds, find_otherHolds (by decide)]

theorem takeMotorFault_failed (k : FaultKind) (retry : Option Time) {s : State} (h : s.motor.checkAccepted = false) :
    (takeMotorFault k retry s).motor.Failed := ⟨rfl, ⟨rfl, rfl⟩, ⟨rfl, rfl⟩, h⟩

theorem takeMotorFault_find (k : FaultKind) (retry : Option Time) (s : State) :
    (takeMotorFault k retry s).holds.find? (fun h => h.source == .motorFault) =
      some { plainStop .motorFault .instant with created := s.partTime } :=
  find_insertHold { plainStop .motorFault .instant with created := s.partTime } s.holds

theorem faultPeriod_taken {k : FaultKind} {c b : Nat} {s : State} {f : MotorFault} (hd : Drives s)
    (hstate : (controlPeriod c b s).motor.state = .fault) (hfault : (controlPeriod c b s).motor.fault = some f)
    (hk : f.kind = k) : faultPeriod k c b s = controlPeriod c b s := by
  refine if_pos ⟨hd.1, hd.2.2.2.2, hstate, ?_⟩
  rw [hfault, ← hk]
  rfl

theorem exec_motorOpen (c b : Nat) (s : State) : exec (.motorOpen c b) s = .next (faultPeriod .motorOpen c b s) := rfl

theorem exec_motorStall (c b : Nat) (s : State) : exec (.motorStall c b) s = .next (faultPeriod .motorStall c b s) := rfl

/-- The counts of a period that drives, from the values of stages 3 to 6 (R15, R16). -/
theorem countedMotor_counts (c b : Nat) (s : State) :
    (let m := drivenMotor c b s
     (countedMotor c b s).stallCount = (if 1000 ≤ m.Da ∧ m.Mf < m.R / 8 then min 1000 (s.motor.stallCount + 1) else 0) ∧
     (countedMotor c b s).openCount =
       (if 200 ≤ m.Da ∧ m.C < 20 ∧ m.Mf < 10 then min 100 (s.motor.openCount + 1) else 0)) := by
  have hcounts := countFaults_counts (drivenMotor c b s)
  obtain ⟨hstall, hopen⟩ := drivenMotor_counts c b s
  rw [hstall, hopen] at hcounts
  exact hcounts

theorem countedMotor_kept (c b : Nat) (s : State) : (countedMotor c b s).checkAccepted = s.motor.checkAccepted ∧
    (countedMotor c b s).lastStall = s.motor.lastStall := by
  obtain ⟨r, i, da, up, down, sc, oc, h⟩ := countedMotor_same c b s
  rw [h]
  exact ⟨rfl, rfl⟩

/-- The last stall lies less than 60 s back (R15). -/
def StalledLately (s : State) : Prop := ∃ l, s.motor.lastStall = some l ∧ ageMs s.partTime l < 60000

theorem stallDetected_lately {s : State} (h : StalledLately s) : stallDetected s =
    takeMotorFault .motorStall none { s with motor := { s.motor with lastStall := some s.partTime } } := by
  obtain ⟨l, hl, hage⟩ := h
  unfold stallDetected
  rw [hl]
  dsimp only
  rw [decide_eq_true hage]
  rfl

theorem stallDetected_first {s : State} (h : ¬ StalledLately s) : stallDetected s =
    takeMotorFault .motorStall (some (s.partTime + 5000))
      { s with motor := { s.motor with lastStall := some s.partTime } } := by
  unfold stallDetected
  cases hl : s.motor.lastStall with
  | none => rfl
  | some l =>
    dsimp only
    rw [decide_eq_false fun hage => h ⟨l, hl, hage⟩]
    rfl

/-- Settles O16: a short by the branches of `shortSensed`, the two rows by the state in which the detectors have taken
their fault and `controlPeriod_faults`. -/
theorem motorFaultsAreTaken : Obligations.MotorFaultsAreTaken := by
  unfold Obligations.MotorFaultsAreTaken
  refine ⟨fun s c hlo hhi hd hs hcheck haccepted hfault => ?short, fun s c hlo hhi hd hs hcheck => ?checkShort,
    fun s c b hd hc hb hopens hstalls hlimit => ⟨fun hopen => ?opens, fun hnot hstall => ?stall⟩⟩
  case short =>
    have hexec : exec (.motorShort c) s = .next (shortDetected s) := by
      refine congrArg Host.Outcome.next ((shortSensed_drives hlo hd hs).trans ?_)
      rw [(checking_iff _).2 ⟨hcheck, haccepted⟩, if_neg hfault]
      rfl
    rw [hexec, shortDetected_eq]
  case checkShort =>
    have hchecking : s.motor.checking = true := by
      unfold Motor.checking
      rwa [Bool.or_eq_true, beq_iff_eq]
    refine congrArg Host.Outcome.next ((shortSensed_drives hlo hd hs).trans ?_)
    rw [hchecking]
    rfl
  case opens =>
    obtain ⟨hda, hC, hMf, hlast⟩ := hopen
    have hcount : (countedMotor c b s).openCount = 100 := by
      rw [(countedMotor_counts c b s).2, if_pos ⟨hda, hC, hMf⟩, hlast]
      rfl
    have htaken : detectFaults { s with motor := countedMotor c b s } =
        takeMotorFault .motorOpen none { s with motor := countedMotor c b s } := if_pos hcount
    obtain ⟨haccepted, hlastStall⟩ := countedMotor_kept c b s
    obtain ⟨hfailed, hfault, hstall, hfind, hfaults, hsupply, hswitches, hdrive⟩ :=
      controlPeriod_faults hd (takeMotorFault_failed .motorOpen none (haccepted.trans hd.2.2.2.1)) htaken
    refine ⟨_, (exec_motorOpen c b s).trans (congrArg _ (faultPeriod_taken hd hfailed.state hfault rfl)), hfailed.state,
      hfailed.off.1, hfailed.off.2, hfault, hstall.trans hlastStall, hfailed.counts.1, hfailed.counts.2,
      hfind.trans (takeMotorFault_find _ _ _), hfaults, hsupply, hswitches, hdrive⟩
  case stall =>
    obtain ⟨hda, hMf, hreached⟩ := hstall
    obtain ⟨hstallCount, hopenCount⟩ := countedMotor_counts c b s
    have hopen : ¬ (countedMotor c b s).openCount = 100 := by
      rw [hopenCount]
      split
      next h => exact fun h100 => hnot ⟨h.1, h.2.1, h.2.2, by omega⟩
      next => omega
    have hreach : set8 s 68 * 10 ≤ (countedMotor c b s).stallCount ∧ 0 < (countedMotor c b s).stallCount := by
      rw [hstallCount, if_pos ⟨hda, hMf⟩]
      omega
    have htaken : detectFaults { s with motor := countedMotor c b s } =
        stallDetected { s with motor := countedMotor c b s } := (if_neg hopen).trans (if_pos hreach)
    obtain ⟨haccepted, hlastStall⟩ := countedMotor_kept c b s
    have hlately : StalledLately { s with motor := countedMotor c b s } ↔
        ∃ l, s.motor.lastStall = some l ∧ ageMs s.partTime l < 60000 := by
      unfold StalledLately
      rw [hlastStall]
    have hends (retry : Option Time) (h : detectFaults { s with motor := countedMotor c b s } =
        takeMotorFault .motorStall retry { s with
          motor := { countedMotor c b s with lastStall := some s.partTime } }) :=
      controlPeriod_faults hd (takeMotorFault_failed .motorStall retry (haccepted.trans hd.2.2.2.1)) h
    by_cases hagain : StalledLately { s with motor := countedMotor c b s }
    · obtain ⟨hfailed, hfault, hstall, hfind, hfaults, hsupply, hswitches, hdrive⟩ :=
        hends none (htaken.trans (stallDetected_lately hagain))
      exact ⟨_, (exec_motorStall c b s).trans (congrArg _ (faultPeriod_taken hd hfailed.state hfault rfl)), hfailed.state,
        hfailed.off.1, hfailed.off.2, fun _ => ⟨hfault, hfaults⟩, fun hn => absurd (hlately.1 hagain) hn, hstall,
        hfailed.counts.1, hfailed.counts.2, hfind.trans (takeMotorFault_find _ _ _), hsupply, hswitches, hdrive⟩
    · obtain ⟨hfailed, hfault, hstall, hfind, hfaults, hsupply, hswitches, hdrive⟩ :=
        hends (some (s.partTime + 5000)) (htaken.trans (stallDetected_first hagain))
      exact ⟨_, (exec_motorStall c b s).trans (congrArg _ (faultPeriod_taken hd hfailed.state hfault rfl)), hfailed.state,
        hfailed.off.1, hfailed.off.2, fun hy => absurd (hlately.2 hy) hagain, fun _ => ⟨hfault, hfaults⟩, hstall,
        hfailed.counts.1, hfailed.counts.2, hfind.trans (takeMotorFault_find _ _ _), hsupply, hswitches, hdrive⟩

/-! ### Installing and removing (R30) -/

theorem distinct_split {s : State} (hd : HoldsDistinct s) {before after : List Hold} {old : Hold} {src : HoldSource}
    (hs : s.holds = before ++ old :: after) (ho : old.source = src) :
    (∀ x ∈ before, x.source ≠ src) ∧ ∀ x ∈ after, x.source ≠ src := by
  unfold HoldsDistinct at hd
  rw [hs, List.map_append, List.map_cons, List.nodup_append, List.nodup_cons] at hd
  obtain ⟨-, ⟨hafter, -⟩, hbefore⟩ := hd
  subst ho
  exact ⟨fun x hx => hbefore _ (List.mem_map_of_mem hx) _ List.mem_cons_self,
    fun x hx he => hafter (he ▸ List.mem_map_of_mem hx)⟩

theorem filter_others {l : List Hold} {src : HoldSource} (h : ∀ x ∈ l, x.source ≠ src) :
    l.filter (fun x => x.source != src) = l :=
  List.filter_eq_self.2 fun x hx => bne_iff_ne.2 (h x hx)

theorem installHold_replaces {s : State} {h old : Hold} {before after : List Hold} (hd : HoldsDistinct s)
    (hs : s.holds = before ++ old :: after) (ho : old.source = h.source) :
    installHold h s = { s with holds := before ++ { h with created := s.partTime } :: after } := by
  unfold installHold
  rw [hs, insertHold_replaces { h with created := s.partTime } old before after (distinct_split hd hs ho).1 ho]

theorem removeHold_present {s : State} {old : Hold} {before after : List Hold} {src : HoldSource} (hd : HoldsDistinct s)
    (hs : s.holds = before ++ old :: after) (ho : old.source = src) :
    removeHold src s = { s with holds := before ++ after } := by
  obtain ⟨hbefore, hafter⟩ := distinct_split hd hs ho
  unfold removeHold
  rw [hs, List.filter_append, List.filter_cons_of_neg (by simp [ho]), filter_others hbefore, filter_others hafter]

theorem removeHold_absent {s : State} {src : HoldSource} (h : ∀ x ∈ s.holds, x.source ≠ src) : removeHold src s = s := by
  unfold removeHold
  rw [filter_others h]

/-! ### Expiry (R34, R39, R40) -/

theorem dwellReached_due {s : State} {h : Hold} {due : Time} (hf : findHold s .beacon = some h)
    (he : h.expiry = .atTime due) : dwellReached s = if reached s.partTime due = true then dwellEnds s else s := by
  obtain ⟨source, kind, value, decel, expiry, phase, dwell, reverse, origin, created⟩ := h
  cases he
  unfold dwellReached
  rw [hf]

theorem dwellReversed_holds (s : State) : (dwellReversed s).holds = s.holds.filter (fun x => x.source != .beacon) := rfl

/-- What a motor fault, if one is taken, leaves of the motor's record. -/
def FaultMay (m n : Motor) : Prop :=
  n = m ∨ ∃ f l, n = { m with
    fault := f, state := .fault, Da := 0, I := 0, stallCount := 0, openCount := 0, lastStall := l }

/-- The detectors' faults leave the measurements of a period. -/
theorem detectFaults_measured (s : State) : ∃ m : Motor, ∃ l f, detectFaults s = { s with
      motor := m, holds := l, faults := f } ∧ FaultMay s.motor m ∧
    (l = s.holds ∨ l = insertHold { plainStop .motorFault .instant with created := s.partTime } s.holds) := by
  unfold detectFaults
  split
  · exact ⟨_, _, _, rfl, .inr ⟨_, _, rfl⟩, .inr rfl⟩
  · split
    · exact ⟨_, _, _, rfl, .inr ⟨_, _, rfl⟩, .inr rfl⟩
    · exact ⟨s.motor, s.holds, s.faults, rfl, .inl rfl, .inl rfl⟩

theorem FaultMay.measured {m n : Motor} (h : FaultMay m n) : n.odometer = m.odometer ∧ n.Mf = m.Mf := by
  obtain rfl | ⟨f, l, rfl⟩ := h
  · exact ⟨rfl, rfl⟩
  · exact ⟨rfl, rfl⟩

theorem find_insertHold_other {h : Hold} {src : HoldSource} (hs : h.source ≠ src) (l : List Hold) :
    (insertHold h l).find? (fun x => x.source == src) = l.find? (fun x => x.source == src) := by
  induction l with
  | nil => exact List.find?_cons_of_neg (by simpa using hs)
  | cons x l ih =>
    unfold insertHold
    split
    next he => rw [List.find?_cons_of_neg (by simpa using hs), List.find?_cons_of_neg (by simpa [he] using hs)]
    next => rw [List.find?_cons, List.find?_cons, ih]

/-- The control period that publishes an odometer at a BEACON cap's expiry, whether it takes a motor fault or not. -/
theorem controlPeriod_capOver {s : State} {c b : Nat} {h : Hold} {o : Odometer} (hd : Drives s) (hc : c ≤ 8190)
    (hb : b ≤ 4095) (hf : findHold s .beacon = some h) (hk : h.kind = .cap) (he : h.expiry = .atOdometer o)
    (hreached : (s.motor.odometer + BitVec.ofNat 32 (filterSpeed s.motor.Mf b) - o).toNat < 2147483648) :
    (controlPeriod c b s).pub.odometer = s.motor.odometer + BitVec.ofNat 32 (filterSpeed s.motor.Mf b) ∧
      findHold (controlPeriod c b s) .beacon = none ∧ (controlPeriod c b s).drive = s.drive ∧
      (controlPeriod c b s).supply = s.supply ∧ (controlPeriod c b s).switches = s.switches := by
  obtain ⟨m, l, f, hu, hm, hl⟩ := detectFaults_measured { s with motor := countedMotor c b s }
  obtain ⟨hodo, hMf⟩ := hm.measured
  have hX := measured_counted hc hb s
  have hperiod := controlPeriod_stages (begin_idle hd.checking) ((middleStages_drives hd c b).trans hu)
  dsimp only at hperiod hodo hMf
  generalize (s.supply.state != .dark && !(s.motor.state == .check) && m.state != .fault) = driving at hperiod
  generalize (if s.supply.state = .dark then s.pub.R else s.motor.R) = before at hperiod
  generalize (s.motor.state == .check && m.state != .check) = ended at hperiod
  have hfollows := followsPublishing { s with motor := m, holds := l, faults := f } (finished s before driving m)
    (publishedOf (finished s before driving m)) (isChuff := chuffDue s m) ended (chuffDue_iff s m)
  have hframe := PeriodFrame.afterPublish s.pub.phase (chuffDue s m) ended { s with
    motor := finished s before driving m, holds := l, faults := f, pub := publishedOf (finished s before driving m) }
  have hsame : controlPeriod c b s = afterPublish s.pub.phase (chuffDue s m) ended { s with
    motor := finished s before driving m, holds := l, faults := f, pub := publishedOf (finished s before driving m) } :=
    hperiod
  rw [← hsame] at hfollows hframe
  have hset : (controlPeriod c b s).pub = publishedOf (finished s before driving m) := (congrArg State.pub hframe :)
  have hodometer : (controlPeriod c b s).pub.odometer =
      s.motor.odometer + BitVec.ofNat 32 (filterSpeed s.motor.Mf b) := by
    rw [hset, ← hX.speed, ← hX.odometer, ← hodo, ← hMf]
    rfl
  have hfound : findHold { s with motor := m, holds := l, faults := f } .beacon = some h := by
    obtain rfl | rfl := hl
    · exact hf
    · exact (find_insertHold_other (show HoldSource.motorFault ≠ .beacon from nofun) s.holds).trans hf
  have hbeacon := ((hfollows.2.2.2.2.2.1 h hfound).2.2.1 fun hx => nomatch hk.symm.trans hx.1) o he
  rw [hodometer] at hbeacon
  exact ⟨hodometer, hbeacon hreached, (congrArg State.drive hframe :), (congrArg State.supply hframe :),
    (congrArg State.switches hframe :)⟩

theorem exec_dwellExpiry (s : State) : exec .dwellExpiry s = .next (dwellReached s) := rfl

theorem exec_capDistanceExpiry {s : State} {c b : Nat} {h : Hold} {o : Odometer} (hp : s.phase = .running)
    (hf : findHold s .beacon = some h) (hk : h.kind = .cap) (he : h.expiry = .atOdometer o)
    (hreached : ((controlPeriod c b s).pub.odometer - o).toNat < 2147483648)
    (hgone : findHold (controlPeriod c b s) .beacon = none) :
    exec (.capDistanceExpiry c b) s = .next (controlPeriod c b s) := by
  obtain ⟨source, kind, value, decel, expiry, phase, dwell, reverse, origin, created⟩ := h
  cases hk
  cases he
  show execCapDistanceExpiry c b s = _
  unfold execCapDistanceExpiry
  dsimp only
  rw [hf]
  exact congrArg Host.Outcome.next (if_pos ⟨hp, decide_eq_true hreached, by rw [hgone]; rfl⟩)

/-- Settles O18: the list operations by the place of the source's entry, a dwell by `reconcile_reconciled`, a cap by
`controlPeriod_capOver`. -/
theorem holdsAreInstalledRemovedAndExpire : Obligations.HoldsAreInstalledRemovedAndExpire := by
  unfold Obligations.HoldsAreInstalledRemovedAndExpire
  refine ⟨fun s h hd => ⟨fun before after old hs ho => ⟨installHold_replaces hd hs ho, removeHold_present hd hs ho⟩,
      fun hn => ⟨?appended, removeHold_absent hn⟩⟩, fun s h due hf he => ⟨fun hr => ?runs, fun hr hn => ?ends,
      fun hr hrev => ?reverses⟩, fun s c b h o hd hc hb _ hf hk he hreached => ?cap⟩
  case appended =>
    unfold installHold
    rw [insertHold_appends { h with created := s.partTime } s.holds hn]
  case runs =>
    rw [exec_dwellExpiry, dwellReached_due hf he, hr]
    rfl
  case ends =>
    rw [exec_dwellExpiry, dwellReached_due hf he, hr, if_pos rfl, dwellEnds_eq hf, hn]
    rfl
  case reverses =>
    have hrec := reconcile_reconciled (dirAgrees s) (dwellReversed s)
    have hframe : PeriodFrame (dwellReversed s) _ := periodFrame_turnLaws.reconcile (dirAgrees s) (dwellReversed s)
    refine ⟨reconcile (dirAgrees s) (dwellReversed s), ?_, hrec.holds, hrec.commanded, hrec.lastWriter, ?_, ?_,
      (congrArg State.drive hframe :), (congrArg State.supply hframe :), hrec.switches, hrec.settings⟩
    · rw [exec_dwellExpiry, dwellReached_due hf he, hr, if_pos rfl, dwellEnds_eq hf, if_pos hrev]
    · rw [hrec.wantedDir_eq]
      exact hrec.pending
    · rw [hrec.wantedDir_eq]
      exact hrec.applied
  case cap =>
    obtain ⟨hodo, hnone, hdrive, hsupply, hswitches⟩ := controlPeriod_capOver hd hc hb hf hk he hreached
    refine ⟨_, exec_capDistanceExpiry hd.1 hf hk he (hodo ▸ hreached) hnone, exec_controlPeriod hd.1 c b, hodo, ?_, hdrive,
      hsupply, hswitches⟩
    intro x hx hb
    exact absurd (beq_iff_eq.2 hb) (List.find?_eq_none.1 hnone x hx)

end Sys2Proof.Machine
end

section
/-! The cam input and the motor check. Settles O17 and O34. -/

namespace Sys2Proof.Machine

/-! ### The cam (R23) -/

theorem momentaryStart_frame (c : Option Nat) (s : State) : momentaryStart c s = { s with
    sound := (momentaryStart c s).sound, port := (momentaryStart c s).port } := by
  cases c with
  | none => rfl
  | some c => exact startRequest_frame c false s

/-- A chuff reaches the Sound Engine, the Flash Port and the Smoke Controller. -/
theorem chuff_eq (s : State) : chuff s = { s with
    sound := (momentaryStart (exhaustCue s) s).sound, port := (momentaryStart (exhaustCue s) s).port
    smoke := (smokeChuff s).smoke } := by
  have hsmoke := chuff_smoke s
  have hframe : (chuff s) = { momentaryStart (exhaustCue s) s with smoke := (chuff s).smoke } := by
    unfold chuff smokeChuff
    split <;> rfl
  rw [hsmoke, momentaryStart_frame] at hframe
  exact hframe

/-- Settles O17: the branches of the two cam commands; the armed flag that a chuff takes down stops the second one. -/
theorem camEdgeGivesOneChuff : Obligations.CamEdgeGivesOneChuff := by
  unfold Obligations.CamEdgeGivesOneChuff
  intro s hp
  have hinput (l : Level) : exec (.camInputChange l) s = .next (camInput l s) := congrArg Host.Outcome.next (if_pos hp)
  have hchuff : exec .camChuff s = .next (camChuffed s) := congrArg Host.Outcome.next (if_pos hp)
  refine ⟨fun l hl => (hinput l).trans (congrArg Host.Outcome.next (if_neg hl)),
    (hinput _).trans (congrArg Host.Outcome.next (if_pos rfl)), fun hsource hlevel hstable harmed => ?taken, fun h => ?idle⟩
  case taken =>
    have htaken : camChuffed s = chuff { s with motor := { s.motor with camArmed := false } } :=
      if_pos ⟨hsource, hlevel, hstable, harmed⟩
    have heq := chuff_eq { s with motor := { s.motor with camArmed := false } }
    rw [htaken] at hchuff
    have hsmoke : (chuff { s with motor := { s.motor with camArmed := false } }).smoke =
        (smokeChuff { s with motor := { s.motor with camArmed := false } }).smoke := chuff_smoke _
    generalize chuff { s with motor := { s.motor with camArmed := false } } = t at hchuff heq hsmoke
    have hrunning : t.phase = .running := by
      rw [heq]
      exact hp
    have hdisarmed : t.motor.camArmed = false := by rw [heq]
    refine ⟨t, hchuff, ?again, fun hr => ?puff, fun hr => ?none, ⟨by rw [heq]; rfl, by rw [heq]; rfl⟩, by rw [heq]⟩
    case again =>
      refine congrArg Host.Outcome.next ((if_pos hrunning).trans (if_neg fun h => ?_))
      rw [hdisarmed] at h
      exact Bool.false_ne_true h.2.2.2
    case puff =>
      rw [hsmoke]
      unfold smokeChuff
      rw [if_pos (show ({ s with motor := { s.motor with camArmed := false } } : State).smoke.state = .ready from hr)]
      rfl
    case none =>
      rw [hsmoke]
      unfold smokeChuff
      rw [if_neg (show ¬ ({ s with motor := { s.motor with camArmed := false } } : State).smoke.state = .ready from hr)]
  case idle =>
    refine hchuff.trans (congrArg Host.Outcome.next (if_neg ?_))
    rintro ⟨hsource, hlevel, hstable, harmed⟩
    obtain h | h | h | h := h
    · exact h hsource
    · exact nomatch hlevel.symm.trans h
    · omega
    · exact nomatch harmed.symm.trans h

/-! ### A CHECK request (R19) -/

theorem exec_check_dispatched {s t : State} {f : Frame} {m : Mark} {src : Source} (h : Dispatched s f m src t)
    (hk : f.kind = 0x21) :
    exec .check s = .next (replied s f m src (actCheck { frame := f, mark := m, src := src } t)) :=
  congrArg Host.Outcome.next (takeRequest_dispatched h _ _ (ofKind_of_kind_eq hk))

theorem mayControl_iff (s : State) (src : Source) :
    mayControl s src = true ↔ holdsDrive s src = true ∨ src = .localMaster := by
  unfold mayControl
  rw [Bool.or_eq_true, beq_iff_eq]

theorem actCheck_refused {a : Asked} {s : State} (h : ¬ (holdsDrive s a.src = true ∨ a.src = .localMaster)) :
    actCheck a s = (.status .notHolder 0, s) := if_neg (mt (mayControl_iff s a.src).1 h)

theorem actCheck_taken {a : Asked} {s : State} (h : holdsDrive s a.src = true ∨ a.src = .localMaster) :
    actCheck a s = (.status .ok 0, checkTaken s) := if_pos ((mayControl_iff s a.src).2 h)

/-! ### The start of a check -/

theorem startCheck_accepted {s : State} (h : s.motor.checkAccepted = true) : startCheck s = { s with
    motor := { s.motor with state := .check, checkProgress := some 0, checkC := [], checkAccepted := false } } := if_pos h

/-- A control period depends on the motor's record by way of the start of an accepted check alone. -/
theorem controlPeriod_of_startCheck {s : State} {m : Motor} (h : startCheck s = startCheck (s.withMotor m)) (c b : Nat) :
    controlPeriod c b s = controlPeriod c b (s.withMotor m) := by
  unfold controlPeriod
  dsimp only
  rw [h]
  rfl

/-! ### A period of a running check (R20) -/

/-- The currents recorded by the period `p` of a check. -/
def checkCurrents (c p : Nat) (s : State) : List Nat := if p % 10 = 1 then s.motor.checkC ++ [c] else s.motor.checkC

/-- The motor's record in period `p` of a running check, before its end is looked at. -/
def pulsedMotor (c b p : Nat) (s : State) : Motor :=
  { (measure c b s).motor with
    R := 0, I := 0, rising := 0, falling := 0, checkC := checkCurrents (min 8190 c) p s
    Da := if p % 10 = 0 ∨ p = 9 ∨ p = 19 then min 256 (measure c b s).motor.cap else 0
    checkProgress := some (p + 1) }

/-- The motor's record of a check that has ended (R20, R21). -/
def endedMotor (r : CheckResult) (e : Option Nat) (now : Time) (m : Motor) : Motor :=
  { m with
    checkRecord := { result := r, estimate := e, time := now }
    checkProgress := none, checkC := [], checkAccepted := false, Da := 0, state := .stopped }

theorem endCheck_eq (r : CheckResult) (e : Option Nat) (s : State) :
    endCheck r e s = { s with motor := endedMotor r e s.partTime s.motor } := rfl

theorem checkPeriod_moving {c b p : Nat} {s : State} (h : p % 10 = 2 ∧ 40 < min 4095 b) :
    checkPeriod (min 4095 b) p (measure c b s) =
      { s with motor := endedMotor .moving none s.partTime (pulsedMotor c b p s) } := if_pos h

theorem checkPeriod_goes {c b p : Nat} {s : State} (h : ¬ (p % 10 = 2 ∧ 40 < min 4095 b)) (hp : p < 29) :
    checkPeriod (min 4095 b) p (measure c b s) = { s with motor := pulsedMotor c b p s } :=
  (if_neg h).trans (if_neg (Nat.not_le.2 hp))

theorem checkPeriod_last {c b p : Nat} {s : State} (h : ¬ (p % 10 = 2 ∧ 40 < min 4095 b)) (hp : 29 ≤ p) :
    checkPeriod (min 4095 b) p (measure c b s) = finishCheck { s with motor := pulsedMotor c b p s } :=
  (if_neg h).trans (if_pos hp)

/-- Every current recorded lies below 20 mA (R20). -/
theorem finishCheck_open {s : State} (h : ∀ x ∈ s.motor.checkC, x < 20) :
    finishCheck s = { s with motor := endedMotor .openCircuit (some 65535) s.partTime s.motor } :=
  if_pos (List.all_eq_true.2 fun x hx => decide_eq_true (h x hx))

theorem finishCheck_normal {s : State} {x : Nat} (hx : x ∈ s.motor.checkC) (h : 20 ≤ x) :
    finishCheck s = { s with
      motor := endedMotor .normal (some (checkEstimate s.supply.vt s.motor.checkC)) s.partTime s.motor } :=
  if_neg fun hall => Nat.not_lt.2 h (of_decide_eq_true (List.all_eq_true.1 hall x hx))

theorem measured_pulsed {c b : Nat} (hc : c ≤ 8190) (hb : b ≤ 4095) (p : Nat) (s : State) :
    Measured c b s (pulsedMotor c b p s) := (measured_measure hc hb s).of_eq rfl rfl rfl rfl rfl

theorem measured_ended {c b : Nat} (hc : c ≤ 8190) (hb : b ≤ 4095) (p : Nat) (s : State) (r : CheckResult)
    (e : Option Nat) : Measured c b s (endedMotor r e s.partTime (pulsedMotor c b p s)) :=
  (measured_pulsed hc hb p s).of_eq rfl rfl rfl rfl rfl

/-- A check runs and is neither abandoned nor restarted (R20, R21). -/
structure Checking (s : State) (p : Nat) : Prop where
  running : s.phase = .running
  track : s.supply.state = .track
  state : s.motor.state = .check
  accepted : s.motor.checkAccepted = false
  progress : s.motor.checkProgress = some p

theorem Checking.begin_ {s : State} {p : Nat} (h : Checking s p) : startCheck s = s := by
  unfold startCheck
  rw [h.accepted]
  rfl

theorem Checking.begins {s : State} {p : Nat} (h : Checking s p) (ht : sEff s = 0) :
    (if 0 < sEff s then abandonCheck (startCheck s) else startCheck s) = { s with motor := s.motor } := by
  rw [ht, if_neg (Nat.lt_irrefl 0)]
  exact h.begin_

theorem Checking.middle {s : State} {p : Nat} (h : Checking s p) (c b : Nat) :
    middleStages (sEff s) b (accelInUse s) (decelInEffect s) (measure c b { s with motor := s.motor }) =
      checkPeriod (min 4095 b) p (measure c b s) := by
  unfold middleStages
  rw [if_neg (show ¬ (measure c b { s with motor := s.motor }).supply.state = .dark by
      rw [show (measure c b { s with motor := s.motor }).supply = s.supply from rfl, h.track]; exact nofun),
    show (measure c b { s with motor := s.motor }).motor.state = .check from h.state,
    show (measure c b { s with motor := s.motor }).motor.checkProgress = some p from h.progress]

/-- A period of a running check, by its record after stage 6. -/
theorem Checking.controlPeriod {s : State} {p : Nat} (h : Checking s p) (ht : sEff s = 0) {c b : Nat} {X : Motor}
    (hX : checkPeriod (min 4095 b) p (measure c b s) = { s with motor := X }) :
    controlPeriod c b s = afterPublish s.pub.phase (chuffDue s X) (X.state != .check)
      { s with motor := finished s s.motor.R false X, pub := publishedOf (finished s s.motor.R false X) } := by
  have hperiod := controlPeriod_eq (h.begins ht) ((h.middle c b).trans hX)
  have hdark : ¬ s.supply.state = .dark := by
    rw [h.track]
    exact nofun
  have hdriving : (s.supply.state != .dark && !(s.motor.state == .check) && X.state != .fault) = false := by
    rw [h.state, h.track]
    rfl
  have hended : (s.motor.state == .check && X.state != .check) = (X.state != .check) := by
    rw [h.state]
    rfl
  rw [if_neg hdark, hdriving, hended] at hperiod
  exact hperiod

theorem settledMotor_ended (pending : Bool) (m : Motor) :
    settledMotor true pending m = { m with checkShorted := false } := rfl

theorem settledMotor_check {m : Motor} (h : m.state = .check) (pending : Bool) :
    ∃ f, settledMotor false pending m = { m with checkShorted := f } := by
  unfold settledMotor
  split
  · exact ⟨_, rfl⟩
  · split
    · exact ⟨m.checkShorted, rfl⟩
    · exact ⟨m.checkShorted, rfl⟩
    next hcheck _ => exact absurd h hcheck

/-- A period that ends a check leaves its result (R20). -/
theorem Checking.ends {s : State} {p : Nat} (h : Checking s p) (ht : sEff s = 0) {c b : Nat} (hc : c ≤ 8190)
    (hb : b ≤ 4095) {r : CheckResult} {e : Option Nat}
    (hX : checkPeriod (min 4095 b) p (measure c b s) =
      { s with motor := endedMotor r e s.partTime (pulsedMotor c b p s) }) :
    Leaves s (Machine.controlPeriod c b s)
      (finished s s.motor.R false (endedMotor r e s.partTime (pulsedMotor c b p s))) true :=
  leaves_of_published (measured_ended hc hb p s r e)
    (beforeSettle_motor rfl fun _ _ => rfl) (h.controlPeriod ht hX)

theorem exec_checkComplete_ends {s : State} {p : Nat} (h : Checking s p) {c b : Nat}
    (hstate : (controlPeriod c b s).motor.state ≠ .check)
    (hresult : (controlPeriod c b s).motor.checkRecord.result ≠ .abandoned) :
    exec (.checkComplete c b) s = .next (controlPeriod c b s) :=
  congrArg Host.Outcome.next (if_pos ⟨h.running, h.state, hstate, hresult⟩)

theorem exec_checkComplete_not {s : State} {c b : Nat} (h : (controlPeriod c b s).motor.state = .check ∨
    (controlPeriod c b s).motor.checkRecord.result = .abandoned) : exec (.checkComplete c b) s = .next s :=
  congrArg Host.Outcome.next (if_neg fun hc => h.elim hc.2.2.1 hc.2.2.2)

/-- What a period that ends a check leaves (R20). -/
theorem Checking.done {s : State} {p : Nat} (h : Checking s p) (ht : sEff s = 0) {c b : Nat} (hc : c ≤ 8190)
    (hb : b ≤ 4095) {r : CheckResult} {e : Option Nat} (hr : r ≠ .abandoned)
    (hX : checkPeriod (min 4095 b) p (measure c b s) =
      { s with motor := endedMotor r e s.partTime (pulsedMotor c b p s) }) :
    (let t := Machine.controlPeriod c b s
     (exec (.controlPeriod c b) s = .next t ∧ exec (.checkComplete c b) s = .next t) ∧
       t.motor.checkRecord = { result := r, estimate := e, time := s.partTime } ∧ t.motor.checkProgress = none ∧
       t.motor.checkC = [] ∧ t.motor.Da = 0 ∧ t.motor.state = .stopped ∧ t.faults = s.faults ∧
       MeasuredAndPublished .stopped c b s t ∧ FollowsPublishing s t) := by
  have hleaves := h.ends ht hc hb hX
  have hmotor := hleaves.motor
  rw [settledMotor_ended] at hmotor
  have hmeasured := hleaves.measured (measured_ended hc hb p s r e)
  have hcomplete := exec_checkComplete_ends (c := c) (b := b) h (by rw [hmotor]; exact nofun) (by rw [hmotor]; exact hr)
  refine ⟨⟨exec_controlPeriod h.running c b, hcomplete⟩, ?_, ?_, ?_, ?_, ?_, (congrArg State.faults hleaves.frame :),
    hmeasured, hleaves.follows⟩
  all_goals rw [hmotor]
  all_goals rfl

/-- What a period that goes on with a check leaves, where no reversal waits and no dwell begins (R20). -/
theorem Checking.goes {s : State} {p : Nat} (h : Checking s p) (ht : sEff s = 0) {c b : Nat} (hc : c ≤ 8190)
    (hb : b ≤ 4095) (hX : checkPeriod (min 4095 b) p (measure c b s) = { s with motor := pulsedMotor c b p s })
    (hturn : s.demand.pending = false) (hdwell : ∀ x, findHold s .beacon = some x → x.phase ≠ some .approach) :
    Leaves s (Machine.controlPeriod c b s) (finished s s.motor.R false (pulsedMotor c b p s)) false := by
  have hperiod := h.controlPeriod ht hX
  have hstate : (pulsedMotor c b p s).state = .check := h.state
  rw [hstate] at hperiod
  have hX := measured_pulsed hc hb p s
  generalize pulsedMotor c b p s = X at hperiod hX ⊢
  refine leaves_of_published hX ?_ hperiod
  have hwaits := completeReversal_waits (s := { s with
    motor := finished s s.motor.R false X, pub := publishedOf (finished s s.motor.R false X) }) (.inl hturn)
  have hstands := beginDwell_stands (s := { s with
    motor := finished s s.motor.R false X, pub := publishedOf (finished s s.motor.R false X) })
    fun x hx he => hdwell x hx he.2.1
  exact (beforeSettle_of_stands hwaits hstands).1

/-! ### An abandoned check (R21) -/

/-- The motor's record of a check that a target above 0 has abandoned (R21). -/
def abandonedMotor (s : State) : Motor := endedMotor .abandoned none s.partTime s.motor

theorem Checking.abandons {s : State} {p : Nat} (h : Checking s p) (ht : 0 < sEff s) :
    (if 0 < sEff s then abandonCheck (startCheck s) else startCheck s) = { s with motor := abandonedMotor s } := by
  rw [if_pos ht, h.begin_]
  unfold abandonCheck Motor.checking
  rw [h.state]
  rfl

/-- Stages 3 to 6 of the period that abandons a check: it drives. -/
theorem middleStages_abandoned {s : State} (hs : s.supply.state = .track) (c b : Nat) :
    middleStages (sEff s) b (accelInUse s) (decelInEffect s) (measure c b { s with motor := abandonedMotor s }) =
      detectFaults { s with motor := countFaults (speedLoop (loopSettings s) (sEff s)
        (moveReference (sEff s) (accelInUse s) (decelInEffect s)
          (measure c b { s with motor := abandonedMotor s }).motor)) } := by
  unfold middleStages
  rw [if_neg (show ¬ (measure c b { s with motor := abandonedMotor s }).supply.state = .dark by
    rw [show (measure c b { s with motor := abandonedMotor s }).supply = s.supply from rfl, hs]; exact nofun)]
  rfl

/-- What the rest of a control period leaves of a motor's record whose check is over. -/
theorem afterPublish_checked {old : MotionPhase} {isChuff ended : Bool} {p : State} (h : p.motor.checking = false) :
    (afterPublish old isChuff ended p).motor.checkRecord = p.motor.checkRecord ∧
      (afterPublish old isChuff ended p).motor.checkProgress = p.motor.checkProgress ∧
      (afterPublish old isChuff ended p).motor.state ≠ .check ∧ (afterPublish old isChuff ended p).motor.R = p.motor.R := by
  have hstate := ((checking_iff _).1 h).1
  have hturn : TurnsIdle p (beforeSettle old isChuff p) := turnsIdle_laws.beforeSettle old isChuff p
  have hbefore : (beforeSettle old isChuff p).motor.checkRecord = p.motor.checkRecord ∧
      (beforeSettle old isChuff p).motor.checkProgress = p.motor.checkProgress ∧
      (beforeSettle old isChuff p).motor.state ≠ .check ∧ (beforeSettle old isChuff p).motor.R = p.motor.R := by
    obtain hm | hm := hturn h
    · rw [hm]
      exact ⟨rfl, rfl, hstate, rfl⟩
    · rw [hm]
      exact ⟨rfl, rfl, hstate, rfl⟩
  rw [afterPublish_eq, settle_motor]
  unfold settledMotor
  split
  · exact hbefore
  · split
    · exact hbefore
    · exact hbefore
    · refine ⟨hbefore.1, hbefore.2.1, ?_, hbefore.2.2.2⟩
      dsimp only
      split
      · exact nofun
      · split <;> exact nofun

theorem Checking.abandoned {s : State} {p : Nat} (h : Checking s p) (ht : 0 < sEff s) (c b : Nat) :
    (let t := Machine.controlPeriod c b s
     t.motor.checkRecord = { result := .abandoned, estimate := none, time := s.partTime } ∧
       t.motor.checkProgress = none ∧ t.motor.state ≠ .check ∧
       t.motor.R = (moveReference (sEff s) (accelInUse s) (decelInEffect s) s.motor).R) := by
  have hreference := (moveReference_congr (m := (measure c b { s with motor := abandonedMotor s }).motor) (n := s.motor)
    rfl rfl rfl (sEff s) (accelInUse s) (decelInEffect s)).1
  have hmiddle := middleStages_abandoned h.track c b
  obtain ⟨r, up, down, hmoved⟩ := Lit.moveReference_same (sEff s) (accelInUse s) (decelInEffect s)
    (measure c b { s with motor := abandonedMotor s }).motor
  rw [hmoved] at hreference hmiddle
  obtain ⟨i, da, hloop⟩ := speedLoop_same (loopSettings s) (sEff s)
    { (measure c b { s with motor := abandonedMotor s }).motor with R := r, rising := up, falling := down }
  rw [hloop] at hmiddle
  obtain ⟨m, l, f, hu, hm, -⟩ := detectFaults_measured { s with
    motor := countFaults ({ (measure c b { s with motor := abandonedMotor s }).motor with
      R := r, rising := up, falling := down, I := i, Da := da } : Motor) }
  have hperiod := controlPeriod_stages (h.abandons ht) (hmiddle.trans hu)
  have hkept : m.checking = false ∧ m.R = r ∧ m.checkProgress = none ∧
      m.checkRecord = { result := .abandoned, estimate := none, time := s.partTime } := by
    obtain rfl | ⟨k, ls, rfl⟩ := hm
    · exact ⟨rfl, rfl, rfl, rfl⟩
    · exact ⟨rfl, rfl, rfl, rfl⟩
  dsimp only at hperiod ⊢
  rw [hperiod]
  obtain ⟨hrecord, hprogress, hstate, hR⟩ := afterPublish_checked (old := s.pub.phase)
    (isChuff := chuffDue { s with motor := m, holds := l, faults := f } m)
    (ended := (abandonedMotor s).state == .check && m.state != .check)
    (p := { s with
      motor := finished { s with motor := m, holds := l, faults := f }
        (if s.supply.state = .dark then s.pub.R else (abandonedMotor s).R)
        (s.supply.state != .dark && !((abandonedMotor s).state == .check) && m.state != .fault) m
      holds := l, faults := f
      pub := publishedOf (finished { s with motor := m, holds := l, faults := f }
        (if s.supply.state = .dark then s.pub.R else (abandonedMotor s).R)
        (s.supply.state != .dark && !((abandonedMotor s).state == .check) && m.state != .fault) m) }) hkept.1
  exact ⟨hrecord.trans hkept.2.2.2, hprogress.trans hkept.2.2.1, hstate, hR.trans (hkept.2.1.trans hreference)⟩

/-- What a period leaves that goes on with a check (R20). -/
theorem Checking.goes_on {s : State} {p : Nat} (h : Checking s p) (ht : sEff s = 0) {c b : Nat} (hc : c ≤ 8190)
    (hb : b ≤ 4095) (hX : checkPeriod (min 4095 b) p (measure c b s) = { s with motor := pulsedMotor c b p s })
    (hturn : s.demand.pending = false) (hdwell : ∀ x, findHold s .beacon = some x → x.phase ≠ some .approach) :
    (let t := Machine.controlPeriod c b s
     exec (.checkComplete c b) s = .next s ∧ MeasuredAndPublished .check c b s t ∧ FollowsPublishing s t ∧
       t.motor.state = .check ∧ t.motor.checkProgress = some (p + 1) ∧ t.motor.checkC = checkCurrents c p s ∧
       t.motor.Da = (if p % 10 = 0 ∨ p = 9 ∨ p = 19 then min 256 t.motor.cap else 0) ∧ t.motor.R = 0 ∧ t.motor.I = 0 ∧
       t.motor.labour = 0 ∧ t.motor.checkRecord = s.motor.checkRecord ∧ t.faults = s.faults) := by
  have hleaves := h.goes ht hc hb hX hturn hdwell
  have hpulsed : MeasuredAndPublished (pulsedMotor c b p s).state c b s (Machine.controlPeriod c b s) :=
    hleaves.measured (measured_pulsed hc hb p s)
  have hstate : (pulsedMotor c b p s).state = .check := h.state
  obtain ⟨f, hf⟩ := settledMotor_check (m := finished s s.motor.R false (pulsedMotor c b p s)) hstate
    (Machine.controlPeriod c b s).demand.pending
  have hmotor := hleaves.motor.trans hf
  have hcurrents : (pulsedMotor c b p s).checkC = checkCurrents c p s := by
    show checkCurrents (min 8190 c) p s = _
    rw [Nat.min_eq_right hc]
  have hcheck : (Machine.controlPeriod c b s).motor.state = .check := by
    rw [hmotor]
    exact hstate
  refine ⟨exec_checkComplete_not (.inl hcheck), hstate ▸ hpulsed, hleaves.follows, hcheck, ?_, ?_, ?_, ?_, ?_, ?_, ?_,
    (congrArg State.faults hleaves.frame :)⟩
  case refine_2 => rw [hmotor]; exact hcurrents
  all_goals rw [hmotor]
  all_goals rfl

theorem checkCurrents_last (c : Nat) (s : State) : checkCurrents c 29 s = s.motor.checkC := if_neg (by decide)

theorem checkEstimate_three (vt x y z : Nat) :
    checkEstimate vt [x, y, z] = min 65535 (vt * 256 / 1023 * 100 / ((x + y + z) / 3)) := by
  unfold checkEstimate
  rw [show [x, y, z].sum = x + y + z by simp [Nat.add_assoc]]

/-- Settles O34: the request by the branches of `checkTaken`, a period by its record after stage 6. -/
theorem checkRunsAndEnds : Obligations.CheckRunsAndEnds := by
  unfold Obligations.CheckRunsAndEnds
  refine ⟨fun s f m src t hd hk => ⟨fun hno => ?refused, fun hmay hstate => ?running, fun hmay hready => ?accepted,
    fun hmay hstate hready => ?notRun⟩, fun s c b haccepted => ?starts, fun s c b p hp htrack hstate haccepted hprogress
    hlast hc hb => ?periods⟩
  case refused => rw [exec_check_dispatched hd hk, actCheck_refused hno]
  case running =>
    rw [exec_check_dispatched hd hk, actCheck_taken hmay, show checkTaken t = t from if_pos hstate]
  case accepted =>
    have hnot : t.motor.state ≠ .check := by
      rw [hready.2.1]
      exact nofun
    have htaken : checkTaken t = { t with motor := { t.motor with
        checkAccepted := true, checkShorted := false, Da := min 256 t.motor.cap } } :=
      (if_neg hnot).trans (if_pos hready)
    rw [exec_check_dispatched hd hk, actCheck_taken hmay, htaken]
  case notRun =>
    have htaken : checkTaken t = { t with motor := { t.motor with
        checkRecord := { result := .notRun, estimate := none, time := t.partTime } } } :=
      (if_neg hstate).trans (if_neg hready)
    rw [exec_check_dispatched hd hk, actCheck_taken hmay, htaken]
  case starts =>
    have hsame := controlPeriod_of_startCheck (s := { s with phase := .running }) (m := { s.motor with
      state := .check, checkProgress := some 0, checkC := [], checkAccepted := false }) (startCheck_accepted haccepted) c b
    exact congrArg Host.Outcome.next hsame
  case periods =>
    have h : Checking s p := ⟨hp, htrack, hstate, haccepted, hprogress⟩
    have hmin : min 4095 b = b := Nat.min_eq_right hb
    refine ⟨fun ht hstill hmore hsteady => ?goes, fun ht hmoving => ?moving, fun ht h29 x y z hxyz => ?ends,
      fun ht => ?abandoned⟩
    case goes =>
      exact ⟨_, exec_controlPeriod hp c b,
        h.goes_on ht hc hb (checkPeriod_goes (hmin.symm ▸ hstill) hmore) hsteady.1 hsteady.2⟩
    case moving =>
      exact ⟨_, h.done (r := .moving) ht hc hb nofun (checkPeriod_moving (hmin.symm ▸ hmoving))⟩
    case ends =>
      subst h29
      have hperiod : checkPeriod (min 4095 b) 29 (measure c b s) = finishCheck { s with motor := pulsedMotor c b 29 s } :=
        checkPeriod_last (fun hm => absurd hm.1 (by decide)) (Nat.le_refl 29)
      have hcurrents : (pulsedMotor c b 29 s).checkC = [x, y, z] := (checkCurrents_last (min 8190 c) s).trans hxyz
      by_cases hlow : ∀ n ∈ [x, y, z], n < 20
      · have hopen := finishCheck_open (s := { s with motor := pulsedMotor c b 29 s }) (hcurrents.symm ▸ hlow)
        obtain ⟨hboth, hdone⟩ := h.done (r := .openCircuit) ht hc hb nofun (hperiod.trans hopen)
        refine ⟨_, hboth, fun _ _ _ => hdone, fun hhigh => ?_⟩
        have hx := hlow x (by simp)
        have hy := hlow y (by simp)
        have hz := hlow z (by simp)
        omega
      · obtain ⟨n, hn, hn20⟩ : ∃ n ∈ [x, y, z], 20 ≤ n := by
          simpa only [not_forall, Nat.not_lt, exists_prop] using hlow
        have hnormal := finishCheck_normal (s := { s with motor := pulsedMotor c b 29 s }) (hcurrents.symm ▸ hn) hn20
        dsimp only at hnormal
        rw [hcurrents, checkEstimate_three] at hnormal
        obtain ⟨hboth, hdone⟩ := h.done (r := .normal) ht hc hb nofun (hperiod.trans hnormal)
        exact ⟨_, hboth, fun hx hy hz => absurd (by simp [hx, hy, hz]) hlow, fun _ => hdone⟩
    case abandoned =>
      have habandoned := h.abandoned ht c b
      exact ⟨_, exec_controlPeriod hp c b, exec_checkComplete_not (.inr (by rw [habandoned.1])), habandoned⟩

end Sys2Proof.Machine
end

section
/-! The rules of the Throttle Table and of the Claim Table: what an ended transaction, a forgotten entry, a changed holder
list and a removal of items leave (R45, R52, R66, R69 to R73). -/

namespace Sys2Proof.Machine

/-! ### The Sound Engine's mode -/

/-- Everything but the Sound Engine and the Flash Port is the same. -/
def SoundFrame (s t : State) : Prop := t = { s with sound := t.sound, port := t.port }

namespace SoundFrame

theorem refl (s : State) : SoundFrame s s := rfl

theorem trans {a b c : State} (h : SoundFrame a b) (k : SoundFrame b c) : SoundFrame a c := by
  unfold SoundFrame at h k
  rw [h] at k
  exact k

theorem startRequest (c : Nat) (held : Bool) (s : State) : SoundFrame s (startRequest c held s) :=
  startRequest_frame c held s

theorem momentaryStart (c : Option Nat) (s : State) : SoundFrame s (momentaryStart c s) := momentaryStart_frame c s

theorem triggerEnd (c : Nat) (s : State) : SoundFrame s (triggerEnd c s) := by
  unfold Machine.triggerEnd
  split <;> rfl

theorem foldl {β : Type} {f : State → β → State} (hf : ∀ s b, SoundFrame s (f s b)) (l : List β) (s : State) :
    SoundFrame s (l.foldl f s) := by
  induction l generalizing s with
  | nil => rfl
  | cons b l ih => exact (hf s b).trans (ih _)

theorem fadeVoice (v : Nat) (s : State) : SoundFrame s (fadeVoice v s) := by
  unfold Machine.fadeVoice
  dsimp only
  split
  · rfl
  · split <;> rfl

theorem goQuiet (s : State) : SoundFrame s (goQuiet s) := by
  unfold Machine.goQuiet
  dsimp only
  refine trans ?_ (foldl (fun u v => fadeVoice v u) _ _)
  have hmode : SoundFrame s { s with sound := { s.sound with mode := .quiet, ambient := false } } := rfl
  split
  · exact hmode.trans (triggerEnd _ _)
  · exact hmode

theorem ambientBegin (s : State) : SoundFrame s (ambientBegin s) := by
  have hambient : SoundFrame s { s with sound := { s.sound with ambient := true } } := rfl
  unfold Machine.ambientBegin
  dsimp only
  split
  · exact hambient.trans (startRequest _ true _)
  · exact hambient

theorem updateMode (s : State) : SoundFrame s (updateMode s) := by
  have hmode : SoundFrame s { s with sound := { s.sound with mode := .normal } } := rfl
  unfold Machine.updateMode
  split
  · exact goQuiet s
  · dsimp only
    split
    · exact hmode.trans (ambientBegin _)
    · exact hmode
  · rfl

end SoundFrame

/-! ### The end of a transaction (R171, R172) -/

/-- Everything but the Throttle Table, the transaction, the Sound Engine and the Flash Port is the same. -/
def LedgerFrame (s t : State) : Prop :=
  t = { s with throttles := t.throttles, txn := t.txn, sound := t.sound, port := t.port }

theorem LedgerFrame.refl (s : State) : LedgerFrame s s := rfl

theorem LedgerFrame.trans {a b c : State} (h : LedgerFrame a b) (k : LedgerFrame b c) : LedgerFrame a c := by
  unfold LedgerFrame at h k
  rw [h] at k
  exact k

theorem endTxn_frame (s : State) : endTxn s = { s with
    txn := { s.txn with state := .closed, staged := [] }, sound := (endTxn s).sound, port := (endTxn s).port } :=
  SoundFrame.updateMode { s with txn := { s.txn with state := .closed, staged := [] } }

/-- A source has a transaction open (R172). -/
def OpenBy (src : Source) (s : State) : Prop := s.txn.state ≠ .closed ∧ s.txn.opener = src

theorem not_openBy_iff (src : Source) (s : State) : ¬ OpenBy src s ↔ s.txn.state = .closed ∨ s.txn.opener ≠ src := by
  unfold OpenBy
  rw [not_and_or, not_not]

theorem abortTxnOf_open {src : Source} {s : State} (h : OpenBy src s) : abortTxnOf src s = endTxn s := if_pos h

theorem abortTxnOf_other {src : Source} {s : State} (h : ¬ OpenBy src s) : abortTxnOf src s = s := if_neg h

theorem not_openBy_endTxn (src : Source) (s : State) : ¬ OpenBy src (endTxn s) := by
  rw [endTxn_frame]
  exact fun h => h.1 rfl

theorem not_openBy_abortTxnOf (src : Source) (s : State) : ¬ OpenBy src (abortTxnOf src s) := by
  by_cases h : OpenBy src s
  · rw [abortTxnOf_open h]
    exact not_openBy_endTxn src s
  · rwa [abortTxnOf_other h]

theorem abortTxnOf_frame (src : Source) (s : State) : abortTxnOf src s = { s with
    txn := (abortTxnOf src s).txn, sound := (abortTxnOf src s).sound, port := (abortTxnOf src s).port } := by
  by_cases h : OpenBy src s
  · rw [abortTxnOf_open h]
    have htxn : (endTxn s).txn = { s.txn with state := .closed, staged := [] } := (congrArg State.txn (endTxn_frame s) :)
    rw [htxn]
    exact endTxn_frame s
  · rw [abortTxnOf_other h]

/-! ### A forgotten entry (R52) -/

/-- The entry of an index is forgotten: LOST, past its forget time, and named by no claim (R52). -/
def Forgets (i : Nat) (s : State) : Prop :=
  namedByClaim s i = false ∧ ∃ e, entry s i = some e ∧ forgetDue s e = true

theorem forgetIfDue_forgets {i : Nat} {s : State} (h : Forgets i s) : forgetIfDue i s = removeEntry i s := by
  obtain ⟨hn, e, he, hd⟩ := h
  unfold forgetIfDue
  rw [he]
  dsimp only
  rw [hd, hn]
  rfl

theorem forgetIfDue_keeps {i : Nat} {s : State} (h : ¬ Forgets i s) : forgetIfDue i s = s := by
  unfold forgetIfDue
  split
  next e he =>
    refine if_neg fun hc => h ?_
    obtain ⟨hd, hn⟩ := Bool.and_eq_true_iff.1 hc
    exact ⟨Bool.not_eq_true' _ ▸ hn, e, he, hd⟩
  next => rfl

theorem itemGone_throttle (i : Nat) (s : State) : itemGone (.throttle i) s = forgetIfDue i s := by
  unfold itemGone releaseNotice
  dsimp only
  split
  next h => exact (forgetIfDue_keeps fun hf => Bool.false_ne_true (hf.1.symm.trans h)).symm
  next => rfl

theorem removeEntry_frame (i : Nat) (s : State) : removeEntry i s = { s with
    throttles := s.throttles.set i none, txn := (removeEntry i s).txn, sound := (removeEntry i s).sound
    port := (removeEntry i s).port } := abortTxnOf_frame (.throttle i) (setEntry i none s)

theorem removeEntry_other {i : Nat} {s : State} (h : ¬ OpenBy (.throttle i) s) :
    removeEntry i s = { s with throttles := s.throttles.set i none } :=
  abortTxnOf_other (s := setEntry i none s) h

theorem removeEntry_open {i : Nat} {s : State} (h : OpenBy (.throttle i) s) :
    (removeEntry i s).txn.state = .closed ∧ (removeEntry i s).txn.staged = [] := by
  have hopen : removeEntry i s = endTxn (setEntry i none s) := abortTxnOf_open (s := setEntry i none s) h
  rw [hopen, endTxn_frame]
  exact ⟨rfl, rfl⟩

theorem not_forgets_removeEntry (i : Nat) (s : State) : ¬ Forgets i (removeEntry i s) := by
  rintro ⟨-, e, he, -⟩
  rw [removeEntry_frame] at he
  unfold entry at he
  dsimp only at he
  rw [List.getD_eq_getElem?_getD, List.getElem?_set_self'] at he
  cases h : s.throttles[i]? <;> rw [h] at he <;> cases he

theorem not_openBy_removeEntry (i : Nat) (s : State) : ¬ OpenBy (.throttle i) (removeEntry i s) :=
  not_openBy_abortTxnOf _ _

theorem not_forgets_forgetIfDue (i : Nat) (s : State) : ¬ Forgets i (forgetIfDue i s) := by
  by_cases h : Forgets i s
  · rw [forgetIfDue_forgets h]
    exact not_forgets_removeEntry i s
  · rwa [forgetIfDue_keeps h]

theorem forgetIfDue_frame (i : Nat) (s : State) : LedgerFrame s (forgetIfDue i s) := by
  by_cases h : Forgets i s
  · rw [forgetIfDue_forgets h]
    have hl : (removeEntry i s).throttles = s.throttles.set i none := (congrArg State.throttles (removeEntry_frame i s) :)
    unfold LedgerFrame
    rw [hl]
    exact removeEntry_frame i s
  · rw [forgetIfDue_keeps h]
    rfl

theorem abortTxnOf_ledger (src : Source) (s : State) : LedgerFrame s (abortTxnOf src s) := by
  have h := abortTxnOf_frame src s
  have ht : (abortTxnOf src s).throttles = s.throttles := (congrArg State.throttles h :)
  unfold LedgerFrame
  rw [ht]
  exact h

theorem driveLost_throttle (i : Nat) (s : State) : driveLost (.throttle i) s = abortTxnOf (.throttle i) s := rfl

/-! ### A changed holder list (R66, R73) -/

/-- The DRIVE record with a new holder list (R66). -/
def newHolders (mode : DriveMode) (holders : List HolderItem) (s : State) : State :=
  { s with drive :=
    { mode := if holders.isEmpty then .free else mode, holders := holders,
      generation := nextGeneration s.drive.generation } }

/-- The sources of the DRIVE record that a new holder list no longer names. -/
def goneSources (holders : List HolderItem) (s : State) : List Source :=
  (s.drive.holders.map (·.source)).filter (fun x => !(holders.any (fun h => h.source == x)))

theorem changeHolders_eq (mode : DriveMode) (holders : List HolderItem) (s : State) : changeHolders mode holders s =
    (goneSources holders s).foldl (fun s x => itemGone x (driveLost x s)) (newHolders mode holders s) := rfl

theorem mem_goneSources {holders : List HolderItem} {s : State} {x : Source} :
    x ∈ goneSources holders s ↔ (∃ h ∈ s.drive.holders, h.source = x) ∧ ∀ h ∈ holders, h.source ≠ x := by
  unfold goneSources
  simp

/-- A new holder list that names every old source gives no notice. -/
theorem changeHolders_of_kept {mode : DriveMode} {holders : List HolderItem} {s : State}
    (h : ∀ x ∈ s.drive.holders, ∃ y ∈ holders, y.source = x.source) :
    changeHolders mode holders s = newHolders mode holders s := by
  have hnone : goneSources holders s = [] := by
    refine List.eq_nil_iff_forall_not_mem.2 fun x hx => ?_
    obtain ⟨⟨a, ha, rfl⟩, hall⟩ := mem_goneSources.1 hx
    obtain ⟨y, hy, hs⟩ := h a ha
    exact hall y hy hs
  rw [changeHolders_eq, hnone]
  rfl

theorem ledger_foldl {f : State → Source → State} (hf : ∀ s x, LedgerFrame s (f s x)) (l : List Source) (s : State) :
    LedgerFrame s (l.foldl f s) := by
  induction l generalizing s with
  | nil => rfl
  | cons x l ih => exact (hf s x).trans (ih _)

theorem itemGone_frame (x : Source) (s : State) : LedgerFrame s (itemGone x s) := by
  cases x with
  | throttle i =>
    rw [itemGone_throttle]
    exact forgetIfDue_frame i s
  | localMaster => rfl

theorem driveLost_frame (x : Source) (s : State) : LedgerFrame s (driveLost x s) := by
  cases x with
  | throttle i => exact abortTxnOf_ledger _ s
  | localMaster => rfl

theorem changeHolders_frame (mode : DriveMode) (holders : List HolderItem) (s : State) :
    LedgerFrame (newHolders mode holders s) (changeHolders mode holders s) :=
  ledger_foldl (fun u x => (driveLost_frame x u).trans (itemGone_frame x _)) _ _

theorem changeGroup_frame (g : Nat) (item : Option HolderItem) (s : State) :
    LedgerFrame { s with groups := s.groups.set g item } (changeGroup g item s) := by
  unfold changeGroup
  dsimp only
  split
  · exact itemGone_frame _ _
  · rfl

theorem changeGroup_open {g : Nat} {item : Option HolderItem} {s : State} (h : s.groups.getD g none = none) :
    changeGroup g item s = { s with groups := s.groups.set g item } := by
  unfold changeGroup
  rw [h]

/-! ### The removal of an index's items (R66, R69, R71, R73) -/

/-- The notices of a lost DRIVE item of an index, which change nothing when they come again. -/
def driveGone (i : Nat) (s : State) : State := forgetIfDue i (abortTxnOf (.throttle i) s)

theorem driveGone_driveGone (i : Nat) (s : State) : driveGone i (driveGone i s) = driveGone i s := by
  have hclosed : ¬ OpenBy (.throttle i) (driveGone i s) := by
    unfold driveGone
    by_cases h : Forgets i (abortTxnOf (.throttle i) s)
    · rw [forgetIfDue_forgets h]
      exact not_openBy_removeEntry i _
    · rw [forgetIfDue_keeps h]
      exact not_openBy_abortTxnOf _ s
  have hkept : ¬ Forgets i (driveGone i s) := not_forgets_forgetIfDue i _
  calc driveGone i (driveGone i s) = forgetIfDue i (driveGone i s) := congrArg _ (abortTxnOf_other hclosed)
    _ = driveGone i s := forgetIfDue_keeps hkept

theorem foldl_driveGone {i : Nat} {l : List Source} (hl : ∀ x ∈ l, x = .throttle i) (hne : l ≠ []) (s : State) :
    l.foldl (fun s x => itemGone x (driveLost x s)) s = driveGone i s := by
  induction l generalizing s with
  | nil => exact absurd rfl hne
  | cons x l ih =>
    obtain rfl := hl x List.mem_cons_self
    rw [List.foldl_cons, itemGone_throttle, driveLost_throttle]
    by_cases hn : l = []
    · rw [hn]
      rfl
    · rw [ih (fun y hy => hl y (List.mem_cons_of_mem _ hy)) hn]
      exact driveGone_driveGone i s

/-- An index's items that satisfy a test. -/
def goes (i : Nat) (test : HolderItem → Bool) (h : HolderItem) : Bool := h.source == .throttle i && test h

/-- The state whose two claim records have lost the items that go, before any notice. -/
def itemsRemoved (i : Nat) (test : HolderItem → Bool) (s : State) : State :=
  let left := s.drive.holders.filter (fun h => !goes i test h)
  { s with
    drive := if left.length = s.drive.holders.length then s.drive
      else { mode := if left.isEmpty then .free else s.drive.mode, holders := left,
             generation := nextGeneration s.drive.generation }
    groups := s.groups.map (fun g => match g with
      | some h => if goes i test h then none else some h
      | none => none) }

/-- The last DRIVE item of an index goes. -/
def LosesDrive (i : Nat) (test : HolderItem → Bool) (s : State) : Prop :=
  (s.drive.holders.filter (fun h => !goes i test h)).length ≠ s.drive.holders.length ∧
    ∀ h ∈ s.drive.holders.filter (fun h => !goes i test h), h.source ≠ .throttle i

/-- Some group of an index goes. -/
def LosesGroup (i : Nat) (test : HolderItem → Bool) (s : State) : Prop :=
  ∃ g ∈ s.groups, ∃ h, g = some h ∧ goes i test h = true

theorem hadGroup_iff (i : Nat) (test : HolderItem → Bool) (s : State) :
    s.groups.any (fun g => match g with | some h => goes i test h | none => false) = true ↔ LosesGroup i test s := by
  unfold LosesGroup
  rw [List.any_eq_true]
  refine exists_congr fun g => and_congr_right fun _ => ?_
  cases g <;> simp

theorem goneSources_left {i : Nat} {test : HolderItem → Bool} {s : State} {x : Source}
    (hx : x ∈ goneSources (s.drive.holders.filter (fun h => !goes i test h)) s) : x = .throttle i := by
  obtain ⟨⟨h, hh, rfl⟩, hall⟩ := mem_goneSources.1 hx
  by_contra hne
  refine hall h (List.mem_filter.2 ⟨hh, ?_⟩) rfl
  unfold goes
  rw [beq_eq_false_iff_ne.2 hne]
  rfl

theorem goneSources_left_ne_nil {i : Nat} {test : HolderItem → Bool} {s : State} (h : LosesDrive i test s) :
    goneSources (s.drive.holders.filter (fun h => !goes i test h)) s ≠ [] := by
  obtain ⟨hlen, hall⟩ := h
  obtain ⟨x, hx, hgoes⟩ : ∃ x ∈ s.drive.holders, goes i test x = true := by
    by_contra hno
    refine hlen (congrArg List.length (List.filter_eq_self.2 fun x hx => ?_))
    rw [Bool.not_eq_true', ← Bool.not_eq_true]
    exact fun hg => hno ⟨x, hx, hg⟩
  have hs : x.source = .throttle i := beq_iff_eq.1 (Bool.and_eq_true_iff.1 hgoes).1
  exact List.ne_nil_of_mem (mem_goneSources.2 ⟨⟨x, hx, hs⟩, hall⟩)

/-- The two claim records after a removal, with the notices of the DRIVE items alone. -/
def holdersRemoved (i : Nat) (test : HolderItem → Bool) (s : State) : State :=
  let left := s.drive.holders.filter (fun h => !goes i test h)
  let s' := { s with groups := s.groups.map (fun g => match g with
    | some h => if goes i test h then none else some h
    | none => none) }
  if left.length = s.drive.holders.length then s' else changeHolders s.drive.mode left s'

theorem removeItems_holdersRemoved (i : Nat) (test : HolderItem → Bool) (s : State) :
    removeItems (.throttle i) test s =
      if s.groups.any (fun g => match g with | some h => goes i test h | none => false) = true
      then forgetIfDue i (holdersRemoved i test s) else holdersRemoved i test s := by
  rw [← itemGone_throttle]
  rfl

theorem holdersRemoved_loses {i : Nat} {test : HolderItem → Bool} {s : State} (h : LosesDrive i test s) :
    holdersRemoved i test s = driveGone i (itemsRemoved i test s) := by
  unfold holdersRemoved itemsRemoved
  dsimp only
  rw [if_neg h.1, if_neg h.1, changeHolders_eq]
  exact foldl_driveGone (fun x hx => goneSources_left hx) (goneSources_left_ne_nil h) _

theorem holdersRemoved_keeps {i : Nat} {test : HolderItem → Bool} {s : State} (h : ¬ LosesDrive i test s) :
    holdersRemoved i test s = itemsRemoved i test s := by
  unfold holdersRemoved itemsRemoved
  dsimp only
  by_cases hlen : (s.drive.holders.filter (fun h => !goes i test h)).length = s.drive.holders.length
  · rw [if_pos hlen, if_pos hlen]
  · rw [if_neg hlen, if_neg hlen]
    have hkept : ∀ x ∈ s.drive.holders, ∃ y ∈ s.drive.holders.filter (fun h => !goes i test h), y.source = x.source := by
      obtain ⟨y, hy, hs⟩ : ∃ y ∈ s.drive.holders.filter (fun h => !goes i test h), y.source = .throttle i := by
        by_contra hno
        exact h ⟨hlen, fun y hy hs => hno ⟨y, hy, hs⟩⟩
      intro x hx
      by_cases hg : goes i test x = true
      · exact ⟨y, hy, hs.trans (beq_iff_eq.1 (Bool.and_eq_true_iff.1 hg).1).symm⟩
      · exact ⟨x, List.mem_filter.2 ⟨hx, by simpa using hg⟩, rfl⟩
    exact changeHolders_of_kept (s := { s with groups := _ }) hkept

/-- The removal of an index's items, by what it loses. -/
theorem removeItems_losesDrive {i : Nat} {test : HolderItem → Bool} {s : State} (h : LosesDrive i test s) :
    removeItems (.throttle i) test s = driveGone i (itemsRemoved i test s) := by
  rw [removeItems_holdersRemoved, holdersRemoved_loses h]
  split
  · exact forgetIfDue_keeps (not_forgets_forgetIfDue i _)
  · rfl

theorem removeItems_losesGroup {i : Nat} {test : HolderItem → Bool} {s : State} (h : ¬ LosesDrive i test s)
    (hg : LosesGroup i test s) : removeItems (.throttle i) test s = forgetIfDue i (itemsRemoved i test s) := by
  rw [removeItems_holdersRemoved, holdersRemoved_keeps h, if_pos ((hadGroup_iff i test s).2 hg)]

theorem removeItems_losesNone {i : Nat} {test : HolderItem → Bool} {s : State} (h : ¬ LosesDrive i test s)
    (hg : ¬ LosesGroup i test s) : removeItems (.throttle i) test s = itemsRemoved i test s := by
  rw [removeItems_holdersRemoved, holdersRemoved_keeps h, if_neg (mt (hadGroup_iff i test s).1 hg)]

theorem driveGone_frame (i : Nat) (s : State) : LedgerFrame s (driveGone i s) :=
  (abortTxnOf_ledger _ s).trans (forgetIfDue_frame i _)

theorem removeItems_frame (i : Nat) (test : HolderItem → Bool) (s : State) :
    LedgerFrame (itemsRemoved i test s) (removeItems (.throttle i) test s) := by
  by_cases hd : LosesDrive i test s
  · rw [removeItems_losesDrive hd]
    exact driveGone_frame i _
  · by_cases hg : LosesGroup i test s
    · rw [removeItems_losesGroup hd hg]
      exact forgetIfDue_frame i _
    · rw [removeItems_losesNone hd hg]
      rfl

/-! ### What the notices leave of the entry and of the transaction -/

theorem forgets_abortTxnOf (i : Nat) (src : Source) (s : State) : Forgets i (abortTxnOf src s) ↔ Forgets i s := by
  rw [abortTxnOf_frame]
  rfl

theorem forgetIfDue_throttles (i : Nat) (s : State) :
    (Forgets i s → (forgetIfDue i s).throttles = s.throttles.set i none) ∧
    (¬ Forgets i s → (forgetIfDue i s).throttles = s.throttles) := by
  refine ⟨fun h => ?_, fun h => by rw [forgetIfDue_keeps h]⟩
  rw [forgetIfDue_forgets h]
  exact (congrArg State.throttles (removeEntry_frame i s) :)

theorem driveGone_throttles (i : Nat) (s : State) :
    (Forgets i s → (driveGone i s).throttles = s.throttles.set i none) ∧
    (¬ Forgets i s → (driveGone i s).throttles = s.throttles) := by
  have ht : (abortTxnOf (.throttle i) s).throttles = s.throttles :=
    (congrArg State.throttles (abortTxnOf_frame (.throttle i) s) :)
  have h := forgetIfDue_throttles i (abortTxnOf (.throttle i) s)
  rw [forgets_abortTxnOf, ht] at h
  exact h

theorem forgetIfDue_txn_other {i : Nat} {s : State} (h : ¬ OpenBy (.throttle i) s) :
    (forgetIfDue i s).txn = s.txn ∧ (forgetIfDue i s).sound = s.sound ∧ (forgetIfDue i s).port = s.port := by
  by_cases hf : Forgets i s
  · rw [forgetIfDue_forgets hf, removeEntry_other h]
    exact ⟨rfl, rfl, rfl⟩
  · rw [forgetIfDue_keeps hf]
    exact ⟨rfl, rfl, rfl⟩

theorem driveGone_txn_other {i : Nat} {s : State} (h : ¬ OpenBy (.throttle i) s) :
    (driveGone i s).txn = s.txn ∧ (driveGone i s).sound = s.sound ∧ (driveGone i s).port = s.port := by
  unfold driveGone
  rw [abortTxnOf_other h]
  exact forgetIfDue_txn_other h

/-- An aborted transaction is closed, with nothing staged (R171). -/
def TxnEnded (s : State) : Prop := s.txn.state = .closed ∧ s.txn.staged = []

theorem txnEnded_endTxn (s : State) : TxnEnded (endTxn s) := by
  rw [endTxn_frame]
  exact ⟨rfl, rfl⟩

theorem forgetIfDue_ends {i : Nat} {s : State} (h : OpenBy (.throttle i) s) (hf : Forgets i s) :
    TxnEnded (forgetIfDue i s) := by
  rw [forgetIfDue_forgets hf]
  exact removeEntry_open h

theorem driveGone_ends {i : Nat} {s : State} (h : OpenBy (.throttle i) s) : TxnEnded (driveGone i s) := by
  have hended := txnEnded_endTxn s
  unfold driveGone
  rw [abortTxnOf_open h]
  have hclosed := not_openBy_endTxn (.throttle i) s
  unfold TxnEnded
  rw [(forgetIfDue_txn_other hclosed).1]
  exact hended

end Sys2Proof.Machine
end

section
/-! The rows of the requests (Table 5-3, Table 5-6), and what the Throttle Table makes of a frame it hears (R42 to R52);
O20 and O21. -/

namespace Sys2Proof.Machine

/-! ### The row of a request takes it -/

theorem takeRequest_front {s : State} {which : Port} {f : Frame} {m : Mark} (hn : nextTaken s = some (which, f))
    (hs : screen s which f = .matched m) {wanted : Frame → Bool} (act : Asked → State → Answer × State)
    (hw : wanted f = true) : takeRequest wanted act s = handle act which f m s := by
  unfold takeRequest
  rw [frontRequest_eq hn hs wanted hw]

theorem execStop_taken {s : State} {which : Port} {f : Frame} {m : Mark} (hn : nextTaken s = some (which, f))
    (hs : screen s which f = .matched m) (hm : m ≠ .allCall) (hk : f.kind = 5) :
    execStop s = .next (handle actStop which f m s) := by
  have hw : ofKind 5 f = true := ofKind_of_kind_eq hk
  unfold execStop
  rw [takeRequest_front hn hs actStop hw, frontRequest_eq hn hs _ hw]
  cases m with
  | allCall => exact absurd rfl hm
  | own => rfl
  | consist => rfl

theorem ofQuery_iff (what : Nat) (f : Frame) :
    ofQuery what f = true ↔ f.kind = 0x20 ∧ ∃ b bs, f.payload = b :: bs ∧ b.toNat = what := by
  unfold ofQuery byteAt
  cases f.payload with
  | nil => simp
  | cons b bs => simp

theorem ofQuery_of_map {what : Nat} {f : Frame} {l : List Nat} (hk : f.kind = 0x20)
    (h : f.payload.map (·.toNat) = what :: l) : ofQuery what f = true := by
  obtain ⟨b, bs, hp, hb, -⟩ := List.map_eq_cons_iff.1 h
  exact (ofQuery_iff what f).2 ⟨hk, b, bs, hp, hb⟩

/-- A QUERY that names no row of its own is QUERY_STATUS's (log 29). -/
theorem ofQueryStatus_of_map {f : Frame} (hk : f.kind = 0x20)
    (h : ∀ what, 1 ≤ what → what ≤ 7 → ∀ l, f.payload.map (·.toNat) ≠ what :: l) : ofQueryStatus f = true := by
  unfold ofQueryStatus byteAt
  cases hp : f.payload with
  | nil => simp [hk]
  | cons b bs =>
    have hb : ¬ (1 ≤ b.toNat ∧ b.toNat ≤ 7) := fun hb => h _ hb.1 hb.2 (bs.map (·.toNat)) (by rw [hp]; rfl)
    simp only [hk, List.isEmpty_cons, List.getD_cons_zero, BEq.rfl, Bool.false_or, Bool.true_and, Bool.or_eq_true,
      beq_iff_eq, decide_eq_true_eq]
    omega

/-- A row takes a frame with what its owner decides. -/
def RowTakes (row : Instr) (f : Frame) : Prop :=
  ∃ act : Asked → State → Answer × State, ∀ (s : State) (which : Port) (m : Mark), nextTaken s = some (which, f) →
    screen s which f = .matched m → m ≠ .allCall → exec row s = .next (handle act which f m s)

theorem RowTakes.of_takeRequest {row : Instr} {f : Frame} {wanted : Frame → Bool} (act : Asked → State → Answer × State)
    (hrow : ∀ s, exec row s = .next (takeRequest wanted act s)) (hw : wanted f = true) : RowTakes row f :=
  ⟨act, fun s _ _ hn hs _ => (hrow s).trans (congrArg _ (takeRequest_front hn hs act hw))⟩

theorem RowTakes.of_kind {row : Instr} {f : Frame} {k : Nat} (hk : f.kind = k) (act : Asked → State → Answer × State)
    (hrow : ∀ s, exec row s = .next (takeRequest (ofKind k) act s)) : RowTakes row f :=
  of_takeRequest act hrow (ofKind_of_kind_eq hk)

/-- Every request but a CONSIST_HOLD is taken by its own row. -/
theorem requestRow_takes {f : Frame} (hf : f.kind ≠ 0x40) : RowTakes (requestRow f) f := by
  unfold requestRow
  split
  case h_1 hk => exact .of_kind hk _ fun _ => rfl
  case h_2 hk => exact .of_kind hk _ fun _ => rfl
  case h_3 hk => exact .of_kind hk _ fun _ => rfl
  case h_4 hk => exact .of_kind hk _ fun _ => rfl
  case h_5 hk => exact ⟨actStop, fun s which m hn hs hm => execStop_taken hn hs hm hk⟩
  case h_6 hk => exact .of_kind hk _ fun _ => rfl
  case h_7 hk => exact .of_kind hk _ fun _ => rfl
  case h_8 hk => exact .of_kind hk _ fun _ => rfl
  case h_9 hk => exact .of_kind hk _ fun _ => rfl
  case h_10 hk => exact .of_kind hk _ fun _ => rfl
  case h_11 hk => exact .of_kind hk _ fun _ => rfl
  case h_12 hk =>
    split
    case h_1 hq => exact .of_takeRequest _ (fun _ => rfl) (ofQuery_of_map hk hq)
    case h_2 hq => exact .of_takeRequest _ (fun _ => rfl) (ofQuery_of_map hk hq)
    case h_3 hq => exact .of_takeRequest _ (fun _ => rfl) (ofQuery_of_map hk hq)
    case h_4 hq => exact .of_takeRequest _ (fun _ => rfl) (ofQuery_of_map hk hq)
    case h_5 hq => exact .of_takeRequest _ (fun _ => rfl) (ofQuery_of_map hk hq)
    case h_6 hq => exact .of_takeRequest _ (fun _ => rfl) (ofQuery_of_map hk hq)
    case h_7 hq => exact .of_takeRequest _ (fun _ => rfl) (ofQuery_of_map hk hq)
    case h_8 hno1 hno2 hno3 hno4 hno5 hno6 hno7 =>
      refine .of_takeRequest _ (fun _ => rfl) (ofQueryStatus_of_map hk fun what hlo hhi l hl => ?_)
      interval_cases what
      · exact hno1 l hl
      · exact hno2 l hl
      · exact hno3 l hl
      · exact hno4 l hl
      · exact hno5 l hl
      · exact hno6 l hl
      · exact hno7 l hl
  case h_13 hk => exact .of_kind hk _ fun _ => rfl
  case h_14 hk => exact .of_kind hk _ fun _ => rfl
  case h_15 hk => exact .of_kind hk _ fun _ => rfl
  case h_16 hk => exact .of_kind hk _ fun _ => rfl
  case h_17 hk => exact .of_kind hk _ fun _ => rfl
  case h_18 hk => exact .of_kind hk _ fun _ => rfl
  case h_19 hk => exact absurd hk hf
  case h_20 =>
    refine .of_takeRequest _ (fun _ => rfl) ?_
    rw [Bool.not_eq_true', ← Bool.not_eq_true, List.contains_iff_mem]
    unfold requestKinds
    simp only [List.mem_cons, List.not_mem_nil, or_false, not_or]
    exact ⟨‹_›, ‹_›, ‹_›, ‹_›, ‹_›, ‹_›, ‹_›, ‹_›, ‹_›, ‹_›, ‹_›, ‹_›, ‹_›, ‹_›, ‹_›, ‹_›, ‹_›, ‹_›, hf⟩

theorem exec_requestRow_dropped {s t : State} {f : Frame} {m : Mark} (hn : nextTaken s = some (.radio, f))
    (hs : screen s .radio f = .matched m) (hm : m ≠ .allCall) (hp : present f (popIntake .radio s) = (.dropped, t))
    (hf : f.kind ≠ 0x40) : exec (requestRow f) s = .next t := by
  obtain ⟨act, hrow⟩ := requestRow_takes hf
  rw [hrow s .radio m hn hs hm]
  unfold handle
  dsimp only
  rw [hp]

theorem exec_requestRow_refused {s t : State} {f : Frame} {m : Mark} (hn : nextTaken s = some (.radio, f))
    (hs : screen s .radio f = .matched m) (hm : m ≠ .allCall) (hp : present f (popIntake .radio s) = (.refused, t))
    (hf : f.kind ≠ 0x40) : exec (requestRow f) s =
      .next (replyIf (drawsReply s m) .radio f f.pathByte none (.status .tableFull 0, t)) := by
  obtain ⟨act, hrow⟩ := requestRow_takes hf
  rw [hrow s .radio m hn hs hm]
  unfold handle
  dsimp only
  rw [hp]

/-! ### A known sender (R43, R46 to R51) -/

theorem findIndex_eq_some {s : State} {test : ThrottleEntry → Bool} {i : Nat} {e : ThrottleEntry} (hi : i < 16)
    (he : entry s i = some e) (ht : test e = true) (hfirst : ∀ j, j < i → ∀ e', entry s j = some e' → test e' = false) :
    findIndex s test = some i := by
  unfold findIndex
  rw [List.find?_range_eq_some]
  refine ⟨?_, List.mem_range.2 hi, fun j hj => ?_⟩
  · rw [he]
    exact ht
  · cases hj' : entry s j with
    | none => rfl
    | some e' =>
      dsimp only
      rw [hfirst j hj e' hj']
      rfl

theorem findIndex_eq_none {s : State} {test : ThrottleEntry → Bool}
    (h : ∀ j, j < 16 → ∀ e, entry s j = some e → test e = false) : findIndex s test = none := by
  unfold findIndex
  rw [List.find?_range_eq_none]
  intro j hj
  cases hj' : entry s j with
  | none => rfl
  | some e =>
    dsimp only
    rw [h j hj e hj']
    rfl

/-- An entry as a frame just heard leaves it (R43, R51). -/
def ThrottleEntry.heardNow (e : ThrottleEntry) (f : Frame) (now : Time) : ThrottleEntry :=
  { e with lastHeard := now, quality := f.quality, lostSince := none }

/-- An item that names a throttle that is back is ACTIVE (R70). -/
def itemBack (i : Nat) (back : Bool) (h : HolderItem) : HolderItem :=
  if h.source = .throttle i ∧ back = true then { h with until_ := none } else h

/-- The state once an index has been heard, with its entry as it stands then (R51, R70, R72). -/
def afterHeard (i : Nat) (back : Bool) (s : State) (e : ThrottleEntry) : State :=
  { s with
    throttles := s.throttles.set i (some e)
    drive := { s.drive with holders := s.drive.holders.map (itemBack i back) }
    groups := s.groups.map (Option.map (itemBack i back))
    holds := if (back && s.drive.holders.any (fun h => h.source == .throttle i && h.until_.isSome)) = true
      then s.holds.filter (fun h => h.source != .radioLoss) else s.holds }

theorem itemBack_false (i : Nat) : itemBack i false = id := by
  funext h
  unfold itemBack
  rw [if_neg (fun hb => nomatch hb.2)]
  rfl

theorem itemBack_true (i : Nat) : itemBack i true = (fun h => h.restore (.throttle i)) := by
  funext h
  unfold itemBack HolderItem.restore
  simp only [and_true]

theorem afterHeard_active (i : Nat) (s : State) (e : ThrottleEntry) :
    afterHeard i false s e = { s with throttles := s.throttles.set i (some e) } := by
  unfold afterHeard
  rw [itemBack_false, Option.map_id_fun, List.map_id, List.map_id]
  rfl

theorem afterHeard_lost (i : Nat) (s : State) (e : ThrottleEntry) :
    afterHeard i true s e = heardNotice i (setEntry i (some e) s) := by
  unfold afterHeard heardNotice
  rw [itemBack_true]
  dsimp only [Bool.true_and]
  split
  · rename_i h
    exact (if_pos h).symm
  · rename_i h
    exact (if_neg h).symm

theorem heard_eq (i : Nat) (e : ThrottleEntry) (f : Frame) (s : State) :
    heard i e f s = afterHeard i e.lostSince.isSome s (e.heardNow f s.partTime) := by
  unfold heard
  dsimp only
  split
  · rename_i h
    rw [h, afterHeard_lost]
    rfl
  · rename_i h
    rw [Bool.not_eq_true] at h
    rw [h, afterHeard_active]
    rfl

theorem setEntry_afterHeard (i : Nat) (back : Bool) (s : State) (e e' : ThrottleEntry) :
    setEntry i (some e') (afterHeard i back s e) = afterHeard i back s e' := by
  unfold setEntry afterHeard
  dsimp only
  rw [List.set_set]

theorem present_known {f : Frame} {s : State} {i : Nat} {e : ThrottleEntry} (hi : i < 16) (he : entry s i = some e)
    (hid : e.id = f.sourceId) (hfirst : ∀ j, j < i → ∀ e', entry s j = some e' → e'.id ≠ f.sourceId) :
    present f s =
      let t := afterHeard i e.lostSince.isSome s (e.heardNow f s.partTime)
      if f.seqByte = e.lastSeq then (.dropped, t) else rateCheck i (e.heardNow f s.partTime) f t := by
  have hfind : findIndex s (fun e => e.id == f.sourceId) = some i :=
    findIndex_eq_some hi he (beq_iff_eq.2 hid) fun j hj e' he' => beq_eq_false_iff_ne.2 (hfirst j hj e' he')
  unfold present
  rw [hfind]
  dsimp only
  rw [he]
  dsimp only
  rw [heard_eq]
  rfl

/-! ### The rate check (R47, R49) -/

theorem rateCheck_stop {i : Nat} {e : ThrottleEntry} {f : Frame} {s : State} (hk : f.kind = 5) : rateCheck i e f s =
    (.taken i, setEntry i (some { e with lastSeq := f.seqByte, path := f.pathByte }) s) := if_pos hk

theorem rateCheck_within {i : Nat} {e : ThrottleEntry} {f : Frame} {s : State} (hk : f.kind ≠ 5)
    (hc : e.intervalCount < set8 s 13) : rateCheck i e f s = (.taken i, setEntry i (some
      { e with intervalCount := e.intervalCount + 1, lastSeq := f.seqByte, path := f.pathByte }) s) :=
  (if_neg hk).trans (if_pos hc)

theorem rateCheck_beyond {i : Nat} {e : ThrottleEntry} {f : Frame} {s : State} (hk : f.kind ≠ 5)
    (hc : set8 s 13 ≤ e.intervalCount) :
    rateCheck i e f s = (.dropped, setEntry i (some { e with dropCount := bump16 e.dropCount }) s) :=
  (if_neg hk).trans (if_neg (Nat.not_lt.2 hc))

/-- Settles O20: a known sender is heard, and the rate check then writes its entry alone; its row takes a frame that
goes no further with no reply. -/
theorem knownSenderIsHeard : Obligations.KnownSenderIsHeard := by
  unfold Obligations.KnownSenderIsHeard
  refine ⟨fun s f _ i hi e he hid hfirst => ?_, fun s t f m hn hs hm hp hf => exec_requestRow_dropped hn hs hm hp hf⟩
  have hpresent := present_known hi he hid hfirst
  refine ⟨fun hseq => ?repeated, fun hseq hk => ?stop, fun hseq hk hc => ?within, fun hseq hk hc => ?beyond⟩
  case repeated => exact hpresent.trans (if_pos hseq)
  case stop =>
    refine hpresent.trans ((if_neg hseq).trans ((rateCheck_stop hk).trans ?_))
    rw [setEntry_afterHeard]
    rfl
  case within =>
    refine hpresent.trans ((if_neg hseq).trans ((rateCheck_within (e := e.heardNow f _) (s := afterHeard i _ s _) hk hc).trans ?_))
    rw [setEntry_afterHeard]
    rfl
  case beyond =>
    refine hpresent.trans ((if_neg hseq).trans ((rateCheck_beyond (e := e.heardNow f _) (s := afterHeard i _ s _) hk hc).trans ?_))
    rw [setEntry_afterHeard]
    rfl

/-! ### An unknown sender (R44, R45) -/

/-- A fold that keeps the greatest value, and the first of equal ones, ends at such an element. -/
theorem foldl_greatest_first (v : Nat → Nat) (l : List Nat) (a : Nat) (hs : (a :: l).Pairwise (· < ·)) :
    l.foldl (fun a b => if v a < v b then b else a) a ∈ a :: l ∧
      ∀ x ∈ a :: l, v x ≤ v (l.foldl (fun a b => if v a < v b then b else a) a) ∧
        (x < l.foldl (fun a b => if v a < v b then b else a) a →
          v x < v (l.foldl (fun a b => if v a < v b then b else a) a)) := by
  induction l generalizing a with
  | nil =>
    refine ⟨List.mem_singleton.2 rfl, fun x hx => ?_⟩
    obtain rfl := List.mem_singleton.1 hx
    exact ⟨Nat.le_refl _, fun h => absurd h (Nat.lt_irrefl _)⟩
  | cons b l ih =>
    obtain ⟨hall, htail⟩ := List.pairwise_cons.1 hs
    have hab : a < b := hall b List.mem_cons_self
    rw [List.foldl_cons]
    by_cases hlt : v a < v b
    · rw [if_pos hlt]
      obtain ⟨hmem, hmax⟩ := ih b htail
      refine ⟨List.mem_cons_of_mem _ hmem, fun x hx => ?_⟩
      rcases List.mem_cons.1 hx with rfl | hx
      · have hb := (hmax b List.mem_cons_self).1
        exact ⟨by omega, fun _ => by omega⟩
      · exact hmax x hx
    · rw [if_neg hlt]
      obtain ⟨hmem, hmax⟩ := ih a (List.pairwise_cons.2 ⟨fun y hy => hall y (List.mem_cons_of_mem _ hy), htail.tail⟩)
      refine ⟨?_, fun x hx => ?_⟩
      · rcases List.mem_cons.1 hmem with h | h
        · rw [h]
          exact List.mem_cons_self
        · exact List.mem_cons_of_mem _ (List.mem_cons_of_mem _ h)
      · have ha := hmax a List.mem_cons_self
        rcases List.mem_cons.1 hx with rfl | hx
        · exact ha
        · rcases List.mem_cons.1 hx with rfl | hx
          · refine ⟨by omega, fun hbr => ?_⟩
            have := ha.2 (hab.trans hbr)
            omega
          · exact hmax x (List.mem_cons_of_mem _ hx)

theorem evictable_iff (s : State) (i : Nat) :
    evictable s i = true ↔ ∃ e, entry s i = some e ∧ e.lostSince ≠ none ∧ namedByClaim s i = false := by
  unfold evictable
  cases entry s i with
  | none => simp
  | some e => simp [Option.isSome_iff_ne_none]

theorem evictionChoice_none {s : State} (h : ∀ j, j < 16 → evictable s j = false) : evictionChoice s = none := by
  have hnil : (List.range 16).filter (evictable s) = [] :=
    List.filter_eq_nil_iff.2 fun j hj => Bool.not_eq_true _ ▸ h j (List.mem_range.1 hj)
  unfold evictionChoice
  rw [hnil]

/-- The choice is the candidate that is silent the longest, the lowest index among equals (R45). -/
theorem evictionChoice_of_first {s : State} {i : Nat} (hi : i < 16) (hc : evictable s i = true)
    (hfirst : ∀ j, j < 16 → evictable s j = true →
      silence s j ≤ silence s i ∧ (j < i → silence s j < silence s i)) : evictionChoice s = some i := by
  have hsorted : ((List.range 16).filter (evictable s)).Pairwise (· < ·) := List.pairwise_lt_range.filter _
  have hmem : i ∈ (List.range 16).filter (evictable s) := List.mem_filter.2 ⟨List.mem_range.2 hi, hc⟩
  have hall : ∀ j ∈ (List.range 16).filter (evictable s), j < 16 ∧ evictable s j = true := fun j hj =>
    ⟨List.mem_range.1 (List.mem_filter.1 hj).1, (List.mem_filter.1 hj).2⟩
  unfold evictionChoice
  generalize (List.range 16).filter (evictable s) = l at hsorted hmem hall
  cases l with
  | nil => cases hmem
  | cons a l =>
    dsimp only
    obtain ⟨hr, hgreatest⟩ := foldl_greatest_first (silence s) l a hsorted
    generalize l.foldl (fun a b => if silence s a < silence s b then b else a) a = r at hr hgreatest
    obtain ⟨hr16, hrc⟩ := hall r hr
    have hri := hfirst r hr16 hrc
    have hir := hgreatest i hmem
    exact congrArg some (by omega)

theorem freeIndex_full {s : State} (h : ∀ j, j < 16 → entry s j ≠ none) : freeIndex s = none := by
  unfold freeIndex
  rw [List.find?_range_eq_none]
  exact fun j hj => by simpa [Option.isSome_iff_ne_none] using h j hj

theorem freeIndex_first {s : State} {i : Nat} (hi : i < 16) (he : entry s i = none)
    (hfirst : ∀ j, j < i → entry s j ≠ none) : freeIndex s = some i := by
  unfold freeIndex
  rw [List.find?_range_eq_some]
  exact ⟨by rw [he]; rfl, List.mem_range.2 hi, fun j hj => by simpa [Option.isSome_iff_ne_none] using hfirst j hj⟩

/-- The entry a learning frame leaves once it has passed the rate check (R44, R47, R49). -/
def learnt (f : Frame) (now : Time) : ThrottleEntry :=
  { id := f.sourceId, lostSince := none, lastSeq := f.seqByte, lastHeard := now, path := f.pathByte,
    quality := f.quality, intervalCount := if f.kind = 5 then 0 else 1, dropCount := 0 }

theorem learnAt_eq {i : Nat} {f : Frame} {s : State} (h : 0 < set8 s 13) :
    learnAt i f s = (.taken i, setEntry i (some (learnt f s.partTime)) s) := by
  unfold learnAt learnt
  by_cases hk : f.kind = 5
  · rw [if_pos hk, rateCheck_stop hk]
    rfl
  · rw [if_neg hk]
    exact rateCheck_within (e := learnedEntry f _) hk h

theorem present_unknown {f : Frame} {s : State}
    (h : ∀ j, j < 16 → ∀ e, entry s j = some e → e.id ≠ f.sourceId) : present f s = unknownId f s := by
  have hnone : findIndex s (fun e => e.id == f.sourceId) = none :=
    findIndex_eq_none fun j hj e he => beq_eq_false_iff_ne.2 (h j hj e he)
  unfold present
  rw [hnone]

theorem unknownId_free {f : Frame} {s : State} {i : Nat} (h : freeIndex s = some i) : unknownId f s = learnAt i f s := by
  unfold unknownId
  rw [h]

theorem unknownId_evicts {f : Frame} {s : State} {i : Nat} (hfull : freeIndex s = none)
    (h : evictionChoice s = some i) : unknownId f s = learnAt i f (removeEntry i s) := by
  unfold unknownId
  rw [hfull]
  dsimp only
  rw [h]

theorem unknownId_refuses {f : Frame} {s : State} (hfull : freeIndex s = none) (h : evictionChoice s = none) :
    unknownId f s =
      (if f.kind = 0x23 then .dropped else .refused, { s with refusedLearns := bump16 s.refusedLearns }) := by
  unfold unknownId
  rw [hfull]
  dsimp only
  rw [h]

theorem silence_entry {s : State} {i : Nat} {e : ThrottleEntry} (he : entry s i = some e) :
    silence s i = (s.partTime - e.lastHeard).toNat := by
  unfold silence
  rw [he]
  rfl

theorem set8_removeEntry (i : Nat) (s : State) (k : Nat) : set8 (removeEntry i s) k = set8 s k := by
  rw [removeEntry_frame]
  rfl

theorem removeEntry_partTime (i : Nat) (s : State) : (removeEntry i s).partTime = s.partTime := by
  rw [removeEntry_frame]

/-- A learned entry takes the place of an evicted one; only the eviction's end of a transaction is seen besides. -/
theorem setEntry_removeEntry (i : Nat) (e : ThrottleEntry) (s : State) : setEntry i (some e) (removeEntry i s) =
    { s with throttles := s.throttles.set i (some e), txn := (removeEntry i s).txn, sound := (removeEntry i s).sound
             port := (removeEntry i s).port } := by
  have ht : (removeEntry i s).throttles = s.throttles.set i none :=
    (congrArg State.throttles (removeEntry_frame i s) :)
  unfold setEntry
  rw [ht, List.set_set]
  conv_lhs => rw [removeEntry_frame]

theorem drawsReply_iff (s : State) (m : Mark) :
    drawsReply s m = true ↔ m = .own ∨ (m = .consist ∧ consistPosition s = .lead) := by
  unfold drawsReply
  rw [Bool.or_eq_true, Bool.and_eq_true, beq_iff_eq, beq_iff_eq, beq_iff_eq]

/-- Settles O21: the lowest free index, else the choice of `evictionChoice`, learns the sender; with neither the refusal
is counted, and the row answers TABLE_FULL by the path the frame came. -/
theorem unknownSenderIsLearned : Obligations.UnknownSenderIsLearned := by
  unfold Obligations.UnknownSenderIsLearned
  refine ⟨fun s f _ hid hlimit => ?_, fun s t f m hn hs hm hp => ?_⟩
  · have hpresent := present_unknown hid
    refine ⟨fun i hi he hfirst => ?free, fun i hi e hfull hcand hfirst => ?evict, fun hfull hnone => ?refuse⟩
    case free =>
      rw [hpresent, unknownId_free (freeIndex_first hi he hfirst)]
      exact learnAt_eq hlimit
    case evict =>
      have hchoice : evictionChoice s = some i := by
        refine evictionChoice_of_first hi ((evictable_iff s i).2 ⟨e, hcand⟩) fun j hj hev => ?_
        obtain ⟨e', he'⟩ := (evictable_iff s j).1 hev
        rw [silence_entry hcand.1, silence_entry he'.1]
        exact hfirst j hj e' he'
      have hlimit' : 0 < set8 (removeEntry i s) 13 := by rwa [set8_removeEntry]
      refine ⟨setEntry i (some (learnt f s.partTime)) (removeEntry i s), ?_, ?_⟩
      · rw [hpresent, unknownId_evicts (freeIndex_full hfull) hchoice, learnAt_eq hlimit', removeEntry_partTime]
      · rw [setEntry_removeEntry]
        refine ⟨rfl, fun hother => ?_, fun hstate hopener => ?_⟩
        · rw [removeEntry_other ((not_openBy_iff _ _).2 hother)]
        · obtain ⟨hclosed, hstaged⟩ := removeEntry_open (i := i) ⟨hstate, hopener⟩
          exact ⟨hclosed, hstaged, rfl⟩
    case refuse =>
      rw [hpresent, unknownId_refuses (freeIndex_full hfull) (evictionChoice_none fun j hj => ?_)]
      · rfl
      · rw [← Bool.not_eq_true, evictable_iff]
        rintro ⟨e, he⟩
        exact hnone j hj e he
  · intro body u hf
    rw [exec_requestRow_refused hn hs hm hp hf]
    refine congrArg _ ?_
    unfold replyIf
    by_cases hd : m = .own ∨ (m = .consist ∧ consistPosition s = .lead)
    · rw [if_pos ((drawsReply_iff s m).2 hd)]
      exact (if_pos hd).symm
    · rw [if_neg (mt (drawsReply_iff s m).1 hd)]
      exact (if_neg hd).symm

end Sys2Proof.Machine
end

section
/-! The timers of the Throttle Table and of the Claim Table (R48, R50, R52, R69 to R72), and O22. -/

namespace Sys2Proof.Machine

theorem exec_rateInterval (s : State) :
    exec .rateInterval s = .next (if s.phase = .running then rateExpires s else s) := rfl

theorem exec_silenceLimit (i : Nat) (s : State) : exec (.silenceLimit i) s = .next (silenceIfDue i s) := rfl

theorem exec_forgetTime (i : Nat) (s : State) : exec (.forgetTime i) s = .next (forgetIfDue i s) := rfl

theorem exec_reservationExpiry (i : Nat) (s : State) :
    exec (.reservationExpiry i) s = .next (removeItems (.throttle i) (itemExpired s.partTime) s) := rfl

/-! ### The silence limit (R50) -/

theorem silenceIfDue_due {s : State} {i : Nat} {e : ThrottleEntry} (he : entry s i = some e) (hl : e.lostSince = none)
    (h : reached s.partTime (e.lastHeard + BitVec.ofNat 32 (set8 s 10 * 100)) = true) :
    silenceIfDue i s = loseEntry i e s := by
  have hdue : silenceDue s e = true := by
    unfold silenceDue later
    rw [hl, h]
    rfl
  unfold silenceIfDue
  rw [he]
  exact if_pos hdue

theorem silenceIfDue_early {s : State} {i : Nat} {e : ThrottleEntry} (he : entry s i = some e)
    (h : reached s.partTime (e.lastHeard + BitVec.ofNat 32 (set8 s 10 * 100)) = false) : silenceIfDue i s = s := by
  have hdue : silenceDue s e = false := by
    unfold silenceDue later
    rw [h]
    exact Bool.and_false _
  unfold silenceIfDue
  rw [he]
  dsimp only
  rw [hdue]
  rfl

/-! ### The forget time (R52) -/

theorem forgets_iff {s : State} {i : Nat} {e : ThrottleEntry} (he : entry s i = some e) : Forgets i s ↔
    namedByClaim s i = false ∧
      (e.lostSince.isSome && reached s.partTime (e.lastHeard + BitVec.ofNat 32 (set8 s 12 * 10000))) = true := by
  refine and_congr_right fun _ => ⟨?_, fun h => ⟨e, he, h⟩⟩
  rintro ⟨e', he', h⟩
  obtain rfl := Option.some.inj (he.symm.trans he')
  exact h

theorem not_forgets_of_absent {s : State} {i : Nat} (he : entry s i = none) : ¬ Forgets i s := by
  rintro ⟨-, e, he', -⟩
  exact nomatch he.symm.trans he'

/-- Whether an entry is forgotten turns on the claims, the table, part time and the settings. -/
theorem Forgets.congr {i : Nat} {s t : State} (hd : t.drive = s.drive) (hg : t.groups = s.groups)
    (ht : t.throttles = s.throttles) (hp : t.partTime = s.partTime) (hs : t.settings = s.settings) :
    Forgets i t ↔ Forgets i s := by
  unfold Forgets namedByClaim entry forgetDue set8
  rw [hd, hg, ht, hp, hs]

/-- Everything but what a forgotten entry and a hold request touch is the same. -/
def LossFrame (s t : State) : Prop :=
  t = { s with throttles := t.throttles, holds := t.holds, txn := t.txn, sound := t.sound, port := t.port }

theorem LossFrame.of_ledger {s t : State} (h : LedgerFrame s t) : LossFrame s t := by
  have hh : t.holds = s.holds := (congrArg State.holds h :)
  unfold LossFrame
  rw [hh]
  exact h

theorem LossFrame.trans {a b c : State} (h : LossFrame a b) (k : LossFrame b c) : LossFrame a c := by
  unfold LossFrame at h k
  rw [h] at k
  exact k

/-- An entry that is to be forgotten is gone after the last look, if it was not gone before. -/
theorem forgetIfDue_throttles_after {i : Nat} {x u : State} (hf : LossFrame x u)
    (h : u.throttles = x.throttles ∨ (Forgets i x ∧ u.throttles = x.throttles.set i none)) :
    (Forgets i x → (forgetIfDue i u).throttles = x.throttles.set i none) ∧
    (¬ Forgets i x → (forgetIfDue i u).throttles = x.throttles) := by
  rcases h with hsame | ⟨hforgets, hgone⟩
  · have hiff : Forgets i u ↔ Forgets i x := Forgets.congr (congrArg State.drive hf :) (congrArg State.groups hf :) hsame
      (congrArg State.partTime hf :) (congrArg State.settings hf :)
    have hu := forgetIfDue_throttles i u
    rw [hiff, hsame] at hu
    exact hu
  · refine ⟨fun _ => ?_, fun hn => absurd hforgets hn⟩
    have habsent : entry u i = none := by
      unfold entry
      rw [hgone, List.getD_eq_getElem?_getD, List.getElem?_set_self']
      cases x.throttles[i]? <;> rfl
    rw [forgetIfDue_keeps (not_forgets_of_absent habsent), hgone]

/-! ### A lost notice (R69, R72) -/

theorem requestRadioLoss_if (p : Prop) [Decidable p] (t : State) : (if p then requestRadioLoss t else t) =
    { t with holds := if p then insertHold { plainStop .radioLoss .normal with created := t.partTime } t.holds
                      else t.holds } := by
  split <;> rfl

theorem removeItems_cases (i : Nat) (test : HolderItem → Bool) (s : State) :
    removeItems (.throttle i) test s = driveGone i (itemsRemoved i test s) ∨
    removeItems (.throttle i) test s = forgetIfDue i (itemsRemoved i test s) ∨
    removeItems (.throttle i) test s = itemsRemoved i test s := by
  by_cases hd : LosesDrive i test s
  · exact .inl (removeItems_losesDrive hd)
  · by_cases hg : LosesGroup i test s
    · exact .inr (.inl (removeItems_losesGroup hd hg))
    · exact .inr (.inr (removeItems_losesNone hd hg))

/-- A removal leaves the table as it was, or has forgotten the entry. -/
theorem removeItems_throttles (i : Nat) (test : HolderItem → Bool) (s : State) :
    (removeItems (.throttle i) test s).throttles = s.throttles ∨
      (Forgets i (itemsRemoved i test s) ∧ (removeItems (.throttle i) test s).throttles = s.throttles.set i none) := by
  by_cases hf : Forgets i (itemsRemoved i test s)
  · rcases removeItems_cases i test s with h | h | h <;> rw [h]
    · exact .inr ⟨hf, (driveGone_throttles i _).1 hf⟩
    · exact .inr ⟨hf, (forgetIfDue_throttles i _).1 hf⟩
    · exact .inl rfl
  · rcases removeItems_cases i test s with h | h | h <;> rw [h]
    · exact .inl ((driveGone_throttles i _).2 hf)
    · exact .inl ((forgetIfDue_throttles i _).2 hf)
    · exact .inl rfl

theorem itemsRemoved_holders (i : Nat) (test : HolderItem → Bool) (s : State) :
    (itemsRemoved i test s).drive.holders = s.drive.holders.filter (fun h => !goes i test h) := by
  unfold itemsRemoved
  dsimp only
  split
  · rename_i h
    exact (List.filter_sublist.eq_of_length h).symm
  · rfl

/-- With every item of an index removed, no claim names it. -/
theorem named_itemsRemoved_all (i : Nat) (s : State) : namedByClaim (itemsRemoved i (fun _ => true) s) i = false := by
  unfold namedByClaim
  rw [itemsRemoved_holders, Bool.or_eq_false_iff, List.any_eq_false, List.any_eq_false]
  refine ⟨fun h hh => ?_, fun g hg => ?_⟩
  · have hleft := (List.mem_filter.1 hh).2
    unfold goes at hleft
    simpa using hleft
  · obtain ⟨g', -, rfl⟩ := List.mem_map.1 hg
    unfold goes
    cases g' with
    | none => simp
    | some h => by_cases hs : h.source = .throttle i <;> simp [hs]

theorem lostNotice_reserves {i : Nat} {s : State} (hw : 0 < set8 s 11) : lostNotice i s =
    if (driveActive s && !driveActive (reserveItems i (later s.partTime (set8 s 11 * 1000)) s)) = true
    then requestRadioLoss (reserveItems i (later s.partTime (set8 s 11 * 1000)) s)
    else reserveItems i (later s.partTime (set8 s 11 * 1000)) s := by
  unfold lostNotice
  dsimp only
  rw [if_neg (Nat.ne_of_gt hw)]

theorem lostNotice_removes {i : Nat} {s : State} (hw : set8 s 11 = 0) : lostNotice i s =
    if (driveActive s && !driveActive (removeItems (.throttle i) (fun _ => true) s)) = true
    then requestRadioLoss (removeItems (.throttle i) (fun _ => true) s)
    else removeItems (.throttle i) (fun _ => true) s := by
  unfold lostNotice
  dsimp only
  rw [if_pos hw]

theorem entry_setEntry_self {s : State} {i : Nat} (hi : i < s.throttles.length) (e : Option ThrottleEntry) :
    entry (setEntry i e s) i = e := (entry_setEntry i i e s hi).trans (if_pos rfl)

theorem driveRecord_left_same {i : Nat} {test : HolderItem → Bool} {s : State}
    (h : (s.drive.holders.filter (fun h => !goes i test h)).length = s.drive.holders.length) :
    (itemsRemoved i test s).drive = s.drive := if_pos h

theorem driveRecord_left_fewer {i : Nat} {test : HolderItem → Bool} {s : State}
    (h : (s.drive.holders.filter (fun h => !goes i test h)).length ≠ s.drive.holders.length) :
    (itemsRemoved i test s).drive =
      { mode := if s.drive.holders.filter (fun h => !goes i test h) = [] then .free else s.drive.mode,
        holders := s.drive.holders.filter (fun h => !goes i test h), generation := nextGeneration s.drive.generation } := by
  refine (if_neg h).trans ?_
  simp only [List.isEmpty_iff]

theorem itemsRemoved_mode (i : Nat) (test : HolderItem → Bool) (s : State) : (itemsRemoved i test s).drive.mode =
    if (s.drive.holders.filter (fun h => !goes i test h)).length ≠ s.drive.holders.length ∧
      s.drive.holders.filter (fun h => !goes i test h) = [] then .free else s.drive.mode := by
  by_cases h : (s.drive.holders.filter (fun h => !goes i test h)).length = s.drive.holders.length
  · rw [driveRecord_left_same h, if_neg (fun hn => hn.1 h)]
  · rw [driveRecord_left_fewer h]
    exact if_congr (and_iff_right h).symm rfl rfl

theorem itemsRemoved_generation (i : Nat) (test : HolderItem → Bool) (s : State) : (itemsRemoved i test s).drive.generation =
    if (s.drive.holders.filter (fun h => !goes i test h)).length = s.drive.holders.length then s.drive.generation
    else nextGeneration s.drive.generation := by
  split
  · rename_i h
    rw [driveRecord_left_same h]
  · rename_i h
    rw [driveRecord_left_fewer h]

theorem goes_all (i : Nat) : (fun h => !goes i (fun _ => true) h) = (fun h => h.source != .throttle i) := by
  funext h
  unfold goes
  rw [Bool.and_true]
  rfl

/-- With a reclaim window of 0 a lost entry's items go, and with its forget time past it goes itself (R50, R52, R69). -/
theorem loseEntry_removes {i : Nat} {e : ThrottleEntry} {s : State} (hi : i < s.throttles.length) (hw : set8 s 11 = 0) :
    let lost : State := setEntry i (some { e with lostSince := some s.partTime }) s
    let left := itemsRemoved i (fun _ => true) lost
    let holds := if (driveActive s && !driveActive left) = true
      then insertHold { plainStop .radioLoss .normal with created := s.partTime } s.holds else s.holds
    ∃ t, loseEntry i e s = t ∧ t.holds = holds ∧ LossFrame left t ∧ t.throttles = s.throttles.set i
      (if reached s.partTime (e.lastHeard + BitVec.ofNat 32 (set8 s 12 * 10000)) = true then none
       else some { e with lostSince := some s.partTime }) := by
  intro lost left holds
  have hframe := removeItems_frame i (fun _ => true) lost
  have hdrive : driveActive (removeItems (.throttle i) (fun _ => true) lost) = driveActive left :=
    (congrArg driveActive hframe :)
  have hnotice : lostNotice i lost = { removeItems (.throttle i) (fun _ => true) lost with holds := holds } := by
    have hp : (removeItems (.throttle i) (fun _ => true) lost).partTime = s.partTime := (congrArg State.partTime hframe :)
    have hh : (removeItems (.throttle i) (fun _ => true) lost).holds = s.holds := (congrArg State.holds hframe :)
    rw [lostNotice_removes (s := lost) hw, requestRadioLoss_if, hdrive]
    refine congrArg (fun hs => { removeItems (.throttle i) (fun _ => true) lost with holds := hs }) ?_
    rw [hp, hh]
    rfl
  have hleft : LossFrame left (lostNotice i lost) := by
    rw [hnotice]
    exact (LossFrame.of_ledger hframe).trans rfl
  have htable : (lostNotice i lost).throttles = left.throttles ∨
      (Forgets i left ∧ (lostNotice i lost).throttles = left.throttles.set i none) := by
    rw [hnotice]
    exact removeItems_throttles i _ lost
  obtain ⟨hgone, hstays⟩ := forgetIfDue_throttles_after hleft htable
  have hlast := forgetIfDue_frame i (lostNotice i lost)
  refine ⟨forgetIfDue i (lostNotice i lost), rfl, ?_, hleft.trans (.of_ledger hlast), ?_⟩
  · have hh : (forgetIfDue i (lostNotice i lost)).holds = (lostNotice i lost).holds := (congrArg State.holds hlast :)
    rw [hh, hnotice]
  · have hiff : Forgets i left ↔ reached s.partTime (e.lastHeard + BitVec.ofNat 32 (set8 s 12 * 10000)) = true := by
      have hentry : entry left i = some { e with lostSince := some s.partTime } := entry_setEntry_self hi _
      rw [forgets_iff hentry]
      exact and_iff_right (named_itemsRemoved_all i lost)
    rw [hiff] at hgone hstays
    have hset : left.throttles = s.throttles.set i (some { e with lostSince := some s.partTime }) := rfl
    rw [hset] at hgone hstays
    by_cases hpast : reached s.partTime (e.lastHeard + BitVec.ofNat 32 (set8 s 12 * 10000)) = true
    · rw [if_pos hpast, hgone hpast, List.set_set]
    · rw [if_neg hpast, hstays hpast]

/-- With a reclaim window a lost entry's items are RESERVED, and before its forget time nothing more follows (R50,
R69). -/
theorem loseEntry_reserves {i : Nat} {e : ThrottleEntry} {s : State} (hi : i < s.throttles.length) (hw : 0 < set8 s 11)
    (hearly : reached s.partTime (e.lastHeard + BitVec.ofNat 32 (set8 s 12 * 10000)) = false) :
    loseEntry i e s = lostNotice i (setEntry i (some { e with lostSince := some s.partTime }) s) := by
  refine forgetIfDue_keeps ?_
  rw [lostNotice_reserves (s := setEntry i _ s) hw, requestRadioLoss_if]
  rintro ⟨-, e', he', hdue⟩
  obtain rfl := Option.some.inj ((entry_setEntry_self hi _).symm.trans he')
  have hpast : reached s.partTime (e.lastHeard + BitVec.ofNat 32 (set8 s 12 * 10000)) = true := hdue
  rw [hearly] at hpast
  exact nomatch hpast

/-! ### What a removal makes of the entry and of its transaction -/

/-- A removal takes some item out, and the entry is then to be forgotten (R52, R73). -/
def Forgotten (i : Nat) (test : HolderItem → Bool) (s : State) : Prop :=
  ((s.drive.holders.filter (fun h => !goes i test h)).length ≠ s.drive.holders.length ∨ LosesGroup i test s) ∧
    Forgets i (itemsRemoved i test s)

/-- An entry that keeps a DRIVE item is not forgotten, and one that loses no group is not looked at. -/
theorem not_forgotten_of_kept {i : Nat} {test : HolderItem → Bool} {s : State} (hd : ¬ LosesDrive i test s)
    (hg : ¬ LosesGroup i test s) : ¬ Forgotten i test s := by
  rintro ⟨hlen | hgroup, hn, -⟩
  · refine hd ⟨hlen, fun h hh hs => ?_⟩
    unfold namedByClaim at hn
    rw [itemsRemoved_holders, Bool.or_eq_false_iff, List.any_eq_false] at hn
    exact hn.1 h hh (beq_iff_eq.2 hs)
  · exact hg hgroup

theorem removeItems_forgotten (i : Nat) (test : HolderItem → Bool) (s : State) :
    (Forgotten i test s → (removeItems (.throttle i) test s).throttles = s.throttles.set i none) ∧
    (¬ Forgotten i test s → (removeItems (.throttle i) test s).throttles = s.throttles) := by
  by_cases hd : LosesDrive i test s
  · have h := driveGone_throttles i (itemsRemoved i test s)
    rw [removeItems_losesDrive hd]
    exact ⟨fun hf => h.1 hf.2, fun hn => h.2 fun hf => hn ⟨.inl hd.1, hf⟩⟩
  · by_cases hg : LosesGroup i test s
    · have h := forgetIfDue_throttles i (itemsRemoved i test s)
      rw [removeItems_losesGroup hd hg]
      exact ⟨fun hf => h.1 hf.2, fun hn => h.2 fun hf => hn ⟨.inr hg, hf⟩⟩
    · rw [removeItems_losesNone hd hg]
      exact ⟨fun hf => absurd hf (not_forgotten_of_kept hd hg), fun _ => rfl⟩

theorem removeItems_txn_other {i : Nat} {test : HolderItem → Bool} {s : State} (h : ¬ OpenBy (.throttle i) s) :
    (removeItems (.throttle i) test s).txn = s.txn ∧ (removeItems (.throttle i) test s).sound = s.sound ∧
      (removeItems (.throttle i) test s).port = s.port := by
  have hx : ¬ OpenBy (.throttle i) (itemsRemoved i test s) := h
  rcases removeItems_cases i test s with hr | hr | hr <;> rw [hr]
  · exact driveGone_txn_other hx
  · exact forgetIfDue_txn_other hx
  · exact ⟨rfl, rfl, rfl⟩

theorem removeItems_ends {i : Nat} {test : HolderItem → Bool} {s : State} (h : OpenBy (.throttle i) s)
    (hl : LosesDrive i test s ∨ Forgotten i test s) : TxnEnded (removeItems (.throttle i) test s) := by
  have hx : OpenBy (.throttle i) (itemsRemoved i test s) := h
  by_cases hd : LosesDrive i test s
  · rw [removeItems_losesDrive hd]
    exact driveGone_ends hx
  · have hf := hl.resolve_left hd
    by_cases hg : LosesGroup i test s
    · rw [removeItems_losesGroup hd hg]
      exact forgetIfDue_ends hx hf.2
    · exact absurd hf (not_forgotten_of_kept hd hg)

/-- With an entry at hand, whether it is forgotten is read off the state the removal leaves. -/
theorem forgotten_iff {i : Nat} {test : HolderItem → Bool} {s t : State}
    (hn : namedByClaim t i = namedByClaim (itemsRemoved i test s) i) : Forgotten i test s ↔ ∃ e, entry s i = some e ∧
      (((s.drive.holders.filter (fun h => !goes i test h)).length ≠ s.drive.holders.length ∨ LosesGroup i test s) ∧
        e.lostSince ≠ none ∧ namedByClaim t i = false ∧
        reached s.partTime (e.lastHeard + BitVec.ofNat 32 (set8 s 12 * 10000)) = true) := by
  have hdue (e : ThrottleEntry) : forgetDue (itemsRemoved i test s) e = true ↔ e.lostSince ≠ none ∧
      reached s.partTime (e.lastHeard + BitVec.ofNat 32 (set8 s 12 * 10000)) = true := by
    rw [← Option.isSome_iff_ne_none]
    exact Bool.and_eq_true_iff
  rw [hn]
  constructor
  · rintro ⟨hr, hnamed, e, he, hd⟩
    exact ⟨e, he, hr, ((hdue e).1 hd).1, hnamed, ((hdue e).1 hd).2⟩
  · rintro ⟨e, he, hr, hlost, hnamed, hpast⟩
    exact ⟨hr, hnamed, e, he, (hdue e).2 ⟨hlost, hpast⟩⟩

/-- Settles O22: a lost entry by its reclaim window, a forgotten one by `removeEntry`, and the expired items by
`removeItems`, whose notices forget the entry and end its transaction. -/
theorem throttleTimersAct : Obligations.ThrottleTimersAct := by
  unfold Obligations.ThrottleTimersAct
  refine ⟨fun s hrun => ⟨fun h => ?rateDue, fun h => ?rateEarly⟩,
    fun s i e hi hlen he hl => ⟨fun h => ?silenceEarly, fun h hw hearly => ?reserves, fun h hw => ?removes⟩,
    fun s i e hi hlen he => ⟨fun hpast hn => ?forgets, fun h => ?keeps⟩, fun s i => ?reservations⟩
  case rateDue =>
    rw [exec_rateInterval, if_pos hrun]
    exact congrArg _ (if_pos h)
  case rateEarly =>
    rw [exec_rateInterval, if_pos hrun]
    exact congrArg _ (if_neg (Bool.not_eq_true _ ▸ h))
  case silenceEarly => rw [exec_silenceLimit, silenceIfDue_early he h]
  case reserves =>
    rw [exec_silenceLimit, silenceIfDue_due he hl h, loseEntry_reserves (hlen ▸ hi) hw hearly,
      lostNotice_reserves (s := setEntry i _ s) hw, requestRadioLoss_if]
    rfl
  case removes =>
    obtain ⟨t, ht, hholds, hframe, htable⟩ := loseEntry_removes (e := e) (s := s) (hlen ▸ hi) hw
    have hdrive : t.drive = (itemsRemoved i (fun _ => true) s).drive := (congrArg State.drive hframe :)
    have hgroups : t.groups = (itemsRemoved i (fun _ => true) s).groups := (congrArg State.groups hframe :)
    have hsame := driveRecord_left_same (i := i) (test := fun _ => true) (s := s)
    have hfewer := driveRecord_left_fewer (i := i) (test := fun _ => true) (s := s)
    have hleft := itemsRemoved_holders i (fun _ => true) s
    rw [goes_all] at hsame hfewer hleft
    rw [exec_silenceLimit, silenceIfDue_due he hl h, ht]
    refine ⟨t, rfl, htable, fun hs => hdrive.trans (hsame hs), fun hf => hdrive.trans (hfewer hf), ?_, ?_, ?_⟩
    · rw [hgroups]
      refine List.map_congr_left fun g _ => ?_
      cases g with
      | none => rfl
      | some x =>
        refine if_congr ?_ rfl rfl
        unfold goes
        rw [Bool.and_true, beq_iff_eq]
    · rw [hholds]
      unfold driveActive
      rw [← hleft]
      rfl
    · rw [hdrive, hgroups]
      exact hframe
  case forgets =>
    have hf : Forgets i s := (forgets_iff he).2 ⟨hn, hpast⟩
    rw [exec_forgetTime, forgetIfDue_forgets hf]
    have ht : (removeEntry i s).throttles = s.throttles.set i none := (congrArg State.throttles (removeEntry_frame i s) :)
    refine ⟨_, rfl, ht, fun hother => ?_, fun hstate hopener => ?_⟩
    · rw [ht]
      exact removeEntry_other ((not_openBy_iff _ _).2 hother)
    · rw [ht]
      exact ⟨(removeEntry_open ⟨hstate, hopener⟩).1, (congrArg State.settings (removeEntry_frame i s) :),
        removeEntry_frame i s⟩
  case keeps =>
    rw [exec_forgetTime, forgetIfDue_keeps]
    rw [forgets_iff he]
    rintro ⟨hn, hpast⟩
    rcases h with h | h
    · exact nomatch hpast.symm.trans h
    · exact nomatch hn.symm.trans h
  case reservations =>
    rw [exec_reservationExpiry]
    generalize ht : removeItems (.throttle i) (itemExpired s.partTime) s = t
    have hframe : LedgerFrame (itemsRemoved i (itemExpired s.partTime) s) t := ht ▸ removeItems_frame i _ s
    have hdrive : t.drive = (itemsRemoved i (itemExpired s.partTime) s).drive := (congrArg State.drive hframe :)
    have hgroups : t.groups = (itemsRemoved i (itemExpired s.partTime) s).groups := (congrArg State.groups hframe :)
    have hnamed : namedByClaim t i = namedByClaim (itemsRemoved i (itemExpired s.partTime) s) i := by
      unfold namedByClaim
      rw [hdrive, hgroups]
    obtain ⟨hforgotten, hkept⟩ := removeItems_forgotten i (itemExpired s.partTime) s
    have hiff := forgotten_iff hnamed
    have hother := removeItems_txn_other (i := i) (test := itemExpired s.partTime) (s := s)
    have hends := removeItems_ends (i := i) (test := itemExpired s.partTime) (s := s)
    rw [ht] at hforgotten hkept hother hends
    refine ⟨t, rfl, (congrArg DriveClaim.holders hdrive).trans (itemsRemoved_holders i _ s), ?_, ?_, hgroups,
      ⟨fun e he hf => hforgotten (hiff.2 ⟨e, he, hf⟩), fun hall => hkept fun hf => ?_,
        fun h => hother ((not_openBy_iff _ _).2 h), fun hstate hopener hl => hends ⟨hstate, hopener⟩ (hl.imp_right hiff.2)⟩,
      ?_⟩
    · rw [hdrive]
      exact itemsRemoved_mode i _ s
    · rw [hdrive]
      exact itemsRemoved_generation i _ s
    · obtain ⟨e, he, h⟩ := hiff.1 hf
      exact hall e he h
    · rw [hdrive, hgroups]
      exact hframe

end Sys2Proof.Machine
end

section
/-! The Claim Table (R60 to R66, R72): CLAIM with and without LOCAL's override, RELEASE; O23 and O24. -/

namespace Sys2Proof.Machine

/-! ### The rows CLAIM and RELEASE -/

theorem withPayload_long {len : Nat} {act : List Byte → Asked → State → Answer × State} {a : Asked} {s : State}
    (h : len ≤ a.frame.payload.length) : withPayload len act a s = act a.frame.payload a s :=
  if_neg (Nat.not_lt.2 h)

theorem exec_claim_dispatched {s t : State} {f : Frame} {m : Mark} {src : Source} (h : Dispatched s f m src t)
    (hk : f.kind = 1) (hlen : 3 ≤ f.payload.length) : exec .claim s = .next (replied s f m src (plain
      (claimTaken (byteAt f.payload 0) (byteAt f.payload 1) (byteAt f.payload 2 % 2 == 1) (byteAt f.payload 2 / 2 % 2 == 1)
        src t))) := by
  have hrow : exec .claim s = .next (takeRequest (ofKind 1) (withPayload 3 actClaim) s) := rfl
  rw [hrow, takeRequest_dispatched h _ _ (ofKind_of_kind_eq hk), withPayload_long hlen]
  rfl

theorem exec_release_dispatched {s t : State} {f : Frame} {m : Mark} {src : Source} (h : Dispatched s f m src t)
    (hk : f.kind = 2) (hlen : 1 ≤ f.payload.length) : exec .release s =
      .next (replied s f m src (plain (releaseTaken (byteAt f.payload 0) src t))) := by
  have hrow : exec .release s = .next (takeRequest (ofKind 2) (withPayload 1 actRelease) s) := rfl
  rw [hrow, takeRequest_dispatched h _ _ (ofKind_of_kind_eq hk), withPayload_long hlen]
  rfl

/-! ### What a grant leaves alone -/

/-- The demand, the motor and the settings are the same. -/
def LocoSame (s t : State) : Prop := t.demand = s.demand ∧ t.motor = s.motor ∧ t.settings = s.settings

/-- The claims, the hold list, the demand, the motor and the settings are the same. -/
def ClaimsSame (s t : State) : Prop := t.drive = s.drive ∧ t.groups = s.groups ∧ t.holds = s.holds ∧ LocoSame s t

theorem ClaimsSame.of_offLoads {s t : State} (h : t.offLoads = s.offLoads) : ClaimsSame s t :=
  ⟨(congrArg State.drive h :), (congrArg State.groups h :), (congrArg State.holds h :), (congrArg State.demand h :),
    (congrArg State.motor h :), (congrArg State.settings h :)⟩

theorem ClaimsSame.of_ledger {s t : State} (h : LedgerFrame s t) : ClaimsSame s t :=
  ⟨(congrArg State.drive h :), (congrArg State.groups h :), (congrArg State.holds h :), (congrArg State.demand h :),
    (congrArg State.motor h :), (congrArg State.settings h :)⟩

theorem ClaimsSame.activity {s t : State} (h : ClaimsSame s t) : ClaimsSame s (activity t) := by
  obtain ⟨hd, hg, hh, hl, hm, hs⟩ := h
  obtain ⟨kd, kg, kh, kl, km, ks⟩ := ClaimsSame.of_offLoads (activity_offLoads t)
  exact ⟨kd.trans hd, kg.trans hg, kh.trans hh, kl.trans hl, km.trans hm, ks.trans hs⟩

/-- A grant of DRIVE: the new holder list, RADIO_LOSS gone, and the rest as it stands. -/
theorem grantDrive_same (mode : DriveMode) (holders : List HolderItem) (s : State) :
    ClaimsSame { newHolders mode holders s with holds := s.holds.filter (fun h => h.source != .radioLoss) }
      (grantDrive mode holders s) := by
  obtain ⟨hd, hg, hh, hl, hm, hs⟩ := ClaimsSame.of_ledger (changeHolders_frame mode holders s)
  exact ⟨hd, hg, congrArg (List.filter _) hh, hl, hm, hs⟩

/-- A grant that drops no source gives no notice. -/
theorem grantDrive_of_kept {mode : DriveMode} {holders : List HolderItem} {s : State}
    (h : ∀ x ∈ s.drive.holders, ∃ y ∈ holders, y.source = x.source) : grantDrive mode holders s =
      { newHolders mode holders s with holds := s.holds.filter (fun h => h.source != .radioLoss) } := by
  unfold grantDrive
  rw [changeHolders_of_kept h]
  rfl

theorem changeGroup_same (g : Nat) (item : Option HolderItem) (s : State) :
    ClaimsSame { s with groups := s.groups.set g item } (changeGroup g item s) :=
  .of_ledger (changeGroup_frame g item s)

/-! ### A CLAIM is decided (R60 to R64) -/

/-- What a CLAIM within range grants, if anything. -/
def claimDecided (resource : Nat) (mode : DriveMode) (steal byLocal : Bool) (src : Source) (s : State) : Option State :=
  if resource = 0 then (if byLocal then some (overrideDrive mode s) else claimDrive mode steal src s)
  else if byLocal then some (changeGroup (resource - 1) (some (activeItem .localMaster)) s)
  else claimGroup (resource - 1) steal src s

theorem claimTaken_range {resource mode : Nat} {steal override : Bool} {src : Source} {s : State}
    (h : 4 < resource ∨ 1 < mode) : claimTaken resource mode steal override src s = (.range, s) := if_pos h

theorem claimTaken_granted {resource mode : Nat} {steal override : Bool} {src : Source} {s u : State}
    (hr : resource ≤ 4) (hm : mode ≤ 1) (h : claimDecided resource (if mode = 1 then .shared else .exclusive) steal
      (override && src == .localMaster) src s = some u) :
    claimTaken resource mode steal override src s = (.ok, activity u) := by
  unfold claimDecided at h
  unfold claimTaken
  rw [if_neg (by omega)]
  dsimp only
  rw [h]

theorem claimTaken_held {resource mode : Nat} {steal override : Bool} {src : Source} {s : State}
    (hr : resource ≤ 4) (hm : mode ≤ 1) (h : claimDecided resource (if mode = 1 then .shared else .exclusive) steal
      (override && src == .localMaster) src s = none) :
    claimTaken resource mode steal override src s = (.claimHeld, s) := by
  unfold claimDecided at h
  unfold claimTaken
  rw [if_neg (by omega)]
  dsimp only
  rw [h]

theorem claimDecided_drive {mode : DriveMode} {steal : Bool} {src : Source} {s : State} {n : Nat} (h : n = 0) :
    claimDecided n mode steal false src s = claimDrive mode steal src s := if_pos h

theorem claimDecided_group {mode : DriveMode} {steal : Bool} {src : Source} {s : State} {n : Nat} (h : 1 ≤ n) :
    claimDecided n mode steal false src s = claimGroup (n - 1) steal src s := if_neg (by omega)

theorem hasDriveItem_iff (s : State) (src : Source) :
    hasDriveItem s src = true ↔ ∃ h ∈ s.drive.holders, h.source = src := by
  unfold hasDriveItem
  rw [List.any_eq_true]
  exact exists_congr fun h => and_congr_right fun _ => beq_iff_eq

/-- A steal of a claim all of whose items are RESERVED (R61). -/
def Steals (steal : Bool) (s : State) : Prop := steal = true ∧ ∀ h ∈ s.drive.holders, h.until_.isSome = true

/-- A join of a SHARED claim of fewer than three (R62). -/
def Joins (mode : DriveMode) (s : State) : Prop := mode = .shared ∧ s.drive.mode = .shared ∧ s.drive.holders.length < 3

theorem steals_iff (steal : Bool) (s : State) :
    (steal && s.drive.holders.all (fun h => h.until_.isSome)) = true ↔ Steals steal s := by
  rw [Bool.and_eq_true, List.all_eq_true]
  rfl

section ClaimDrive

variable {mode : DriveMode} {steal : Bool} {src : Source} {s : State}

theorem claimDrive_own (h : ∃ x ∈ s.drive.holders, x.source = src) : claimDrive mode steal src s = some s :=
  if_pos ((hasDriveItem_iff s src).2 h)

theorem claimDrive_free (h : ¬ ∃ x ∈ s.drive.holders, x.source = src) (hf : s.drive.mode = .free) :
    claimDrive mode steal src s = some (grantDrive mode [activeItem src] s) :=
  (if_neg (mt (hasDriveItem_iff s src).1 h)).trans (if_pos hf)

theorem claimDrive_steal (h : ¬ ∃ x ∈ s.drive.holders, x.source = src) (hf : s.drive.mode ≠ .free)
    (hs : Steals steal s) : claimDrive mode steal src s = some (grantDrive mode [activeItem src] s) :=
  (if_neg (mt (hasDriveItem_iff s src).1 h)).trans ((if_neg hf).trans (if_pos ((steals_iff steal s).2 hs)))

theorem claimDrive_join (h : ¬ ∃ x ∈ s.drive.holders, x.source = src) (hf : s.drive.mode ≠ .free)
    (hs : ¬ Steals steal s) (hj : Joins mode s) :
    claimDrive mode steal src s = some (grantDrive .shared (s.drive.holders ++ [activeItem src]) s) :=
  (if_neg (mt (hasDriveItem_iff s src).1 h)).trans
    ((if_neg hf).trans ((if_neg (mt (steals_iff steal s).1 hs)).trans (if_pos hj)))

theorem claimDrive_held (h : ¬ ∃ x ∈ s.drive.holders, x.source = src) (hf : s.drive.mode ≠ .free)
    (hs : ¬ Steals steal s) (hj : ¬ Joins mode s) : claimDrive mode steal src s = none :=
  (if_neg (mt (hasDriveItem_iff s src).1 h)).trans
    ((if_neg hf).trans ((if_neg (mt (steals_iff steal s).1 hs)).trans (if_neg hj)))

end ClaimDrive

section ClaimGroup

variable {g : Nat} {steal : Bool} {src : Source} {s : State}

theorem claimGroup_open (h : s.groups.getD g none = none) :
    claimGroup g steal src s = some { s with groups := s.groups.set g (some (activeItem src)) } := by
  unfold claimGroup
  rw [h, ← changeGroup_open h]

theorem claimGroup_own {x : HolderItem} (h : s.groups.getD g none = some x) (hs : x.source = src) :
    claimGroup g steal src s = some s := by
  unfold claimGroup
  rw [h]
  exact if_pos hs

theorem claimGroup_steal {x : HolderItem} (h : s.groups.getD g none = some x) (hs : x.source ≠ src)
    (hsteal : (steal && x.until_.isSome) = true) :
    claimGroup g steal src s = some (changeGroup g (some (activeItem src)) s) := by
  unfold claimGroup
  rw [h]
  exact (if_neg hs).trans (if_pos hsteal)

theorem claimGroup_held {x : HolderItem} (h : s.groups.getD g none = some x) (hs : x.source ≠ src)
    (hsteal : (steal && x.until_.isSome) = false) : claimGroup g steal src s = none := by
  unfold claimGroup
  rw [h]
  refine (if_neg hs).trans ?_
  rw [hsteal]
  rfl

end ClaimGroup

theorem override_off {n : Nat} {src : Source} (h : ¬ (n = 1 ∧ src = .localMaster)) :
    (n == 1 && src == .localMaster) = false := by
  rw [← Bool.not_eq_true, Bool.and_eq_true, beq_iff_eq, beq_iff_eq]
  exact h

/-- Settles O23: each branch of `claimDrive` and `claimGroup`; a grant gives notices only where it takes an item from
another. -/
theorem claimIsJudged : Obligations.ClaimIsJudged := by
  unfold Obligations.ClaimIsJudged
  refine ⟨fun s f m src t hd hk hlen h => ?range, fun s f m src t hd hk hlen hr hm hov => ?drive,
    fun s f m src t hd hk hlen hr1 hr4 hm hov => ?group⟩
  case range => rw [exec_claim_dispatched hd hk hlen, claimTaken_range h]; rfl
  case drive =>
    have hlocal := override_off hov
    rw [exec_claim_dispatched hd hk hlen]
    have hgrant {u : State} (hu : claimDrive (if byteAt f.payload 1 = 1 then .shared else .exclusive)
        (byteAt f.payload 2 % 2 == 1) src t = some u) := claimTaken_granted (s := t) (hr.trans_le (Nat.zero_le 4)) hm
      (by rw [hlocal]; exact (claimDecided_drive hr).trans hu)
    have hsteal : Steals (byteAt f.payload 2 % 2 == 1) t ↔
        byteAt f.payload 2 % 2 = 1 ∧ ∀ h ∈ t.drive.holders, h.until_.isSome = true := and_congr_left' beq_iff_eq
    refine ⟨fun hown => ?_, fun hno hfree hnil => ?_, fun hno hfree hs => ?_, fun hno hfree hs hj => ?_,
      fun hno hfree hs hj => ?_⟩
    · rw [hgrant (claimDrive_own hown)]
      rfl
    · rw [hgrant (claimDrive_free hno hfree), grantDrive_of_kept (by rw [hnil]; exact fun x hx => nomatch hx)]
      rfl
    · rw [hgrant (claimDrive_steal hno hfree (hsteal.2 hs))]
      obtain ⟨hdrive, hgroups, hholds, hdemand, hmotor, hset⟩ := (grantDrive_same _ [activeItem src] t).activity
      exact ⟨_, rfl, hdrive, hholds, hgroups, hset, hdemand, hmotor⟩
    · rw [hgrant (claimDrive_join hno hfree (mt hsteal.1 hs) hj),
        grantDrive_of_kept fun x hx => ⟨x, List.mem_append_left _ hx, rfl⟩]
      unfold newHolders
      rw [if_neg (by simp)]
      rfl
    · rw [claimTaken_held (hr.trans_le (Nat.zero_le 4)) hm
        (by rw [hlocal]; exact (claimDecided_drive hr).trans (claimDrive_held hno hfree (mt hsteal.1 hs) hj))]
      rfl
  case group =>
    have hlocal := override_off hov
    rw [exec_claim_dispatched hd hk hlen]
    have hgrant {u : State} (hu : claimGroup (byteAt f.payload 0 - 1) (byteAt f.payload 2 % 2 == 1) src t = some u) :=
      claimTaken_granted (s := t) hr4 hm (by rw [hlocal]; exact (claimDecided_group hr1).trans hu)
    refine ⟨fun hopen => ?_, fun x hx => ⟨fun hs => ?_, fun hs hsteal hres => ?_, fun hs hno => ?_⟩⟩
    · rw [hgrant (claimGroup_open hopen)]
      rfl
    · rw [hgrant (claimGroup_own hx hs)]
      rfl
    · rw [hgrant (claimGroup_steal hx hs (by rw [hsteal, hres]; rfl))]
      obtain ⟨hdrive, hgroups, hholds, hdemand, hmotor, hset⟩ :=
        (changeGroup_same (byteAt f.payload 0 - 1) (some (activeItem src)) t).activity
      exact ⟨_, rfl, hgroups, hdrive, hholds, hdemand, hmotor, hset⟩
    · have hnone : (byteAt f.payload 2 % 2 == 1 && x.until_.isSome) = false := by
        rcases hno with h | h <;> simp [h]
      rw [claimTaken_held hr4 hm (by rw [hlocal]; exact (claimDecided_group hr1).trans (claimGroup_held hx hs hnone))]
      rfl

/-! ### LOCAL's override (R63) -/

theorem mem_mine {s : State} {src : Source} {h : HolderItem} :
    h ∈ s.drive.holders.filter (fun h => h.source == src) ↔ h ∈ s.drive.holders ∧ h.source = src := by
  rw [List.mem_filter, beq_iff_eq]

/-- Without two items of one source, the items of a source that has one are one item. -/
theorem map_source_mine {s : State} {src : Source} (hnodup : (s.drive.holders.map (·.source)).Nodup)
    (h : ∃ x ∈ s.drive.holders, x.source = src) :
    (s.drive.holders.filter (fun h => h.source == src)).map (·.source) = [src] := by
  have hsub : (s.drive.holders.filter (fun h => h.source == src)).Sublist s.drive.holders := List.filter_sublist
  have hn : ((s.drive.holders.filter (fun h => h.source == src)).map (·.source)).Nodup := hnodup.sublist (hsub.map _)
  have hall : ∀ y ∈ (s.drive.holders.filter (fun h => h.source == src)).map (·.source), y = src := by
    intro y hy
    obtain ⟨x, hx, rfl⟩ := List.mem_map.1 hy
    exact (mem_mine.1 hx).2
  obtain ⟨x, hx, rfl⟩ := h
  have hmem := List.mem_map_of_mem (f := HolderItem.source) (mem_mine.2 ⟨hx, rfl⟩)
  generalize (s.drive.holders.filter (fun h => h.source == x.source)).map (·.source) = l at hn hall hmem
  cases l with
  | nil => cases hmem
  | cons a l =>
    obtain rfl := hall a List.mem_cons_self
    cases l with
    | nil => rfl
    | cons b l =>
      obtain rfl := hall b (List.mem_cons_of_mem _ List.mem_cons_self)
      exact absurd List.mem_cons_self (List.nodup_cons.1 hn).1

/-- The claims an override of DRIVE leaves, with the other fields it does not touch. -/
def Overridden (mode : DriveMode) (s u : State) : Prop :=
  u.drive.mode = mode ∧ u.drive.holders.map (·.source) = [.localMaster] ∧
  u.drive.holders = (if ∃ h ∈ s.drive.holders, h.source = .localMaster
    then s.drive.holders.filter (fun h => h.source == .localMaster) else [activeItem .localMaster]) ∧
  u.drive.generation = (if s.drive.holders.map (·.source) = [.localMaster] then s.drive.generation
    else nextGeneration s.drive.generation) ∧
  u.holds = (if ∃ h ∈ s.drive.holders, h.source = .localMaster then s.holds
    else s.holds.filter (fun h => h.source != .radioLoss)) ∧
  u.groups = s.groups ∧ u.settings = s.settings ∧ u.demand = s.demand ∧ u.motor = s.motor

theorem Overridden.of_same {mode : DriveMode} {s u v : State} (h : Overridden mode s u) (hv : ClaimsSame u v) :
    Overridden mode s v := by
  obtain ⟨hd, hg, hh, hl, hm, hs⟩ := hv
  unfold Overridden at h ⊢
  rw [hd, hg, hh, hl, hm, hs]
  exact h

theorem overrideDrive_overridden (mode : DriveMode) {s : State} (hnodup : (s.drive.holders.map (·.source)).Nodup) :
    Overridden mode s (overrideDrive mode s) := by
  unfold overrideDrive
  dsimp only
  by_cases hmine : ∃ h ∈ s.drive.holders, h.source = .localMaster
  · have hsources := map_source_mine hnodup hmine
    have hne : ¬ (s.drive.holders.filter (fun h => h.source == .localMaster)).isEmpty = true := fun h => by
      rw [List.isEmpty_iff.1 h] at hsources
      exact nomatch hsources
    rw [if_neg hne]
    split
    · rename_i hlen
      have hall : s.drive.holders.filter (fun h => h.source == .localMaster) = s.drive.holders :=
        List.filter_sublist.eq_of_length hlen
      rw [hall] at hsources
      refine ⟨rfl, hsources, ?_, (if_pos hsources).symm, (if_pos hmine).symm, rfl, rfl, rfl, rfl⟩
      rw [if_pos hmine]
      exact hall.symm
    · rename_i hlen
      refine Overridden.of_same (u := newHolders mode (s.drive.holders.filter (fun h => h.source == .localMaster)) s)
        ⟨if_neg hne, hsources, (if_pos hmine).symm, ?_, (if_pos hmine).symm, rfl, rfl, rfl, rfl⟩
        (.of_ledger (changeHolders_frame mode _ s))
      refine (if_neg fun hlocal => hlen (congrArg List.length (List.filter_eq_self.2 fun x hx => ?_))).symm
      have hx' := List.mem_map_of_mem (f := HolderItem.source) hx
      rw [hlocal] at hx'
      exact beq_iff_eq.2 (List.mem_singleton.1 hx')
  · have hnil : s.drive.holders.filter (fun h => h.source == .localMaster) = [] :=
      List.filter_eq_nil_iff.2 fun x hx hb => hmine ⟨x, hx, beq_iff_eq.1 hb⟩
    rw [hnil]
    refine Overridden.of_same (u := { newHolders mode [activeItem .localMaster] s with
      holds := s.holds.filter (fun h => h.source != .radioLoss) }) ⟨rfl, rfl, (if_neg hmine).symm, (if_neg fun hlocal => hmine ?_).symm, (if_neg hmine).symm, rfl,
      rfl, rfl, rfl⟩ (grantDrive_same mode [activeItem .localMaster] s)
    have hmem : Source.localMaster ∈ s.drive.holders.map (·.source) := by
      rw [hlocal]
      exact List.mem_singleton.2 rfl
    obtain ⟨x, hx, hs⟩ := List.mem_map.1 hmem
    exact ⟨x, hx, hs⟩

/-! ### RELEASE (R65) -/

theorem releaseTaken_range {r : Nat} {src : Source} {s : State} (h : 4 < r) : releaseTaken r src s = (.range, s) := if_pos h

theorem releaseTaken_drive {r : Nat} {src : Source} {s : State} (hr : r = 0) :
    releaseTaken r src s = if hasDriveItem s src = true then (.ok, releaseDrive src s) else (.notHolder, s) := by
  subst hr
  rfl

theorem releaseTaken_group {r : Nat} {src : Source} {s : State} (h1 : 1 ≤ r) (h4 : r ≤ 4) {x : HolderItem}
    (hx : s.groups.getD (r - 1) none = some x) (hs : x.source = src) :
    releaseTaken r src s = (.ok, changeGroup (r - 1) none s) := by
  unfold releaseTaken
  rw [if_neg (by omega), if_neg (by omega), hx]
  exact if_pos hs

theorem releaseTaken_stranger {r : Nat} {src : Source} {s : State} (h1 : 1 ≤ r) (h4 : r ≤ 4)
    (h : ∀ x, s.groups.getD (r - 1) none = some x → x.source ≠ src) : releaseTaken r src s = (.notHolder, s) := by
  unfold releaseTaken
  rw [if_neg (by omega), if_neg (by omega)]
  cases hg : s.groups.getD (r - 1) none with
  | none => rfl
  | some x => exact if_neg (h x hg)

theorem driveActive_iff (s : State) : driveActive s = true ↔ ∃ h ∈ s.drive.holders, h.until_ = none := by
  unfold driveActive
  rw [List.any_eq_true]
  exact exists_congr fun h => and_congr_right fun _ => Option.isNone_iff_eq_none

/-- A RELEASE of DRIVE leaves the other items, and RADIO_LOSS where none of them is ACTIVE any more (R65, R72). -/
theorem releaseDrive_same (src : Source) (s : State) :
    let left := s.drive.holders.filter (fun h => h.source != src)
    ClaimsSame { s with
      drive := { mode := if left = [] then .free else s.drive.mode, holders := left,
                 generation := nextGeneration s.drive.generation }
      holds := if left ≠ [] ∧ (∃ h ∈ s.drive.holders, h.until_ = none) ∧ (∀ h ∈ left, h.until_ ≠ none)
        then insertHold { plainStop .radioLoss .normal with created := s.partTime } s.holds else s.holds }
      (releaseDrive src s) := by
  intro left
  have hframe := changeHolders_frame s.drive.mode left s
  obtain ⟨hd, hg, hh, hl, hm, hs⟩ := ClaimsSame.of_ledger hframe
  have hactive : driveActive (changeHolders s.drive.mode left s) = true ↔ ∃ h ∈ left, h.until_ = none := by
    rw [driveActive_iff, hd]
    exact Iff.rfl
  have hcond : (driveActive s && !driveActive (changeHolders s.drive.mode left s) && !left.isEmpty) = true ↔
      (left ≠ [] ∧ (∃ h ∈ s.drive.holders, h.until_ = none) ∧ ∀ h ∈ left, h.until_ ≠ none) := by
    rw [Bool.and_eq_true, Bool.and_eq_true, Bool.not_eq_true', Bool.not_eq_true', driveActive_iff, ← Bool.not_eq_true,
      ← Bool.not_eq_true, hactive, List.isEmpty_iff]
    constructor
    · rintro ⟨⟨hold, hnone⟩, hne⟩
      exact ⟨hne, hold, fun x hx hu => hnone ⟨x, hx, hu⟩⟩
    · rintro ⟨hne, hold, hall⟩
      exact ⟨⟨hold, fun ⟨x, hx, hu⟩ => hall x hx hu⟩, hne⟩
  have hp : (changeHolders s.drive.mode left s).partTime = s.partTime := (congrArg State.partTime hframe :)
  have hmode : (newHolders s.drive.mode left s).drive.mode = if left = [] then .free else s.drive.mode :=
    if_congr List.isEmpty_iff rfl rfl
  unfold releaseDrive
  rw [requestRadioLoss_if]
  refine ⟨?_, hg, ?_, hl, hm, hs⟩
  · refine hd.trans ?_
    rw [← hmode]
    rfl
  · refine (if_congr hcond ?_ hh)
    rw [hh, hp]
    rfl

/-- Settles O24: LOCAL's override leaves it alone on DRIVE, and a RELEASE takes the sender's item alone. -/
theorem overridesAndReleasesAreTaken : Obligations.OverridesAndReleasesAreTaken := by
  unfold Obligations.OverridesAndReleasesAreTaken
  refine ⟨fun s f m t hd hk hlen hm hov hnodup => ⟨fun hr => ?drive, fun hr1 hr4 => ?group⟩,
    fun s f m src t hd hk hlen => ⟨fun hr => ?range, fun hr hno => ?stranger, fun hr hhas => ?releases,
      fun hr1 hr4 => ⟨fun x hx hs => ?givesGroup, fun hno => ?strangerOfGroup⟩⟩⟩
  case drive =>
    have hdecided : claimDecided (byteAt f.payload 0) (if byteAt f.payload 1 = 1 then .shared else .exclusive)
        (byteAt f.payload 2 % 2 == 1) (byteAt f.payload 2 / 2 % 2 == 1 && Source.localMaster == .localMaster) .localMaster t =
        some (overrideDrive (if byteAt f.payload 1 = 1 then .shared else .exclusive) t) := by
      unfold claimDecided
      rw [if_pos hr, hov]
      rfl
    rw [exec_claim_dispatched hd hk hlen, claimTaken_granted (by omega) hm hdecided]
    exact ⟨_, rfl, (overrideDrive_overridden _ hnodup).of_same (.of_offLoads (activity_offLoads _))⟩
  case group =>
    have hdecided : claimDecided (byteAt f.payload 0) (if byteAt f.payload 1 = 1 then .shared else .exclusive)
        (byteAt f.payload 2 % 2 == 1) (byteAt f.payload 2 / 2 % 2 == 1 && Source.localMaster == .localMaster) .localMaster t =
        some (changeGroup (byteAt f.payload 0 - 1) (some (activeItem .localMaster)) t) := by
      unfold claimDecided
      rw [if_neg (by omega), hov]
      rfl
    rw [exec_claim_dispatched hd hk hlen, claimTaken_granted hr4 hm hdecided]
    obtain ⟨hdrive, hgroups, hholds, hdemand, hmotor, hset⟩ :=
      (changeGroup_same (byteAt f.payload 0 - 1) (some (activeItem .localMaster)) t).activity
    exact ⟨_, rfl, hgroups, hdrive, hholds, hset, hdemand, hmotor⟩
  case range =>
    rw [exec_release_dispatched hd hk hlen, releaseTaken_range hr]
    rfl
  case stranger =>
    rw [exec_release_dispatched hd hk hlen, releaseTaken_drive hr, if_neg (mt (hasDriveItem_iff t src).1 hno)]
    rfl
  case releases =>
    rw [exec_release_dispatched hd hk hlen, releaseTaken_drive hr, if_pos ((hasDriveItem_iff t src).2 hhas)]
    obtain ⟨hdrive, hgroups, hholds, hdemand, hmotor, hset⟩ := releaseDrive_same src t
    exact ⟨_, rfl, hdrive, hholds, hgroups, hdemand, hmotor, hset⟩
  case givesGroup =>
    rw [exec_release_dispatched hd hk hlen, releaseTaken_group hr1 hr4 hx hs]
    obtain ⟨hdrive, hgroups, hholds, hdemand, hmotor, hset⟩ := changeGroup_same (byteAt f.payload 0 - 1) none t
    exact ⟨_, rfl, hgroups, hdrive, hholds, hdemand, hmotor, hset⟩
  case strangerOfGroup =>
    rw [exec_release_dispatched hd hk hlen, releaseTaken_stranger hr1 hr4 hno]
    rfl

end Sys2Proof.Machine
end

section
/-! What the Sound Engine's modes and triggers read (R102, R115, R130 to R133), the waking of a parked part (R152), and
O26. -/

namespace Sys2Proof.Machine

/-! ### What the Sound Engine reads of its surroundings -/

/-- The surroundings `x` with all of `s` that the Sound Engine's triggers and modes read. -/
def engineIn (x s : State) : State :=
  { x with
    sound := s.sound, port := s.port, settings := s.settings, pub := s.pub, partTime := s.partTime, supply := s.supply
    txn := s.txn, job := s.job, switches := s.switches, demand := { x.demand with applied := s.demand.applied } }

theorem SoundFrame.exists_eq {s t : State} (h : SoundFrame s t) : ∃ so po, t = { s with sound := so, port := po } :=
  ⟨_, _, h⟩

theorem soundIn_engineIn {s t : State} (h : SoundFrame s t) (x : State) : soundIn (engineIn x s) t = engineIn x t := by
  obtain ⟨so, po, rfl⟩ := h.exists_eq
  rfl

theorem startRequest_engineIn (c : Nat) (held : Bool) (x s : State) :
    startRequest c held (engineIn x s) = engineIn x (startRequest c held s) :=
  (startRequest_soundIn c held (engineIn x s) s).trans (soundIn_engineIn (.startRequest c held s) x)

theorem momentaryStart_engineIn (c : Option Nat) (x s : State) :
    momentaryStart c (engineIn x s) = engineIn x (momentaryStart c s) :=
  (momentaryStart_soundIn c (engineIn x s) s).trans (soundIn_engineIn (.momentaryStart c s) x)

theorem triggerEnd_engineIn (c : Nat) (x s : State) : triggerEnd c (engineIn x s) = engineIn x (triggerEnd c s) := by
  have hheld : cueHeld (engineIn x s) c = cueHeld s c := rfl
  unfold triggerEnd
  rw [hheld]
  split <;> rfl

theorem fadeVoice_engineIn (v : Nat) (x s : State) : fadeVoice v (engineIn x s) = engineIn x (fadeVoice v s) := by
  have hvoice : voice (engineIn x s) v = voice s v := rfl
  unfold fadeVoice
  rw [hvoice]
  dsimp only
  split
  · rfl
  · split <;> rfl

theorem foldl_engineIn {β : Type} {f : State → β → State} (hf : ∀ x s b, f (engineIn x s) b = engineIn x (f s b))
    (l : List β) (x s : State) : l.foldl f (engineIn x s) = engineIn x (l.foldl f s) := by
  induction l generalizing s with
  | nil => rfl
  | cons b l ih => rw [List.foldl_cons, List.foldl_cons, hf, ih]

theorem goQuiet_engineIn (x s : State) : goQuiet (engineIn x s) = engineIn x (goQuiet s) := by
  have hcue : ambientCue (engineIn x s) = ambientCue s := rfl
  have hambient : (engineIn x s).sound.ambient = s.sound.ambient := rfl
  unfold goQuiet
  rw [hcue, hambient]
  dsimp only
  rw [← foldl_engineIn fun x s v => fadeVoice_engineIn v x s]
  congr 1
  split
  · exact triggerEnd_engineIn _ x { s with sound := { s.sound with mode := .quiet, ambient := false } }
  · rfl

theorem ambientBegin_engineIn (x s : State) : ambientBegin (engineIn x s) = engineIn x (ambientBegin s) := by
  have hcue (u : State) : ambientCue (engineIn x u) = ambientCue u := rfl
  have hbegun : ({ engineIn x s with sound := { (engineIn x s).sound with ambient := true } } : State) =
      engineIn x { s with sound := { s.sound with ambient := true } } := rfl
  unfold ambientBegin
  rw [hbegun]
  dsimp only
  rw [hcue]
  split
  · exact startRequest_engineIn _ true x _
  · rfl

theorem updateMode_engineIn (x s : State) : updateMode (engineIn x s) = engineIn x (updateMode s) := by
  have hmode : (engineIn x s).sound.mode = s.sound.mode := rfl
  have hcause : quietCause (engineIn x s) = quietCause s := rfl
  have hstate : (engineIn x s).supply.state = s.supply.state := rfl
  unfold updateMode
  rw [hmode, hcause]
  split
  · exact goQuiet_engineIn x s
  · dsimp only
    rw [hstate]
    split
    · exact ambientBegin_engineIn x { s with sound := { s.sound with mode := .normal } }
    · rfl
  · rfl

theorem soundSupplyChange_engineIn (x s : State) :
    soundSupplyChange (engineIn x s) = engineIn x (soundSupplyChange s) := by
  have habsent (u : State) : ambientAbsent (engineIn x u) = ambientAbsent u := rfl
  unfold soundSupplyChange
  rw [updateMode_engineIn]
  dsimp only
  rw [habsent, ambientBegin_engineIn]
  exact (apply_ite (engineIn x) _ _ _).symm

/-- The Sound Engine finds the same in `t` as in `s`. -/
def HearsAs (s t : State) : Prop := t = engineIn t s

namespace HearsAs

theorem trans {a b c : State} (h : HearsAs a b) (k : HearsAs b c) : HearsAs a c := by
  unfold HearsAs at h k
  rw [h] at k
  exact k

theorem exists_eq {s t : State} (h : HearsAs s t) : ∃ x, t = engineIn x s := ⟨t, h⟩

theorem symm {s t : State} (h : HearsAs s t) : HearsAs t s := by
  obtain ⟨x, rfl⟩ := h.exists_eq
  rfl

theorem of_engineIn (x s : State) : HearsAs s (engineIn x s) := rfl

theorem smokeDecide (s : State) : HearsAs s (smokeDecide s) := by
  have h := smokeDecide_frame s
  generalize Machine.smokeDecide s = t at h
  rw [h]
  rfl

theorem soundSupplyChange {s t : State} (h : HearsAs s t) : HearsAs (soundSupplyChange s) (soundSupplyChange t) := by
  obtain ⟨x, rfl⟩ := h.exists_eq
  rw [soundSupplyChange_engineIn]
  rfl

theorem sound_port {s t : State} (h : HearsAs s t) : t.sound = s.sound ∧ t.port = s.port :=
  ⟨(congrArg State.sound h :), (congrArg State.port h :)⟩

end HearsAs

/-! ### Activity and the waking of a parked part (R152) -/

theorem activity_parked {s : State} (h : s.supply.state = .parked) : activity s = soundSupplyChange (smokeDecide
    { s with supply := { s.supply with state := .track, lastActivity := s.partTime } }) := by
  have hactivity : activity s = changeSupply .track { s with supply := { s.supply with lastActivity := s.partTime } } :=
    if_pos h
  rw [hactivity]
  unfold changeSupply
  dsimp only
  rw [h, if_neg (by decide)]
  rfl

theorem activity_supply (s : State) : (activity s).supply = { s.supply with
    lastActivity := s.partTime, state := if s.supply.state = .parked then .track else s.supply.state } := by
  by_cases h : s.supply.state = .parked
  · rw [activity_parked h, soundSupplyChange_supply, smokeDecide_supply, if_pos h]
  · rw [activity_awake h, if_neg h]

/-- Activity gives the Sound Engine the same in two states that it cannot tell apart. -/
theorem HearsAs.activity {s t : State} (h : HearsAs s t) : HearsAs (activity s) (activity t) := by
  obtain ⟨x, rfl⟩ := h.exists_eq
  by_cases hp : s.supply.state = .parked
  · have hp' : (engineIn x s).supply.state = .parked := hp
    rw [activity_parked hp, activity_parked hp']
    have hwoken : HearsAs { s with supply := { s.supply with state := .track, lastActivity := s.partTime } }
        { engineIn x s with supply :=
          { (engineIn x s).supply with state := .track, lastActivity := (engineIn x s).partTime } } := rfl
    exact ((HearsAs.smokeDecide _).symm.trans (hwoken.trans (.smokeDecide _))).soundSupplyChange
  · have hp' : (engineIn x s).supply.state ≠ .parked := hp
    rw [activity_awake hp, activity_awake hp']
    rfl

/-! ### A change of the active features (R102) -/

/-- The cue events of a feature change, before the brake's. -/
def cuesTurned (old s : State) : State :=
  ((List.range 32).filter (fun c => !asked old (9 + c) && asked s (9 + c))).foldl (fun u c => startRequest c true u)
    (((List.range 32).filter (fun c => asked old (9 + c) && !asked s (9 + c))).foldl (fun u c => triggerEnd c u) s)

theorem cuesTurned_frame (old s : State) : SoundFrame s (cuesTurned old s) :=
  (SoundFrame.foldl (fun u c => .triggerEnd c u) _ s).trans (.foldl (fun u c => .startRequest c true u) _ _)

theorem cuesHeard_eq (old s : State) : cuesHeard old s =
    if asked old 42 = false ∧ asked s 42 = true then brakeOn (cuesTurned old s) else cuesTurned old s := by
  have hset : set8 (cuesTurned old s) 456 = set8 s 456 := by
    rw [cuesTurned_frame old s]
    rfl
  unfold brakeOn
  rw [hset]
  rfl

/-- The Smoke Controller decides last, and only where SMOKE has changed (R137). -/
theorem featureEvents_eq (old s : State) : featureEvents old s =
    if (asked old 41 != asked s 41) = true then smokeDecide (cuesHeard old s) else cuesHeard old s := by
  have hbrake : (if (!asked old featBrake && asked s featBrake) = true then brakeOn (cuesTurned old s)
      else cuesTurned old s) = cuesHeard old s := by
    rw [cuesHeard_eq]
    refine if_congr ?_ rfl rfl
    rw [Bool.and_eq_true, Bool.not_eq_true']
    rfl
  rw [← hbrake]
  rfl

theorem cuesHeard_smoke_supply (old s : State) :
    (cuesHeard old s).smoke = s.smoke ∧ (cuesHeard old s).supply = s.supply := by
  have hturned := cuesTurned_frame old s
  rw [cuesHeard_eq]
  split
  · have hbrake : SoundFrame { cuesTurned old s with demand := { (cuesTurned old s).demand with step := 0 } }
        (brakeOn (cuesTurned old s)) := .momentaryStart _ _
    exact ⟨(congrArg State.smoke hbrake :).trans (congrArg State.smoke hturned :),
      (congrArg State.supply hbrake :).trans (congrArg State.supply hturned :)⟩
  · exact ⟨(congrArg State.smoke hturned :), (congrArg State.supply hturned :)⟩

theorem featureEvents_supply (old s : State) : (featureEvents old s).supply = s.supply := by
  rw [featureEvents_eq]
  split
  · rw [smokeDecide_supply]
    exact (cuesHeard_smoke_supply old s).2
  · exact (cuesHeard_smoke_supply old s).2

theorem featureEvents_smoke {old s : State} (h : asked s 41 = asked old 41) : (featureEvents old s).smoke = s.smoke := by
  rw [featureEvents_eq, h, if_neg (by simp)]
  exact (cuesHeard_smoke_supply old s).1

/-- The Sound Engine is told of a feature change before the Smoke Controller decides. -/
theorem featureEvents_hears (old s : State) : HearsAs (cuesHeard old s) (featureEvents old s) := by
  rw [featureEvents_eq]
  split
  · exact .smokeDecide _
  · rfl

theorem asked_braked (old s : State) : asked (braked old s) = asked s := by
  unfold braked
  split <;> rfl

theorem asked_featureEvents (old s : State) : asked (featureEvents old s) = asked s :=
  (asked_of_offLoads (featureEvents_offLoads old s)).trans (asked_braked old s)

/-! ### A permitted FUNC (R68, R77, R98) -/

theorem exec_func_dispatched {s t : State} {f : Frame} {m : Mark} {src : Source} (h : Dispatched s f m src t)
    (hk : f.kind = 4) (hlen : 3 ≤ f.payload.length) : exec .func s = .next (replied s f m src (plain
      (funcRequest m (byteAt f.payload 0) (byteAt f.payload 1) (byteAt f.payload 2) src t))) := by
  have hrow : exec .func s = .next (takeRequest (ofKind 4) (withPayload 3 actFunc) s) := rfl
  rw [hrow, takeRequest_dispatched h _ _ (ofKind_of_kind_eq hk), withPayload_long hlen]
  rfl

section FuncRequest

variable {m : Mark} {g mask values : Nat} {src : Source} {s : State}

theorem funcRequest_wrongAddress (h : consistSet s = true ∧ m = .own) :
    funcRequest m g mask values src s = (.wrongAddress, s) := by
  refine if_pos ?_
  rw [h.1, h.2]
  rfl

theorem own_under_consist_iff : (consistSet s && m == .own) = true ↔ consistSet s = true ∧ m = .own := by
  rw [Bool.and_eq_true, beq_iff_eq]

theorem funcRequest_range (h : ¬ (consistSet s = true ∧ m = .own)) (hg : 3 < g) :
    funcRequest m g mask values src s = (.range, s) :=
  (if_neg (mt own_under_consist_iff.1 h)).trans (if_pos hg)

theorem funcPermitted_iff : funcPermitted g src s = true ↔ ∀ h, s.groups.getD g none = some h → h.source = src := by
  unfold funcPermitted
  cases s.groups.getD g none with
  | none => simp
  | some h => simp

theorem funcRequest_notHolder (h : ¬ (consistSet s = true ∧ m = .own)) (hg : g ≤ 3)
    (hp : ¬ ∀ h, s.groups.getD g none = some h → h.source = src) :
    funcRequest m g mask values src s = (.notHolder, s) := by
  refine (if_neg (mt own_under_consist_iff.1 h)).trans ((if_neg (Nat.not_lt.2 hg)).trans (if_pos ?_))
  rw [Bool.not_eq_true', ← Bool.not_eq_true]
  exact mt funcPermitted_iff.1 hp

theorem funcRequest_permitted (h : ¬ (consistSet s = true ∧ m = .own)) (hg : g ≤ 3)
    (hp : ∀ h, s.groups.getD g none = some h → h.source = src) :
    funcRequest m g mask values src s = (.ok, funcTaken g (narrowedMask m g mask s) values src s) := by
  refine (if_neg (mt own_under_consist_iff.1 h)).trans ((if_neg (Nat.not_lt.2 hg)).trans (if_neg ?_))
  rw [funcPermitted_iff.2 hp]
  exact Bool.false_ne_true

end FuncRequest

/-- The switches a FUNC leaves (R98). -/
def switchesWritten (g mask values : Nat) (src : Source) (s : State) : List Switch :=
  s.switches.mapIdx (fun i sw =>
    if i / 8 = g ∧ mask / 2 ^ (i % 8) % 2 = 1 then sw.write (values / 2 ^ (i % 8) % 2 == 1) src else sw)

theorem switchesWritten_get {g mask values : Nat} {src : Source} {s : State} {i : Nat} {sw : Switch}
    (h : s.switches[i]? = some sw) : (switchesWritten g mask values src s)[i]? = some
      (if i / 8 = g ∧ mask.testBit (i % 8) = true then
        { on := values.testBit (i % 8), lastSetter := some (.source src), expiry := none } else sw) := by
  unfold switchesWritten Switch.write
  rw [List.getElem?_mapIdx, h, Nat.testBit_eq_decide_div_mod_eq, Nat.testBit_eq_decide_div_mod_eq]
  simp only [Option.map_some, decide_eq_true_eq]
  rfl

/-- A permitted FUNC writes its switches, gives the events of the changed features and is activity (R98, R102, R152). -/
theorem funcTaken_eq (g mask values : Nat) (src : Source) (s : State) : funcTaken g mask values src s =
    activity (featureEvents s { s with switches := switchesWritten g mask values src s }) := rfl

/-- Settles O26: outside the loads a FUNC changes its switches and, with a brake newly asked, the step; the Sound Engine
hears the cues and then the waking. -/
theorem funcSetsTheNamedSwitches : Obligations.FuncSetsTheNamedSwitches := by
  unfold Obligations.FuncSetsTheNamedSwitches
  intro s f m src t hd hk hlen
  refine ⟨fun hw => ?wrong, fun hw hg => ?range, fun hw hg hno => ?stranger, fun hw hg hfree => ?permitted⟩
  case wrong => rw [exec_func_dispatched hd hk hlen, funcRequest_wrongAddress hw, plain_mk]
  case range => rw [exec_func_dispatched hd hk hlen, funcRequest_range hw hg, plain_mk]
  case stranger => rw [exec_func_dispatched hd hk hlen, funcRequest_notHolder hw hg hno, plain_mk]
  case permitted =>
    rw [exec_func_dispatched hd hk hlen, funcRequest_permitted hw hg hfree, plain_mk, funcTaken_eq]
    have hmask : narrowedMask m (byteAt f.payload 0) (byteAt f.payload 1) t =
        if m = .consist then byteAt f.payload 1 &&& set8 t (6 + byteAt f.payload 0) else byteAt f.payload 1 := rfl
    rw [hmask]
    generalize (if m = .consist then byteAt f.payload 1 &&& set8 t (6 + byteAt f.payload 0) else byteAt f.payload 1) = mask
    generalize hsw : switchesWritten (byteAt f.payload 0) mask (byteAt f.payload 2) src t = sws
    have hview : (activity (featureEvents t { t with switches := sws })).offLoads =
        (braked t { t with switches := sws }).offLoads := (activity_offLoads _).trans (featureEvents_offLoads t _)
    have hbraked : (braked t { t with switches := sws }).offLoads =
        { t.offLoads with
          switches := sws
          demand := { t.demand with
            step := if asked t 42 = false ∧ asked { t with switches := sws } 42 = true then 0 else t.demand.step } } := by
      unfold braked
      split <;> rfl
    have hasked : asked (activity (featureEvents t { t with switches := sws })) = asked { t with switches := sws } :=
      (asked_of_offLoads (activity_offLoads _)).trans (asked_featureEvents t _)
    rw [hbraked] at hview
    have hswitches : (activity (featureEvents t { t with switches := sws })).switches = sws :=
      (congrArg State.switches hview :)
    have hdemand : (activity (featureEvents t { t with switches := sws })).demand = { t.demand with
        step := if asked t 42 = false ∧ asked { t with switches := sws } 42 = true then 0 else t.demand.step } :=
      (congrArg State.demand hview :)
    refine ⟨_, rfl, ?_, fun i sw hi => ?_, fun hsmoke hawake => ?_, ?_, ?_, ?_, (congrArg State.drive hview :),
      (congrArg State.groups hview :), (congrArg State.throttles hview :), (congrArg State.holds hview :), ?_,
      (congrArg State.motor hview :), (congrArg State.settings hview :), (congrArg State.outputs hview :),
      (congrArg State.flash hview :), (congrArg State.voiceRam hview :)⟩
    · rw [hswitches, ← hsw]
      exact List.length_mapIdx
    · rw [hswitches, ← hsw]
      exact switchesWritten_get hi
    · rw [hasked] at hsmoke
      rw [activity_awake (by rwa [featureEvents_supply])]
      exact featureEvents_smoke hsmoke
    · rw [activity_supply, featureEvents_supply]
      have hnow : (featureEvents t { t with switches := sws }).partTime = t.partTime :=
        (congrArg State.partTime ((featureEvents_offLoads t { t with switches := sws }).trans hbraked) :)
      rw [hnow]
    · rw [hdemand, hasked]
    · rw [hswitches]
      exact (featureEvents_hears t _).activity.sound_port
    · rw [hdemand]

end Sys2Proof.Machine
end

section
/-! The consist record (R41, R74, R75, R78), and O27. -/

namespace Sys2Proof.Machine

/-! ### Bytes of the settings -/

theorem byteAt_overlay {base bs : List Byte} {start : Nat} (h : start + bs.length ≤ base.length) (k : Nat) :
    byteAt (overlay base start bs) k =
      if start ≤ k ∧ k < start + bs.length then byteAt bs (k - start) else byteAt base k := by
  unfold byteAt
  rw [overlay_getD base bs start k 0 h]
  exact apply_ite BitVec.toNat _ _ _

theorem byteAt_lt (bs : List Byte) (k : Nat) : byteAt bs k < 256 := (bs.getD k 0).isLt

theorem byteAt_drop (bs : List Byte) (n k : Nat) : byteAt (bs.drop n) k = byteAt bs (n + k) := by
  unfold byteAt
  rw [List.getD_eq_getElem?_getD, List.getD_eq_getElem?_getD, List.getElem?_drop]

theorem byteAt_take {n k : Nat} (h : k < n) (bs : List Byte) : byteAt (bs.take n) k = byteAt bs k := by
  unfold byteAt
  rw [List.getD_eq_getElem?_getD, List.getD_eq_getElem?_getD, List.getElem?_take_of_lt h]

theorem byteAt_cons_succ (b : Byte) (bs : List Byte) (k : Nat) : byteAt (b :: bs) (k + 1) = byteAt bs k := rfl

theorem byteAt_replicate_zero (n k : Nat) : byteAt (List.replicate n 0) k = 0 := by
  unfold byteAt
  rw [List.getD_eq_getElem?_getD, List.getElem?_replicate]
  split <;> rfl

/-! ### The BEACON entry under a new record (R41, R78) -/

theorem findHold_removeHold (src : HoldSource) (s : State) : findHold (removeHold src s) src = none := by
  unfold findHold removeHold
  refine List.find?_eq_none.2 fun x hx hsame => ?_
  have hne := (List.mem_filter.1 hx).2
  rw [bne, hsame] at hne
  cases hne

theorem isMember_iff_not_own (s : State) : (!originTaken s .own) = true ↔ IsMember s := by
  rw [Bool.not_eq_true', ← Bool.not_eq_true, Steer.originTaken_own, not_not]

theorem beaconGone_own {old s : State} {h : Hold} (ho : h.origin = some .own) :
    Steer.beaconGone old s h = true ↔ IsMember s := by
  unfold Steer.beaconGone
  rw [ho]
  exact isMember_iff_not_own s

theorem beaconGone_consist {old s : State} {h : Hold} (ho : h.origin = some .consist) :
    Steer.beaconGone old s h = true ↔ ¬ (IsMember s ∧ consistAddress s = consistAddress old) := by
  unfold Steer.beaconGone
  rw [ho]
  dsimp only
  rw [Bool.or_eq_true, Bool.not_eq_true', ← Bool.not_eq_true, Steer.originTaken_consist, bne_iff_ne, not_and_or]

theorem beaconKept_find {old s : State} {h : Hold} (hf : findHold s .beacon = some h) :
    findHold (Steer.beaconKept old s) .beacon = if Steer.beaconGone old s h = true then none else some h := by
  unfold Steer.beaconKept
  rw [hf]
  dsimp only
  split
  · exact findHold_removeHold _ s
  · exact hf

theorem beaconKept_absent {old s : State} (hf : findHold s .beacon = none) : Steer.beaconKept old s = s := by
  unfold Steer.beaconKept
  rw [hf]

theorem beaconKept_others (old s : State) : otherHolds (Steer.beaconKept old s).holds = otherHolds s.holds := by
  unfold Steer.beaconKept
  split
  · split
    · exact otherHolds_otherHolds s.holds
    · rfl
  · rfl

/-- What a new record does to the hold list and to the direction (R27, R41, R78). -/
structure ConsistTold (old w u : State) : Prop where
  settings : u.settings = w.settings
  switches : u.switches = w.switches
  holds : u.holds = (Steer.beaconKept old w).holds
  same : consistReversed w = consistReversed old → u.demand = w.demand ∧ u.motor = w.motor
  turned : consistReversed w ≠ consistReversed old →
    u.demand.commanded = w.demand.commanded ∧ u.demand.lastWriter = w.demand.lastWriter ∧
    (u.demand.pending = true ↔ wantedDir u ≠ u.demand.applied) ∧
    u.demand.applied = if w.pub.R = 0 ∧ w.pub.Mf < 20 then wantedDir u else w.demand.applied

theorem consistTold_told (old w : State) : ConsistTold old w (consistTold old w) := by
  rw [Steer.consistTold_eq]
  obtain ⟨l, hl⟩ := Steer.beaconKept_frame old w
  have hholds : (Steer.beaconKept old w).holds = l := (congrArg State.holds hl :)
  rw [hl]
  split
  next hrev => exact ⟨rfl, rfl, hholds.symm, fun _ => ⟨rfl, rfl⟩, fun hn => absurd hrev hn⟩
  next hrev =>
    have hr := reconcile_reconciled (dirAgrees old) { w with holds := l }
    have hwanted := hr.wantedDir_eq
    refine ⟨hr.settings, hr.switches, hr.holds.trans hholds.symm, fun h => absurd h hrev, fun _ => ⟨hr.commanded,
      hr.lastWriter, ?_, ?_⟩⟩
    · rw [hwanted]
      exact hr.pending
    · rw [hwanted]
      exact hr.applied

/-! ### The row CONSIST (R75) -/

theorem exec_consist_dispatched {s t : State} {f : Frame} {m : Mark} {src : Source} (h : Dispatched s f m src t)
    (hk : f.kind = 7) (hlen : 7 ≤ f.payload.length) : exec .consist s = .next (replied s f m src (plain
      (consistRequest (byteAt f.payload 0) (byteAt f.payload 1) (byteAt f.payload 2) (f.payload.drop 3) src t))) := by
  have hrow : exec .consist s = .next (takeRequest (ofKind 7) (withPayload 7 actConsist) s) := rfl
  rw [hrow, takeRequest_dispatched h _ _ (ofKind_of_kind_eq hk), withPayload_long hlen]
  rfl

section ConsistRequest

variable {addr pos flags : Nat} {mask : List Byte} {src : Source} {s : State}

/-- The state in which an accepted CONSIST has installed its record (R75). -/
def consistWritten (addr pos flags : Nat) (mask : List Byte) (s : State) : State :=
  { s with settings := overlay s.settings 3 (consistBytes addr pos flags mask), unsaved := true, changedSinceCopy := true }

theorem consistRequest_notHolder (h : ¬ (holdsDrive s src = true ∨ src = .localMaster)) :
    consistRequest addr pos flags mask src s = (.notHolder, s) := by
  refine if_pos ?_
  rw [Bool.not_eq_true', ← Bool.not_eq_true, mayControl_iff]
  exact h

theorem mayControl_not_refused (h : holdsDrive s src = true ∨ src = .localMaster) : ¬ (!mayControl s src) = true := by
  rw [(mayControl_iff s src).2 h]
  exact Bool.false_ne_true

theorem consistRequest_notStopped (h : holdsDrive s src = true ∨ src = .localMaster) (hr : s.pub.R ≠ 0) :
    consistRequest addr pos flags mask src s = (.notStopped, s) :=
  (if_neg (mayControl_not_refused h)).trans (if_pos hr)

theorem consistRequest_range (h : holdsDrive s src = true ∨ src = .localMaster) (hr : s.pub.R = 0)
    (hbad : 127 < addr ∨ 3 < pos ∨ (1 ≤ addr ∧ pos = 0)) : consistRequest addr pos flags mask src s = (.range, s) :=
  (if_neg (mayControl_not_refused h)).trans ((if_neg (not_not_intro hr)).trans (if_pos hbad))

theorem consistRequest_accepted (h : holdsDrive s src = true ∨ src = .localMaster) (hr : s.pub.R = 0)
    (hbad : ¬ (127 < addr ∨ 3 < pos ∨ (1 ≤ addr ∧ pos = 0))) : consistRequest addr pos flags mask src s =
      (.ok, consistTold s (consistWritten addr pos flags (mask.take 4) s)) :=
  (if_neg (mayControl_not_refused h)).trans ((if_neg (not_not_intro hr)).trans (if_neg hbad))

end ConsistRequest

theorem consistBytes_length {addr pos flags : Nat} {mask : List Byte} (h : mask.length = 4) :
    (consistBytes addr pos flags mask).length = 7 := by
  unfold consistBytes
  split
  · exact List.length_replicate
  · rw [List.length_append, h]
    rfl

/-- The bytes of a record in force (R74, R75). -/
theorem byteAt_consistBytes_set {addr pos flags : Nat} {mask : List Byte} (ha : addr ≠ 0) (ha' : addr ≤ 127)
    (hp : pos ≤ 3) : byteAt (consistBytes addr pos flags mask) 0 = addr ∧ byteAt (consistBytes addr pos flags mask) 1 = pos ∧
      byteAt (consistBytes addr pos flags mask) 2 = flags % 2 ∧
      ∀ k, byteAt (consistBytes addr pos flags mask) (3 + k) = byteAt mask k := by
  have hof (n : Nat) (hn : n < 256) (i : Nat) (bs : List Byte) (hi : bs[i]? = some (BitVec.ofNat 8 n)) :
      byteAt bs i = n := by
    unfold byteAt
    rw [List.getD_eq_getElem?_getD, hi]
    exact Nat.mod_eq_of_lt hn
  unfold consistBytes
  rw [if_neg ha]
  refine ⟨hof addr (by omega) 0 _ rfl, hof pos (by omega) 1 _ rfl, hof (flags % 2) (by omega) 2 _ rfl, fun k => ?_⟩
  rw [Nat.add_comm]
  rfl

theorem byteAt_consistBytes_clear (pos flags : Nat) (mask : List Byte) (k : Nat) :
    byteAt (consistBytes 0 pos flags mask) k = 0 := byteAt_replicate_zero 7 k

/-- Settles O27: an accepted CONSIST writes its seven bytes, and the Motion Controller is told of the record
(`consistTold_told`). -/
theorem consistInstallsTheRecord : Obligations.ConsistInstallsTheRecord := by
  unfold Obligations.ConsistInstallsTheRecord
  intro s f m src t hd hk hlen hset
  refine ⟨fun hno => ?stranger, fun hmay hr => ?moving, fun hmay hr hbad => ?range, fun hmay hr hbad => ?accepted⟩
  case stranger => rw [exec_consist_dispatched hd hk hlen, consistRequest_notHolder hno, plain_mk]
  case moving => rw [exec_consist_dispatched hd hk hlen, consistRequest_notStopped hmay hr, plain_mk]
  case range => rw [exec_consist_dispatched hd hk hlen, consistRequest_range hmay hr hbad, plain_mk]
  case accepted =>
    rw [exec_consist_dispatched hd hk hlen, consistRequest_accepted hmay hr hbad, plain_mk]
    have hmask : ((f.payload.drop 3).take 4).length = 4 := by
      rw [List.length_take, List.length_drop]
      omega
    have hbits (k : Nat) (hk4 : k < 4) : byteAt ((f.payload.drop 3).take 4) k = byteAt f.payload (3 + k) := by
      rw [byteAt_take hk4, byteAt_drop]
    generalize byteAt f.payload 0 = addr at hbad ⊢
    generalize byteAt f.payload 1 = pos at hbad ⊢
    generalize byteAt f.payload 2 = flags
    generalize (f.payload.drop 3).take 4 = mask at hmask hbits ⊢
    have hbytes := consistBytes_length (addr := addr) (pos := pos) (flags := flags) hmask
    have hfits : 3 + (consistBytes addr pos flags mask).length ≤ t.settings.length := by omega
    have htold := consistTold_told t (consistWritten addr pos flags mask t)
    have hview := consistTold_offLoco t (consistWritten addr pos flags mask t)
    generalize consistTold t (consistWritten addr pos flags mask t) = u at htold hview ⊢
    have hbyte (k : Nat) : set8 u k = if 3 ≤ k ∧ k < 10 then byteAt (consistBytes addr pos flags mask) (k - 3)
        else set8 t k := by
      unfold set8
      rw [htold.settings]
      refine (byteAt_overlay hfits k).trans ?_
      rw [hbytes]
    have hinside (k : Nat) (hk7 : k < 7) : set8 u (3 + k) = byteAt (consistBytes addr pos flags mask) k := by
      rw [hbyte, if_pos ⟨Nat.le_add_right 3 k, by omega⟩, Nat.add_sub_cancel_left]
    have hsettings : u.settings = (consistWritten addr pos flags mask t).settings := htold.settings
    have hmember : IsMember u = IsMember (consistWritten addr pos flags mask t) := isMember_of_settings hsettings
    have haddress : consistAddress u = consistAddress (consistWritten addr pos flags mask t) := by
      unfold consistAddress set8
      rw [hsettings]
    have hreversed : consistReversed u = consistReversed (consistWritten addr pos flags mask t) :=
      consistReversed_of_settings hsettings
    have hclear : addr = 0 → ∀ k, k < 7 → set8 u (3 + k) = 0 := by
      rintro rfl k hk7
      rw [hinside k hk7, byteAt_consistBytes_clear]
    have hrecord : addr ≠ 0 → set8 u 3 = addr ∧ set8 u 4 = pos ∧ set8 u 5 = flags % 2 ∧
        ∀ k, k < 4 → set8 u (6 + k) = byteAt f.payload (3 + k) := by
      intro ha
      obtain ⟨h0, h1, h2, h3⟩ := byteAt_consistBytes_set (flags := flags) (mask := mask) ha (by omega) (by omega : pos ≤ 3)
      refine ⟨(hinside 0 (by omega)).trans h0, (hinside 1 (by omega)).trans h1, (hinside 2 (by omega)).trans h2,
        fun k hk4 => ?_⟩
      have h6 : 6 + k = 3 + (3 + k) := by omega
      rw [h6, hinside (3 + k) (by omega), h3, hbits k hk4]
    have hfound : findHold u .beacon = findHold (Steer.beaconKept t (consistWritten addr pos flags mask t)) .beacon := by
      unfold findHold
      rw [htold.holds]
    refine ⟨u, rfl, ?_, ?_, fun ha => (hrecord ha).2, hclear, fun k hk' => ?_, fun hrev => ?_, fun hrev => ?_, ?_,
      fun hnone => ?_, fun h hh => ⟨fun ho => ?_, fun ho => ?_⟩, (congrArg State.unsaved hview :),
      (congrArg State.drive hview :), (congrArg State.groups hview :), (congrArg State.throttles hview :), htold.switches,
      (congrArg State.flash hview :), (congrArg State.voiceRam hview :)⟩
    · unfold consistSet consistAddress consistPosition
      by_cases ha : addr = 0
      · have h3 : set8 u 3 = 0 := hclear ha 0 (by omega)
        rw [h3, ha]
        rfl
      · obtain ⟨h3, h4, -⟩ := hrecord ha
        have hpos : positionOf pos ≠ .none := by
          have : pos = 1 ∨ pos = 2 ∨ pos = 3 := by omega
          rcases this with rfl | rfl | rfl <;> decide
        rw [h3, h4, bne_iff_ne.2 hpos]
        simp only [Bool.and_true, ← Bool.decide_and]
        exact decide_eq_decide.2 (by omega)
    · by_cases ha : addr = 0
      · exact (hclear ha 0 (by omega)).trans ha.symm
      · exact (hrecord ha).1
    · rw [hbyte, if_neg (by omega)]
    · exact htold.same (hreversed ▸ hrev)
    · obtain ⟨hcommanded, hwriter, hpending, happlied⟩ := htold.turned (hreversed ▸ hrev)
      refine ⟨hpending, hcommanded, hwriter, happlied.trans (if_congr ?_ rfl rfl)⟩
      exact and_iff_right hr
    · rw [htold.holds]
      exact beaconKept_others t _
    · rw [hfound, beaconKept_absent (s := consistWritten addr pos flags mask t) hnone]
      exact hnone
    · rw [hfound, beaconKept_find (s := consistWritten addr pos flags mask t) hh]
      exact if_congr ((beaconGone_own ho).trans (iff_of_eq hmember.symm)) rfl rfl
    · rw [hfound, beaconKept_find (s := consistWritten addr pos flags mask t) hh, if_congr (beaconGone_consist ho) rfl rfl,
        ite_not]
      exact if_congr (by rw [hmember, haddress]) rfl rfl

end Sys2Proof.Machine
end

section
/-! The CRC of a frame (R80): each byte acts on the register as a one-to-one map; O28. -/

namespace Sys2Proof.Machine

/-! ### One bit, one byte, a run of bytes -/

theorem getLsbD_crcBit_zero (c : BitVec 16) : (crcBit c).getLsbD 0 = c.msb := by
  unfold crcBit
  cases h : c.msb <;> simp

theorem shiftLeft_one_injective {a b : BitVec 16} (h : a <<< 1 = b <<< 1) (hm : a.msb = b.msb) : a = b := by
  refine BitVec.eq_of_getLsbD_eq fun i hi => ?_
  by_cases h15 : i = 15
  · subst h15
    exact hm
  · have hbit := congrArg (fun x : BitVec 16 => x.getLsbD (i + 1)) h
    have hlt : i + 1 < 16 := by omega
    simpa only [BitVec.getLsbD_shiftLeft, hlt, decide_true, Bool.true_and, Nat.not_lt.2 (Nat.le_add_left 1 i),
      decide_false, Bool.not_false, Nat.add_sub_cancel] using hbit

/-- The register's top bit comes out as the lowest one, so no two registers agree after a bit. -/
theorem crcBit_injective : Function.Injective crcBit := by
  intro a b h
  have hm : a.msb = b.msb := by
    rw [← getLsbD_crcBit_zero, ← getLsbD_crcBit_zero, h]
  unfold crcBit at h
  rw [hm] at h
  refine shiftLeft_one_injective ?_ hm
  split at h
  · exact (BitVec.xor_left_inj _).1 h
  · exact h

/-- The eight bits of a byte. -/
def crcEight (x : BitVec 16) : BitVec 16 :=
  crcBit (crcBit (crcBit (crcBit (crcBit (crcBit (crcBit (crcBit x)))))))

theorem crcEight_injective : Function.Injective crcEight := fun _ _ h =>
  crcBit_injective (crcBit_injective (crcBit_injective (crcBit_injective
    (crcBit_injective (crcBit_injective (crcBit_injective (crcBit_injective h)))))))

theorem crcByte_eq (c : BitVec 16) (b : Byte) : crcByte c b = crcEight (c ^^^ (b.setWidth 16 <<< 8)) := rfl

theorem crcByte_injective_register (b : Byte) : Function.Injective (fun c => crcByte c b) := fun _ _ h =>
  (BitVec.xor_left_inj _).1 (crcEight_injective h)

/-- Two bytes that leave the same register from the same register are one byte. -/
theorem crcByte_injective_byte (c : BitVec 16) : Function.Injective (crcByte c) := by
  intro a b h
  have hshift : a.setWidth 16 <<< 8 = b.setWidth 16 <<< 8 := (BitVec.xor_right_inj c).1 (crcEight_injective h)
  refine BitVec.eq_of_getLsbD_eq fun i hi => ?_
  have hbit := congrArg (fun x : BitVec 16 => x.getLsbD (i + 8)) hshift
  have hlt : i + 8 < 16 := by omega
  have hlt' : i < 16 := by omega
  simpa only [BitVec.getLsbD_shiftLeft, BitVec.getLsbD_setWidth, hlt, hlt', decide_true, Bool.true_and,
    Nat.not_lt.2 (Nat.le_add_left 8 i), decide_false, Bool.not_false, Nat.add_sub_cancel] using hbit

theorem foldl_crcByte_injective (bs : List Byte) : Function.Injective (fun c => bs.foldl crcByte c) := by
  induction bs with
  | nil => exact fun _ _ h => h
  | cons b bs ih => exact fun _ _ h => crcByte_injective_register b (ih h)

/-- One altered byte alters the CRC, wherever it stands. -/
theorem crc_altered {before after : List Byte} {b c : Byte} (h : b ≠ c) :
    crc (before ++ c :: after) ≠ crc (before ++ b :: after) := by
  unfold crc
  rw [List.foldl_append, List.foldl_append, List.foldl_cons, List.foldl_cons]
  exact fun heq => h (crcByte_injective_byte _ (foldl_crcByte_injective after heq)).symm

/-! ### The CRC field -/

theorem crcBytes_length (bs : List Byte) : (crcBytes bs).length = 2 := rfl

theorem crcBytes_injective {bs bs' : List Byte} (h : crcBytes bs = crcBytes bs') : crc bs = crc bs' := by
  unfold crcBytes at h
  obtain ⟨hhigh, hlow⟩ : (crc bs).extractLsb' 8 8 = (crc bs').extractLsb' 8 8 ∧
      (crc bs).extractLsb' 0 8 = (crc bs').extractLsb' 0 8 := by simpa using h
  refine BitVec.eq_of_getLsbD_eq fun i hi => ?_
  by_cases h8 : i < 8
  · have hbit := congrArg (fun x : BitVec 8 => x.getLsbD i) hlow
    simpa only [BitVec.getLsbD_extractLsb', h8, decide_true, Bool.true_and, Nat.zero_add] using hbit
  · have hbit := congrArg (fun x : BitVec 8 => x.getLsbD (i - 8)) hhigh
    have hlt : i - 8 < 8 := by omega
    have hsum : 8 + (i - 8) = i := by omega
    simpa only [BitVec.getLsbD_extractLsb', hlt, decide_true, Bool.true_and, hsum] using hbit

/-- A body is judged by the CRC of what stands before its last two bytes. -/
theorem crcOk_append (bs field : List Byte) (q : Byte) (h : field.length = 2) :
    Frame.crcOk { body := bs ++ field, quality := q } = (crcBytes bs == field) := by
  have hlen : (bs ++ field).length - 2 = bs.length := by
    rw [List.length_append, h, Nat.add_sub_cancel]
  unfold Frame.crcOk
  rw [hlen, List.take_left, List.drop_left]

/-- Settles O28: a sealed body carries its own CRC, and one altered byte alters it (`crc_altered`). -/
theorem crcCatchesOneAlteredByte : Obligations.CrcCatchesOneAlteredByte := by
  unfold Obligations.CrcCatchesOneAlteredByte
  refine ⟨fun bs q => ?_, fun before after b c q h => ?_⟩
  · unfold sealBody
    rw [crcOk_append bs (crcBytes bs) q (crcBytes_length bs), beq_self_eq_true]
  · rw [crcOk_append _ (crcBytes _) q (crcBytes_length _), beq_eq_false_iff_ne]
    exact fun heq => crc_altered h (crcBytes_injective heq)

end Sys2Proof.Machine
end

section
/-! The byte receivers, the intake queues and the checks on a taken frame (R79 to R84); O29 and O30. -/

namespace Sys2Proof.Machine

theorem exec_byteArrival (which : Port) (b : Byte) (s : State) :
    exec (.byteArrival which b) s = .next (setPort which ((portState s which).takeByte which b) s) := rfl

theorem exec_byteGapTimeout (which : Port) (s : State) :
    exec (.byteGapTimeout which) s = .next (setPort which (portState s which).gapTimeout s) := rfl

theorem setPort_portState (which : Port) (s : State) : setPort which (portState s which) s = s := by
  cases which <;> rfl

/-! ### One byte at a receiver (R79) -/

section TakeByte

variable {which : Port} {p : PortState} {b : Byte}

theorem gapTimeout_of_hunt (h : p.rx.state = .hunt) : p.gapTimeout = p := by
  unfold PortState.gapTimeout PortState.gapExceeded
  rw [h]
  rfl

theorem gapTimeout_of_short (h : p.rx.gap ≤ 5) : p.gapTimeout = p := by
  unfold PortState.gapTimeout PortState.gapExceeded
  rw [decide_eq_false (Nat.not_lt.2 h), Bool.and_false]
  rfl

theorem gapTimeout_of_long (hs : p.rx.state ≠ .hunt) (h : 5 < p.rx.gap) : p.gapTimeout = p.framingError := by
  unfold PortState.gapTimeout PortState.gapExceeded
  rw [decide_eq_true h, bne_iff_ne.2 hs]
  rfl

theorem takeByte_hunt (h : p.rx.state = .hunt) : p.takeByte which b =
    if b = 0x7E#8 then { p with rx := { state := .length, len := 0, body := [], gap := 0 } } else p := by
  unfold PortState.takeByte
  rw [gapTimeout_of_hunt h]
  dsimp only
  rw [h]

/-- A byte after too long a gap finds the receiver in HUNT, its partial frame discarded. -/
theorem takeByte_late (hs : p.rx.state ≠ .hunt) (h : 5 < p.rx.gap) :
    p.takeByte which b = p.framingError.takeByte which b := by
  have hhunt : p.framingError.rx.state = .hunt := rfl
  unfold PortState.takeByte
  rw [gapTimeout_of_long hs h, gapTimeout_of_hunt hhunt]

theorem takeByte_length (h : p.rx.state = .length) (hg : p.rx.gap ≤ 5) : p.takeByte which b =
    if 12 ≤ b.toNat ∧ b.toNat ≤ 36 then { p with rx := { state := .body, len := b.toNat, body := [], gap := 0 } }
    else p.framingError := by
  unfold PortState.takeByte
  rw [gapTimeout_of_short hg]
  dsimp only
  rw [h]

theorem takeByte_body (h : p.rx.state = .body) (hg : p.rx.gap ≤ 5) : p.takeByte which b = p.bodyByte which b := by
  unfold PortState.takeByte
  rw [gapTimeout_of_short hg]
  dsimp only
  rw [h]

theorem takeByte_quality (h : p.rx.state = .quality) (hg : p.rx.gap ≤ 5) :
    p.takeByte which b = p.complete 8 { body := p.rx.body, quality := b } := by
  unfold PortState.takeByte
  rw [gapTimeout_of_short hg]
  dsimp only
  rw [h]

theorem bodyByte_inside (h : p.rx.body.length + 1 < p.rx.len) :
    p.bodyByte which b = { p with rx := { p.rx with body := p.rx.body ++ [b], gap := 0 } } := by
  refine if_pos ?_
  rw [List.length_append]
  exact h

theorem bodyByte_last_radio (h : p.rx.body.length + 1 = p.rx.len) :
    p.bodyByte .radio b = { p with rx := { p.rx with state := .quality, body := p.rx.body ++ [b], gap := 0 } } := by
  refine if_neg ?_
  rw [List.length_append, List.length_singleton, h]
  exact Nat.lt_irrefl _

theorem bodyByte_last_local (h : p.rx.body.length + 1 = p.rx.len) :
    p.bodyByte .localLine b = p.complete 4 { body := p.rx.body ++ [b], quality := 0 } := by
  refine if_neg ?_
  rw [List.length_append, List.length_singleton, h]
  exact Nat.lt_irrefl _

theorem complete_enters {cap : Nat} {f : Frame} (h : p.intake.length < cap) : p.complete cap f =
    { p with rx := hunting, intake := p.intake ++ [f],
             counters := { p.counters with received := bump16 p.counters.received } } := if_pos h

theorem complete_overflows {cap : Nat} {f : Frame} (h : cap ≤ p.intake.length) : p.complete cap f =
    { p with rx := hunting, counters := { p.counters with overflows := bump16 p.counters.overflows } } :=
  if_neg (Nat.not_lt.2 h)

end TakeByte

/-- Settles O29, by the state of the receiver. -/
theorem receiverTakesEachByte : Obligations.ReceiverTakesEachByte := by
  unfold Obligations.ReceiverTakesEachByte
  refine ⟨fun s which b => ?_, fun s which => ⟨fun hs hg => ?_, fun h => ?_⟩⟩
  · rw [exec_byteArrival]
    refine ⟨fun hs => ⟨fun hb => ?_, fun hb => ?_⟩, fun hs hg => ⟨fun hb => ?_, fun hb => ?_⟩,
      fun hs hg => ⟨fun hb => ?_, fun hb => ?_⟩,
      fun hs hg => ⟨fun hl => ?_, fun hl hw => ?_, fun hl hw => ⟨fun hc => ?_, fun hc => ?_⟩⟩,
      fun hs hg hw => ⟨fun hc => ?_, fun hc => ?_⟩⟩
    · rw [takeByte_hunt hs, if_pos hb]
    · rw [takeByte_hunt hs, if_neg hb, setPort_portState]
    · rw [takeByte_late hs hg, takeByte_hunt rfl, if_pos hb]
      rfl
    · rw [takeByte_late hs hg, takeByte_hunt rfl, if_neg hb]
      rfl
    · rw [takeByte_length hs hg, if_pos hb]
    · rw [takeByte_length hs hg, if_neg (by omega)]
      rfl
    · rw [takeByte_body hs hg, bodyByte_inside hl]
    · subst hw
      rw [takeByte_body hs hg, bodyByte_last_radio hl]
    · subst hw
      rw [takeByte_body hs hg, bodyByte_last_local hl, complete_enters hc]
      rfl
    · subst hw
      rw [takeByte_body hs hg, bodyByte_last_local hl, complete_overflows hc]
      rfl
    · rw [takeByte_quality hs hg, complete_enters hc]
      rfl
    · rw [takeByte_quality hs hg, complete_overflows hc]
      rfl
  · rw [exec_byteGapTimeout, gapTimeout_of_long hs hg]
    rfl
  · have hnone : (portState s which).gapTimeout = portState s which := h.elim gapTimeout_of_hunt gapTimeout_of_short
    rw [exec_byteGapTimeout, hnone, setPort_portState]

/-! ### A whole frame (R79, R81) -/

/-- A receiver inside a body of `n` bytes, of which it has taken some (R79). -/
def PortState.inBody (n : Nat) (body : List Byte) (p : PortState) : PortState :=
  { p with rx := { state := .body, len := n, body := body, gap := 0 } }

theorem takeByte_inBody (which : Port) (n : Nat) (body : List Byte) (p : PortState) (b : Byte) :
    (p.inBody n body).takeByte which b = (p.inBody n body).bodyByte which b :=
  takeByte_body (p := p.inBody n body) rfl (Nat.zero_le 5)

/-- The bytes inside a body are kept one after the other. -/
theorem foldl_takeByte_inside (which : Port) {n : Nat} (bs body : List Byte) (p : PortState)
    (hl : body.length + bs.length < n) :
    bs.foldl (PortState.takeByte which) (p.inBody n body) = p.inBody n (body ++ bs) := by
  induction bs generalizing body with
  | nil => rw [List.append_nil, List.foldl_nil]
  | cons b bs ih =>
    rw [List.length_cons] at hl
    have hkept : (p.inBody n body).takeByte which b = p.inBody n (body ++ [b]) :=
      (takeByte_inBody which n body p b).trans (bodyByte_inside (p := p.inBody n body) (by change body.length + 1 < n; omega))
    rw [List.foldl_cons, hkept, ih (body ++ [b]) (by rw [List.length_append, List.length_singleton]; omega),
      List.append_assoc, List.singleton_append]

/-- The start and the length of a frame bring a receiver from HUNT into its body. -/
theorem foldl_takeByte_head {which : Port} {p : PortState} {n : Nat} (hs : p.rx.state = .hunt) (h12 : 12 ≤ n) (h36 : n ≤ 36) :
    [0x7E#8, BitVec.ofNat 8 n].foldl (PortState.takeByte which) p = p.inBody n [] := by
  have hlen : (BitVec.ofNat 8 n).toNat = n := (BitVec.toNat_ofNat _ 8).trans (Nat.mod_eq_of_lt (by omega))
  have hbegun := takeByte_length (which := which) (b := BitVec.ofNat 8 n)
    (p := { p with rx := { state := .length, len := 0, body := [], gap := 0 } }) rfl (Nat.zero_le 5)
  rw [hlen, if_pos ⟨h12, h36⟩] at hbegun
  rw [List.foldl_cons, List.foldl_cons, List.foldl_nil, takeByte_hunt hs, if_pos rfl]
  exact hbegun

/-- The body of a frame that a receiver in HUNT is given, up to its last byte. -/
theorem foldl_takeByte_body {which : Port} {p : PortState} {bs : List Byte} {last : Byte} (hs : p.rx.state = .hunt)
    (h12 : 12 ≤ (bs ++ [last]).length) (h36 : (bs ++ [last]).length ≤ 36) :
    (frameBytes (bs ++ [last])).foldl (PortState.takeByte which) p =
      (p.inBody (bs ++ [last]).length bs).bodyByte which last := by
  have hbody : ([] : List Byte).length + bs.length < (bs ++ [last]).length := by
    rw [List.length_append, List.length_singleton, List.length_nil]
    omega
  unfold frameBytes
  rw [List.foldl_append, foldl_takeByte_head hs h12 h36, List.foldl_append, foldl_takeByte_inside which bs [] p hbody,
    List.nil_append]
  exact takeByte_inBody which _ bs p last

/-- A whole frame completes at a receiver in HUNT. -/
theorem foldl_takeByte_frame {which : Port} {p : PortState} {body : List Byte} {q : Byte} (hs : p.rx.state = .hunt)
    (h12 : 12 ≤ body.length) (h36 : body.length ≤ 36) :
    ∃ rx, (lineBytes which body q).foldl (PortState.takeByte which) p = PortState.complete (if which = .radio then 8 else 4)
      { body := body, quality := if which = .radio then q else 0 } { p with rx := rx } := by
  obtain ⟨bs, last, rfl⟩ : ∃ bs last, body = bs ++ [last] :=
    ⟨body.dropLast, body.getLast (List.ne_nil_of_length_pos (by omega)), (List.dropLast_append_getLast _).symm⟩
  have hlast : (p.inBody (bs ++ [last]).length bs).rx.body.length + 1 = (p.inBody (bs ++ [last]).length bs).rx.len := by
    unfold PortState.inBody
    dsimp only
    rw [List.length_append, List.length_singleton]
  unfold lineBytes
  rw [List.foldl_append, foldl_takeByte_body hs h12 h36]
  cases which with
  | radio =>
    rw [bodyByte_last_radio hlast]
    exact ⟨_, takeByte_quality (which := .radio) (p := { p with rx :=
      { state := .quality, len := (bs ++ [last]).length, body := bs ++ [last], gap := 0 } }) rfl (Nat.zero_le 5)⟩
  | localLine =>
    rw [bodyByte_last_local hlast]
    exact ⟨_, rfl⟩

theorem exec_frameReceived {which : Port} {body : List Byte} {q : Byte} {s : State}
    (hs : (portState s which).rx.state = .hunt) (h12 : 12 ≤ body.length) (h36 : body.length ≤ 36) :
    ∃ rx, exec (.frameReceived which body q) s = .next (setPort which (PortState.complete (if which = .radio then 8 else 4)
      { body := body, quality := if which = .radio then q else 0 } { portState s which with rx := rx }) s) := by
  obtain ⟨rx, hrx⟩ := foldl_takeByte_frame (which := which) (q := q) hs h12 h36
  refine ⟨rx, ?_⟩
  rw [← hrx]
  exact congrArg _ (if_pos (by omega))

/-! ### The order of taking (R82) -/

theorem nextTaken_waits {s : State} (h : s.phase = .loading ∨ s.resetWait = true) : nextTaken s = none := if_pos h

theorem nextTaken_running {s : State} (hp : s.phase = .running) (hr : s.resetWait = false) : nextTaken s =
    match s.localLine.intake, s.radio.intake with
    | f :: _, _ => some (.localLine, f)
    | [], f :: _ => some (.radio, f)
    | [], [] => none := by
  refine if_neg ?_
  rw [hp, hr]
  exact fun h => h.elim nofun nofun

/-! ### The checks of a taken frame (R83, R84) -/

theorem exec_discardedFrame (s : State) : exec .discardedFrame s = .next (discardFrame s) := rfl

section Screen

variable {s : State} {which : Port} {f : Frame}

theorem layoutAccepted_iff : layoutAccepted s f = true ↔ set8 s 2 = 255 ∨ f.layoutId = set8 s 2 := by
  unfold layoutAccepted
  rw [Bool.or_eq_true, beq_iff_eq, beq_iff_eq]

theorem screen_crcError (h : f.crcOk = false) : screen s which f = .crcError := by
  refine if_pos ?_
  rw [h]
  rfl

theorem screen_layoutMismatch (h : f.crcOk = true) (hw : which = .radio) (hl : ¬ (set8 s 2 = 255 ∨ f.layoutId = set8 s 2)) :
    screen s which f = .layoutMismatch := by
  refine (if_neg ?_).trans (if_pos ⟨hw, ?_⟩)
  · rw [h]
    exact Bool.false_ne_true
  · rw [← Bool.not_eq_true]
    exact mt layoutAccepted_iff.1 hl

/-- Past the CRC and the layout the kind and the address decide. -/
theorem screen_accepted (h : f.crcOk = true) (hl : which = .localLine ∨ set8 s 2 = 255 ∨ f.layoutId = set8 s 2) :
    screen s which f = if 0x80 ≤ f.kind ∧ f.kind ≤ 0x82 then .unmatched
      else match matchMark s which f with | some m => .matched m | none => .unmatched := by
  refine (if_neg ?_).trans ((if_neg ?_).trans rfl)
  · rw [h]
    exact Bool.false_ne_true
  · rintro ⟨hw, hno⟩
    rcases hl with hl | hl
    · exact nomatch hw.symm.trans hl
    · exact Bool.false_ne_true (hno.symm.trans (layoutAccepted_iff.2 hl))

theorem screen_unmatched (h : f.crcOk = true) (hl : which = .localLine ∨ set8 s 2 = 255 ∨ f.layoutId = set8 s 2)
    (hm : matchMark s which f = none) : screen s which f = .unmatched := by
  rw [screen_accepted h hl, hm]
  exact ite_self _

theorem matchMark_other (h0 : f.dest ≠ 0) (hl : f.dest ≠ locoAddress s)
    (hc : consistSet s = false ∨ f.dest ≠ 0x8000 + consistAddress s) : matchMark s which f = none := by
  have hno : (consistSet s && f.dest == 0x8000 + consistAddress s) = false := by
    rcases hc with h | h
    · rw [h]
      rfl
    · rw [beq_eq_false_iff_ne.2 h, Bool.and_false]
  unfold matchMark
  rw [if_neg h0, if_neg hl, hno]
  rfl

theorem matchMark_toAll (hw : which = .radio) (h0 : f.dest = 0) (hk : f.kind ≠ 5) : matchMark s which f = none := by
  subst hw
  exact (if_pos h0).trans (if_neg hk)

end Screen

theorem discardFrame_eq {s : State} {which : Port} {f : Frame} (hn : nextTaken s = some (which, f)) : discardFrame s =
    match screen s which f with
    | .crcError => setPort which (portState (popIntake which s) which).crcFailed (popIntake which s)
    | .layoutMismatch => setPort which (portState (popIntake which s) which).layoutFailed (popIntake which s)
    | .unmatched => popIntake which s
    | .matched _ => s := by
  unfold discardFrame
  rw [hn] <;> rfl

/-- Settles O30: a whole frame byte by byte, the order of `nextTaken`, and the verdicts of `screen`. -/
theorem framesAreQueuedTakenAndDiscarded : Obligations.FramesAreQueuedTakenAndDiscarded := by
  unfold Obligations.FramesAreQueuedTakenAndDiscarded
  refine ⟨fun s which body q hs h12 h36 => ?_, fun s => ⟨nextTaken_waits, fun hp hr => ⟨fun f fs hl => ?_,
    fun f fs hl hr' => ?_, fun hl hr' => ?_⟩⟩, fun s which f hn => ⟨fun hc => ?_, fun hc hw h255 hlay => ?_,
    fun hc hl h0 hloco hcon => ?_, fun hc hl hk => ?_⟩⟩
  · obtain ⟨rx, hexec⟩ := exec_frameReceived (q := q) hs h12 h36
    rw [hexec]
    refine ⟨fun hcap => ?_, fun hcap => ?_⟩
    · rw [complete_enters (p := { portState s which with rx := rx }) hcap]
      rfl
    · rw [complete_overflows (p := { portState s which with rx := rx }) hcap]
      rfl
  · rw [nextTaken_running hp hr, hl]
    refine ⟨rfl, ?_⟩
    unfold popIntake setPort portState
    dsimp only
    rw [hl]
    rfl
  · rw [nextTaken_running hp hr, hl, hr']
    refine ⟨rfl, ?_⟩
    unfold popIntake setPort portState
    dsimp only
    rw [hr']
    rfl
  · rw [nextTaken_running hp hr, hl, hr']
  · rw [exec_discardedFrame, discardFrame_eq hn, screen_crcError hc]
    cases which <;> rfl
  · rw [exec_discardedFrame, discardFrame_eq hn, screen_layoutMismatch hc hw (not_or.2 ⟨h255, hlay⟩)]
    cases which <;> rfl
  · rw [exec_discardedFrame, discardFrame_eq hn, screen_unmatched hc hl (matchMark_other h0 hloco hcon)]
    rfl
  · have hscreen : screen s which f = .unmatched := by
      rcases hk with hk | ⟨hw, h0, hk⟩
      · rw [screen_accepted hc hl, if_pos hk]
      · exact screen_unmatched hc hl (matchMark_toAll hw h0 hk)
    rw [exec_discardedFrame, discardFrame_eq hn, hscreen]
    rfl

end Sys2Proof.Machine
end

section
/-! Requests that reach no owner, PRESENCE, and the reply queue (R86, R87, R91 to R95); O31 and O32. -/

namespace Sys2Proof.Machine

/-! ### Refusals before an owner is asked (R86) -/

theorem exec_taken_dispatched {row : Instr} {s t : State} {f : Frame} {m : Mark} {src : Source} {wanted : Frame → Bool}
    {act : Asked → State → Answer × State} (hrow : exec row s = .next (takeRequest wanted act s))
    (h : Dispatched s f m src t) (hw : wanted f = true) :
    exec row s = .next (replied s f m src (act { frame := f, mark := m, src := src } t)) := by
  rw [hrow, takeRequest_dispatched h wanted act hw]

theorem withPayload_short {len : Nat} {act : List Byte → Asked → State → Answer × State} {a : Asked} {s : State}
    (h : a.frame.payload.length < len) : withPayload len act a s = (.status .range 0, s) := if_pos h

/-- A request of a kind with too short a payload is refused with RANGE. -/
theorem exec_short_dispatched {row : Instr} {s t : State} {f : Frame} {m : Mark} {src : Source} {k len : Nat}
    {act : List Byte → Asked → State → Answer × State}
    (hrow : exec row s = .next (takeRequest (ofKind k) (withPayload len act) s)) (h : Dispatched s f m src t)
    (hk : f.kind = k) (hlen : f.payload.length < len) :
    exec row s = .next (replied s f m src (.status .range 0, t)) := by
  rw [exec_taken_dispatched hrow h (ofKind_of_kind_eq hk), withPayload_short hlen]

theorem ofQueryStatus_of_empty {f : Frame} (hk : f.kind = 0x20) (h : f.payload.length < 1) : ofQueryStatus f = true := by
  have hnil : f.payload = [] := List.length_eq_zero_iff.1 (by omega)
  unfold ofQueryStatus
  rw [hk, hnil]
  rfl

theorem actCfgData_long {p : List Byte} {a : Asked} {s : State} (h : 18 < p.length) :
    actCfgData p a s = (.status .range 0, s) := if_pos h

/-- Settles O31. -/
theorem presenceAndRefusalsChangeNothing : Obligations.PresenceAndRefusalsChangeNothing := by
  unfold Obligations.PresenceAndRefusalsChangeNothing
  refine ⟨fun s f m src t h => ⟨fun hk => ?unknown, exec_short_dispatched (act := actClaim) rfl h,
    exec_short_dispatched (act := actRelease) rfl h, exec_short_dispatched (act := actDrive) rfl h,
    exec_short_dispatched (act := actFunc) rfl h, exec_short_dispatched (act := actConsist) rfl h,
    exec_short_dispatched (act := actCfgOpen) rfl h, fun hk hlen => ?data, fun hk hlen => ?query,
    exec_short_dispatched (act := actLearn) rfl h, exec_short_dispatched (act := actOutputLocal) rfl h⟩,
    fun s f m src t h hk => ?presence⟩
  case unknown =>
    have hrow : exec .unknownKind s = .next (takeRequest (fun f => !requestKinds.contains f.kind)
      (fun _ s => (.status .range 0, s)) s) := rfl
    have hw : (!requestKinds.contains f.kind) = true := by
      rw [Bool.not_eq_true', ← Bool.not_eq_true, List.contains_iff_mem]
      exact hk
    have htaken := exec_taken_dispatched hrow h hw
    exact htaken
  case data =>
    by_cases h2 : f.payload.length < 2
    · exact exec_short_dispatched rfl h hk h2
    · have hdata : exec .cfgData s = .next (takeRequest (ofKind 0x11) (withPayload 2 actCfgData) s) := rfl
      refine (exec_taken_dispatched hdata h (ofKind_of_kind_eq hk)).trans ?_
      rw [withPayload_long (Nat.not_lt.1 h2), actCfgData_long (hlen.resolve_left h2)]
  case query =>
    have hquery : exec .queryStatus s = .next (takeRequest ofQueryStatus (withPayload 1 actQueryStatus) s) := rfl
    refine (exec_taken_dispatched hquery h (ofQueryStatus_of_empty hk hlen)).trans ?_
    rw [withPayload_short hlen]
  case presence =>
    have hrow : exec .presence s = .next (takeRequest (ofKind 0x23) actPresence s) := rfl
    rw [exec_taken_dispatched hrow h (ofKind_of_kind_eq hk)]
    rfl

/-! ### The reply queue (R91 to R93) -/

theorem queueReply_enters {f : OutFrame} {s : State} (h : s.replies.length < 4) :
    queueReply f s = { s with replies := s.replies ++ [f] } := if_pos h

theorem queueReply_drops {f : OutFrame} {s : State} (h : 4 ≤ s.replies.length) :
    queueReply f s = setPort f.port (portState s f.port).replyDropped s := if_neg (Nat.not_lt.2 h)

theorem replied_undrawn {s : State} {f : Frame} {m : Mark} {src : Source} {r : Answer × State}
    (h : ¬ (m = .own ∨ (m = .consist ∧ consistPosition s = .lead))) : replied s f m src r = r.2 :=
  if_neg (mt (drawsReply_iff s m).1 h)

/-- A drawn reply to a plain result is a STATUS frame by the sender's path (R92, R95). -/
theorem replied_status {s u : State} {f : Frame} {m : Mark} {src : Source} {r : Result} {d : Nat}
    (h : m = .own ∨ (m = .consist ∧ consistPosition s = .lead)) : replied s f m src (.status r d, u) =
      queueReply { port := sourcePort src, isReset := u.resetWait, body := sealBody ([f.body.getD 0 0,
        match src with
        | .throttle i => (match entry u i with | some e => e.path | none => 0)
        | .localMaster => 0] ++ le4 f.sourceId ++ le2 (locoAddress u) ++ [f.seqByte, 0x80#8]
          ++ statusPayload u r d (some src)) } u := by
  refine (if_pos ((drawsReply_iff s m).2 h)).trans ?_
  cases src <;> rfl

/-! ### The transmitters (R93) -/

theorem exec_replySendStart (which : Port) (s : State) : exec (.replySendStart which) s =
    .next (if (portState s which).sending.isSome then s else startSending which s) := rfl

theorem exec_replySent (which : Port) (s : State) : exec (.replySent which) s =
    .next (if (portState s which).sending.isSome then finishSending which s else s) := rfl

theorem oldestReply_first {s : State} {which : Port} {before after : List OutFrame} {f : OutFrame}
    (hs : s.replies = before ++ f :: after) (hf : f.port = which) (hb : ∀ x ∈ before, x.port ≠ which) :
    oldestReply which s = some f := by
  unfold oldestReply
  rw [hs, List.find?_append, List.find?_eq_none.2 fun x hx => by simpa using hb x hx, Option.none_or,
    List.find?_cons_of_pos (p := fun x : OutFrame => x.port == which) (beq_iff_eq.2 hf)]

theorem erase_first {which : Port} {before after : List OutFrame} {f : OutFrame} (hf : f.port = which)
    (hb : ∀ x ∈ before, x.port ≠ which) : (before ++ f :: after).erase f = before ++ after := by
  have hnot : f ∉ before := fun h => hb f h hf
  rw [List.erase_append_right _ hnot, List.erase_cons_head]

theorem startSending_first {s : State} {which : Port} {f : OutFrame} (h : oldestReply which s = some f) :
    startSending which s = setPort which { portState s which with sending := some (frameBytes f.body) } s := by
  unfold startSending
  rw [h]

theorem startSending_none {s : State} {which : Port} (h : ∀ x ∈ s.replies, x.port ≠ which) :
    startSending which s = s := by
  have hnone : oldestReply which s = none := List.find?_eq_none.2 fun x hx => by simpa using h x hx
  unfold startSending
  rw [hnone]

theorem finishSending_first {s : State} {which : Port} {f : OutFrame} (h : oldestReply which s = some f) :
    finishSending which s = setPort which { portState s which with
      sending := none, counters := { (portState s which).counters with sent := bump16 (portState s which).counters.sent } }
      { s with replies := s.replies.erase f } := by
  unfold finishSending
  dsimp only
  rw [h]

/-- Settles O32. -/
theorem repliesAreQueuedAndSent : Obligations.RepliesAreQueuedAndSent := by
  unfold Obligations.RepliesAreQueuedAndSent
  refine ⟨fun s u f m src r d => ⟨fun hdraws hroom => ?enters, fun hdraws hfull => ?drops, fun hno => ?undrawn⟩,
    fun s which before after f hs hf hb => ⟨fun hidle => ?starts, fun hbusy => ⟨?stays, ?ends⟩⟩,
    fun s which => ⟨fun hidle => ?undueEnd, fun hnone => ?undueStart⟩⟩
  case enters =>
    rw [replied_status hdraws, queueReply_enters hroom] <;> rfl
  case drops =>
    rw [replied_status hdraws, queueReply_drops hfull]
    rfl
  case undrawn => rw [replied_undrawn hno]
  case starts =>
    rw [exec_replySendStart, hidle, startSending_first (oldestReply_first hs hf hb)]
    rfl
  case stays => rw [exec_replySendStart, if_pos (Option.isSome_iff_ne_none.2 hbusy)]
  case ends =>
    rw [exec_replySent, if_pos (Option.isSome_iff_ne_none.2 hbusy), finishSending_first (oldestReply_first hs hf hb), hs,
      erase_first hf hb]
    rfl
  case undueEnd =>
    rw [exec_replySent, hidle]
    rfl
  case undueStart =>
    rw [exec_replySendStart, startSending_none hnone]
    exact congrArg _ (ite_self _)

end Sys2Proof.Machine
end

section
/-! What the QUERY rows answer and what the bytes of STATUS and of the reports show (R55, R88, R95 to R97, R120, R176);
O33. -/

namespace Sys2Proof.Machine

/-! ### The QUERY rows (R88) -/

section QueryRows

variable {row : Instr} {s t : State} {f : Frame} {m : Mark} {src : Source}

theorem ofQuery_of_what {what : Nat} (hk : f.kind = 0x20) (hlen : 1 ≤ f.payload.length)
    (hw : byteAt f.payload 0 = what) : ofQuery what f = true := by
  have hsome : f.payload.isEmpty = false := by
    rw [List.isEmpty_eq_false_iff]
    exact List.ne_nil_of_length_pos hlen
  unfold ofQuery
  rw [hk, hsome, hw]
  simp

theorem ofQueryStatus_of_what (hk : f.kind = 0x20) (hw : byteAt f.payload 0 = 0 ∨ 7 < byteAt f.payload 0) :
    ofQueryStatus f = true := by
  unfold ofQueryStatus
  rw [hk]
  rcases hw with h | h <;> simp [h]

theorem actQuery_within {last : Nat} {report : State → Nat → List Byte} {p : List Byte} {a : Asked} {s : State}
    (h : byteAt p 1 ≤ last) :
    actQuery last report p a s = (.payload 0x82 ([b8 (byteAt p 0), b8 (byteAt p 1)] ++ report s (byteAt p 1)), s) :=
  if_neg (Nat.not_lt.2 h)

theorem actQuery_beyond {last : Nat} {report : State → Nat → List Byte} {p : List Byte} {a : Asked} {s : State}
    (h : last < byteAt p 1) : actQuery last report p a s = (.status .range 0, s) := if_pos h

/-- A row of one what code reports for a selector up to its last one. -/
theorem exec_query_within {what last : Nat} {report : State → Nat → List Byte}
    (hrow : exec row s = .next (takeRequest (ofQuery what) (withPayload 1 (actQuery last report)) s))
    (h : Dispatched s f m src t) (hk : f.kind = 0x20) (hlen : 1 ≤ f.payload.length) (hw : byteAt f.payload 0 = what)
    (hsel : byteAt f.payload 1 ≤ last) : exec row s = .next (replied s f m src
      (.payload 0x82 ([b8 (byteAt f.payload 0), b8 (byteAt f.payload 1)] ++ report t (byteAt f.payload 1)), t)) := by
  rw [exec_taken_dispatched hrow h (ofQuery_of_what hk hlen hw), withPayload_long hlen, actQuery_within hsel]

theorem exec_query_beyond {what last : Nat} {report : State → Nat → List Byte}
    (hrow : exec row s = .next (takeRequest (ofQuery what) (withPayload 1 (actQuery last report)) s))
    (h : Dispatched s f m src t) (hk : f.kind = 0x20) (hlen : 1 ≤ f.payload.length) (hw : byteAt f.payload 0 = what)
    (hsel : last < byteAt f.payload 1) : exec row s = .next (replied s f m src (.status .range 0, t)) := by
  rw [exec_taken_dispatched hrow h (ofQuery_of_what hk hlen hw), withPayload_long hlen, actQuery_beyond hsel]

theorem exec_queryStatus_dispatched (h : Dispatched s f m src t) (hk : f.kind = 0x20) (hlen : 1 ≤ f.payload.length)
    (hw : byteAt f.payload 0 = 0 ∨ 7 < byteAt f.payload 0) : exec .queryStatus s =
      .next (replied s f m src (actQueryStatus f.payload { frame := f, mark := m, src := src } t)) := by
  have hrow : exec .queryStatus s = .next (takeRequest ofQueryStatus (withPayload 1 actQueryStatus) s) := rfl
  rw [exec_taken_dispatched hrow h (ofQueryStatus_of_what hk hw), withPayload_long hlen]

theorem exec_queryCheck_dispatched (h : Dispatched s f m src t) (hk : f.kind = 0x20) (hlen : 1 ≤ f.payload.length)
    (hw : byteAt f.payload 0 = 4) : exec .queryCheckResult s =
      .next (replied s f m src (actQueryCheck f.payload { frame := f, mark := m, src := src } t)) := by
  have hrow : exec .queryCheckResult s = .next (takeRequest (ofQuery 4) (withPayload 1 actQueryCheck) s) := rfl
  rw [exec_taken_dispatched hrow h (ofQuery_of_what hk hlen hw), withPayload_long hlen]

end QueryRows

theorem actQueryStatus_known {p : List Byte} {a : Asked} {s : State} (hw : byteAt p 0 = 0) : actQueryStatus p a s =
    actQuery 1 (fun s sel => if sel = 0 then reportPublished s else reportHolds s) p a s :=
  if_neg (by omega)

theorem actQueryStatus_unknown {p : List Byte} {a : Asked} {s : State} (hw : 7 < byteAt p 0) :
    actQueryStatus p a s = (.status .range 0, s) := if_pos hw

theorem actQueryCheck_estimate {p : List Byte} {a : Asked} {s : State} {e : Nat} (hsel : byteAt p 1 = 0)
    (he : s.motor.checkRecord.estimate = some e) : actQueryCheck p a s =
      (.payload 0x82 ([b8 (byteAt p 0), b8 (byteAt p 1)] ++ reportCheck s), s) := by
  unfold actQueryCheck
  rw [actQuery_within (Nat.le_of_eq hsel), he]
  exact if_neg (fun h => nomatch h.2)

theorem actQueryCheck_absent {p : List Byte} {a : Asked} {s : State} (hsel : byteAt p 1 = 0)
    (he : s.motor.checkRecord.estimate = none) : actQueryCheck p a s =
      (.payload 0x82 ([b8 (byteAt p 0), b8 (byteAt p 1)] ++ reportCheck s), { s with freeCount := s.freeCount + 1 }) := by
  unfold actQueryCheck
  rw [actQuery_within (Nat.le_of_eq hsel), he]
  exact if_pos ⟨hsel, rfl⟩

theorem actQueryCheck_beyond {p : List Byte} {a : Asked} {s : State} (hsel : 0 < byteAt p 1) :
    actQueryCheck p a s = (.status .range 0, s) := by
  unfold actQueryCheck
  rw [actQuery_beyond hsel]
  exact if_neg (fun h => by omega)

theorem reportFaults_of_get {s : State} {k : Nat} {r : FaultRecord} (h : s.faults[k]? = some r) : reportFaults s k =
    [b8 (match r.status with | .clear => 0 | .active => 1 | .latched => 2), b8 r.count] ++ le4 r.firstSeen
      ++ le4 r.lastSeen ++ le2 (activeFaults s) := by
  unfold reportFaults
  rw [List.getD_eq_getElem?_getD, h]
  dsimp only [Option.getD_some]
  cases r.status <;> rfl

theorem reportCheck_of_estimate {s : State} {e : Nat} (h : s.motor.checkRecord.estimate = some e) : reportCheck s =
    [b8 s.motor.checkRecord.result.code, b8 1] ++ le2 e ++ le4 s.motor.checkRecord.time := by
  unfold reportCheck
  dsimp only
  rw [h]
  rfl

theorem reportCheck_of_absent {s : State} (h : s.motor.checkRecord.estimate = none) : reportCheck s =
    [b8 s.motor.checkRecord.result.code, b8 0] ++ le2 (Config.absentEstimate s.freeCount).toNat
      ++ le4 s.motor.checkRecord.time := by
  unfold reportCheck
  dsimp only
  rw [h]
  rfl

/-- What each QUERY row answers (R88). -/
theorem queriesAnswered : ∀ s f m src t, Dispatched s f m src t → f.kind = 0x20 → 1 ≤ f.payload.length →
    let what := byteAt f.payload 0
    let sel := byteAt f.payload 1
    let refused := fun c => exec c s = .next (replied s f m src (.status .range 0, t))
    let reports := fun c bytes u => exec c s = .next (replied s f m src (.payload 0x82 ([b8 what, b8 sel] ++ bytes), u))
    (what = 0 → (sel = 0 → reports .queryStatus (reportPublished t) t) ∧
      (sel = 1 → reports .queryStatus (reportHolds t) t) ∧ (1 < sel → refused .queryStatus)) ∧
    (what = 1 → (sel ≤ 15 → reports .queryThrottles (reportThrottles t sel) t) ∧ (15 < sel → refused .queryThrottles)) ∧
    (what = 2 → (sel ≤ 1 → reports .queryCounters
      (reportCounters (portState t (if sel = 0 then .radio else .localLine)).counters) t) ∧
        (1 < sel → refused .queryCounters)) ∧
    (what = 3 → (∀ r, t.faults[sel]? = some r → sel ≤ 8 → reports .queryFaults
        ([b8 (match r.status with | .clear => 0 | .active => 1 | .latched => 2), b8 r.count] ++ le4 r.firstSeen
          ++ le4 r.lastSeen ++ le2 (activeFaults t)) t) ∧ (8 < sel → refused .queryFaults)) ∧
    (what = 4 → (sel = 0 →
        (∀ e, t.motor.checkRecord.estimate = some e → reports .queryCheckResult
          ([b8 t.motor.checkRecord.result.code, b8 1] ++ le2 e ++ le4 t.motor.checkRecord.time) t) ∧
        (t.motor.checkRecord.estimate = none → reports .queryCheckResult
          ([b8 t.motor.checkRecord.result.code, b8 0] ++ le2 (Config.absentEstimate t.freeCount).toNat
            ++ le4 t.motor.checkRecord.time) { t with freeCount := t.freeCount + 1 })) ∧
      (0 < sel → refused .queryCheckResult)) ∧
    (what = 5 → (sel = 0 → reports .queryLearnResult (reportLearn t) t) ∧ (0 < sel → refused .queryLearnResult)) ∧
    (what = 6 → (sel = 0 → reports .querySound (reportSound t) t) ∧ (0 < sel → refused .querySound)) ∧
    (what = 7 → (sel ≤ 3 → reports .queryFunctions (reportFunctions t sel) t) ∧ (3 < sel → refused .queryFunctions)) ∧
    (7 < what → refused .queryStatus) := by
  intro s f m src t h hk hlen
  dsimp only
  refine ⟨fun hw => ?status, fun hw => ?throttles, fun hw => ?counters, fun hw => ?faults, fun hw => ?check,
    fun hw => ?learn, fun hw => ?sound, fun hw => ?functions, fun hw => ?unknown⟩
  case status =>
    rw [exec_queryStatus_dispatched h hk hlen (.inl hw), actQueryStatus_known hw]
    refine ⟨fun hsel => ?_, fun hsel => ?_, fun hsel => ?_⟩
    · rw [actQuery_within (by omega), if_pos hsel]
    · rw [actQuery_within (by omega), if_neg (by omega)]
    · rw [actQuery_beyond hsel]
  case throttles =>
    have hrow : exec .queryThrottles s =
      .next (takeRequest (ofQuery 1) (withPayload 1 (actQuery 15 reportThrottles)) s) := rfl
    refine ⟨fun hsel => ?_, exec_query_beyond hrow h hk hlen hw⟩
    rw [exec_query_within hrow h hk hlen hw hsel]
  case counters =>
    have hrow : exec .queryCounters s = .next (takeRequest (ofQuery 2) (withPayload 1 (actQuery 1 (fun s sel =>
      reportCounters (if sel = 0 then s.radio.counters else s.localLine.counters)))) s) := rfl
    refine ⟨fun hsel => ?_, exec_query_beyond hrow h hk hlen hw⟩
    rw [exec_query_within hrow h hk hlen hw hsel]
    by_cases h0 : byteAt f.payload 1 = 0
    · rw [if_pos h0, if_pos h0]
      rfl
    · rw [if_neg h0, if_neg h0]
      rfl
  case faults =>
    have hrow : exec .queryFaults s = .next (takeRequest (ofQuery 3) (withPayload 1 (actQuery 8 reportFaults)) s) := rfl
    refine ⟨fun r hr hsel => ?_, exec_query_beyond hrow h hk hlen hw⟩
    rw [exec_query_within hrow h hk hlen hw hsel, reportFaults_of_get hr]
  case check =>
    rw [exec_queryCheck_dispatched h hk hlen hw]
    refine ⟨fun hsel => ⟨fun e he => ?_, fun he => ?_⟩, fun hsel => ?_⟩
    · rw [actQueryCheck_estimate hsel he, reportCheck_of_estimate he]
    · rw [actQueryCheck_absent hsel he, reportCheck_of_absent he]
    · rw [actQueryCheck_beyond hsel]
  case learn =>
    have hrow : exec .queryLearnResult s =
      .next (takeRequest (ofQuery 5) (withPayload 1 (actQuery 0 (fun s _ => reportLearn s))) s) := rfl
    refine ⟨fun hsel => ?_, exec_query_beyond hrow h hk hlen hw⟩
    rw [exec_query_within hrow h hk hlen hw (Nat.le_of_eq hsel)]
  case sound =>
    have hrow : exec .querySound s =
      .next (takeRequest (ofQuery 6) (withPayload 1 (actQuery 0 (fun s _ => reportSound s))) s) := rfl
    refine ⟨fun hsel => ?_, exec_query_beyond hrow h hk hlen hw⟩
    rw [exec_query_within hrow h hk hlen hw (Nat.le_of_eq hsel)]
  case functions =>
    have hrow : exec .queryFunctions s =
      .next (takeRequest (ofQuery 7) (withPayload 1 (actQuery 3 reportFunctions)) s) := rfl
    refine ⟨fun hsel => ?_, exec_query_beyond hrow h hk hlen hw⟩
    rw [exec_query_within hrow h hk hlen hw hsel]
  case unknown => rw [exec_queryStatus_dispatched h hk hlen (.inr hw), actQueryStatus_unknown hw]

end Sys2Proof.Machine
end

section
/-! The bytes of a STATUS payload and of the reports, read back (Tables 5-5 and 5-6). -/

namespace Sys2Proof.Machine

/-! ### Reading back bytes, halves and words -/

theorem toNat_b8 (n : Nat) : (b8 n).toNat = n % 256 := BitVec.toNat_ofNat n 8

theorem byteAt_of_get {p : List Byte} {k n : Nat} (h : p[k]? = some (b8 n)) (hn : n < 256) : byteAt p k = n := by
  unfold byteAt
  rw [List.getD_eq_getElem?_getD, h]
  exact (toNat_b8 n).trans (Nat.mod_eq_of_lt hn)

theorem halfAt_of_get {p : List Byte} {k n : Nat} (h0 : p[k]? = some (b8 n)) (h1 : p[k + 1]? = some (b8 (n / 256)))
    (hn : n < 65536) : halfAt p k = n := by
  unfold halfAt byteAt
  rw [List.getD_eq_getElem?_getD, List.getD_eq_getElem?_getD, h0, h1]
  simp only [Option.getD_some, toNat_b8]
  omega

theorem toNat_extract_byte (w : BitVec 32) (k : Nat) : (w.extractLsb' k 8).toNat = w.toNat / 2 ^ k % 256 := by
  rw [BitVec.extractLsb'_toNat, Nat.shiftRight_eq_div_pow]

theorem wordAt_of_get {p : List Byte} {k : Nat} {w : BitVec 32} (h0 : p[k]? = some (w.extractLsb' 0 8))
    (h1 : p[k + 1]? = some (w.extractLsb' 8 8)) (h2 : p[k + 2]? = some (w.extractLsb' 16 8))
    (h3 : p[k + 3]? = some (w.extractLsb' 24 8)) : wordAt p k = w.toNat := by
  have hw := w.isLt
  unfold wordAt halfAt byteAt
  rw [List.getD_eq_getElem?_getD, List.getD_eq_getElem?_getD, List.getD_eq_getElem?_getD, List.getD_eq_getElem?_getD, h0, h1,
    h2, h3]
  simp only [Option.getD_some, toNat_extract_byte]
  omega

/-- A value kept in two's complement is read back. -/
theorem signed16_kept {l : Int} (hlo : -32768 ≤ l) (hhi : l ≤ 32767) : signed16 (l % 65536).toNat = l := by
  unfold signed16
  split <;> omega

/-! ### Sums of bits -/

/-- The value whose bits below `n` are those of `f`. -/
def bitsOf (f : Nat → Bool) (n : Nat) : Nat := ((List.range n).map (fun k => if f k then 2 ^ k else 0)).sum

theorem bitsOf_succ (f : Nat → Bool) (n : Nat) : bitsOf f (n + 1) = bitsOf f n + if f n then 2 ^ n else 0 := by
  unfold bitsOf
  rw [List.range_succ, List.map_append, List.sum_append, List.map_singleton, List.sum_singleton]

theorem bitsOf_lt (f : Nat → Bool) (n : Nat) : bitsOf f n < 2 ^ n := by
  induction n with
  | zero => exact Nat.one_pos
  | succ n ih =>
    rw [bitsOf_succ, Nat.pow_succ]
    split <;> omega

theorem testBit_bitsOf (f : Nat → Bool) {n k : Nat} (h : k < n) : (bitsOf f n).testBit k = f k := by
  induction n with
  | zero => exact absurd h (Nat.not_lt_zero k)
  | succ n ih =>
    rw [bitsOf_succ, Nat.add_comm]
    rcases Nat.lt_succ_iff_lt_or_eq.1 h with hk | rfl
    · split
      · rw [Nat.testBit_two_pow_add_gt hk, ih hk]
      · rw [Nat.zero_add, ih hk]
    · have hzero : (bitsOf f k).testBit k = false := Nat.testBit_lt_two_pow (bitsOf_lt f k)
      split
      · rename_i hf
        rw [Nat.testBit_two_pow_add_eq, hzero, hf]
        rfl
      · rename_i hf
        rw [Nat.zero_add, hzero, Bool.eq_false_iff.2 hf]

theorem bitsOf_digit (f : Nat → Bool) {n k : Nat} (h : k < n) : bitsOf f n / 2 ^ k % 2 = if f k = true then 1 else 0 := by
  have hbit := testBit_bitsOf f h
  rw [Nat.testBit_eq_decide_div_mod_eq] at hbit
  rw [← hbit]
  simp only [decide_eq_true_eq]
  split <;> omega

/-! ### STATUS (R95, Table 5-5) -/

/-- A fault kind has an active record (R176). -/
def faultStands (s : State) (k : Nat) : Bool :=
  match s.faults[k]? with
  | some r => r.status != .clear
  | none => false

theorem faultStands_iff (s : State) (k : Nat) :
    faultStands s k = true ↔ ∃ x, s.faults[k]? = some x ∧ x.status ≠ .clear := by
  unfold faultStands
  cases s.faults[k]? with
  | none => simp
  | some r => simp

theorem activeFaults_eq (s : State) : activeFaults s = bitsOf (faultStands s) 9 := by
  unfold activeFaults bitsOf
  refine congrArg List.sum (List.map_congr_left fun k _ => ?_)
  unfold faultStands
  cases s.faults[k]? with
  | none => rfl
  | some r =>
    by_cases hr : r.status = .clear <;> simp [hr]

theorem activeFaults_lt (s : State) : activeFaults s < 512 := by
  rw [activeFaults_eq]
  exact bitsOf_lt _ 9

theorem HoldSource.code_lt (x : HoldSource) : x.code < 16 := by cases x <;> decide

theorem holdCode_lt (s : State) (k : Nat) : holdCode s k < 16 := by
  unfold holdCode
  split
  · exact HoldSource.code_lt _
  · decide

/-- The sender of a request has an ACTIVE item on DRIVE. -/
def senderHolds (s : State) (src : Option Source) : Bool := src.elim false (holdsDrive s)

theorem senderHolds_iff (s : State) (src : Option Source) :
    senderHolds s src = true ↔ ∃ x, src = some x ∧ ∃ h ∈ s.drive.holders, h.source = x ∧ h.until_ = none := by
  cases src with
  | none => simp [senderHolds]
  | some x =>
    simp only [senderHolds, Option.elim_some, holdsDrive, HolderItem.activeFor, List.any_eq_true, Bool.and_eq_true,
      beq_iff_eq, Option.isNone_iff_eq_none, Option.some.injEq, exists_eq_left']

section Status

variable (s : State) (r : Result) (d : Nat) (src : Option Source)

theorem status_result : byteAt (statusPayload s r d src) 0 = r.code := by cases r <;> rfl

theorem status_generation (h : s.drive.generation < 65536) :
    halfAt (statusPayload s r d src) 1 = s.drive.generation := halfAt_of_get rfl rfl h

theorem status_step (h : s.demand.step < 256) : byteAt (statusPayload s r d src) 3 = s.demand.step := byteAt_of_get rfl h

theorem status_directions : byteAt (statusPayload s r d src) 4 =
    (if s.demand.commanded = .rev then 1 else 0) + (if s.demand.applied = .rev then 2 else 0)
      + (if s.demand.pending = true then 4 else 0) := by
  have hbyte : byteAt (statusPayload s r d src) 4 =
      (s.demand.commanded.code + 2 * s.demand.applied.code + bit s.demand.pending 2) % 256 := rfl
  rw [hbyte]
  generalize s.demand.commanded = c
  generalize s.demand.applied = a
  cases c <;> cases a <;> cases s.demand.pending <;> rfl

theorem status_writer : byteAt (statusPayload s r d src) 5 = writerCode s.demand.lastWriter % 256 := rfl

theorem status_reference (h : s.pub.R ≤ 4000) : byteAt (statusPayload s r d src) 6 = s.pub.R * 250 / 4000 :=
  byteAt_of_get rfl (by omega)

theorem DriveMode.code_lt (m : DriveMode) : m.code < 3 := by cases m <;> decide

theorem status_mode : byteAt (statusPayload s r d src) 7 % 4 = s.drive.mode.code ∧
    byteAt (statusPayload s r d src) 7 / 4 = if senderHolds s src = true then 1 else 0 := by
  have hbyte : byteAt (statusPayload s r d src) 7 = (s.drive.mode.code + bit (senderHolds s src) 2) % 256 := by
    cases src <;> rfl
  have hcode := DriveMode.code_lt s.drive.mode
  rw [hbyte]
  unfold bit
  split <;> constructor <;> omega

theorem status_group {g : Nat} (hg : g < 4) :
    byteAt (statusPayload s r d src) (8 + g) = groupCode (s.groups.getD g none) % 256 := by
  interval_cases g <;> rfl

theorem groupCode_held {h : HolderItem} {c : Nat}
    (hc : (h.source = .localMaster ∧ c = 16) ∨ (h.source = .throttle c ∧ c < 16)) :
    groupCode (some h) % 256 = c + if h.until_.isSome = true then 128 else 0 := by
  have hcode : h.source.code = c ∧ c ≤ 16 := by
    rcases hc with ⟨hs, rfl⟩ | ⟨hs, hlt⟩ <;> rw [hs]
    · exact ⟨rfl, Nat.le_refl _⟩
    · exact ⟨rfl, Nat.le_of_lt hlt⟩
  have hgroup : groupCode (some h) = h.source.code + bit h.until_.isSome 7 := rfl
  rw [hgroup, hcode.1]
  unfold bit
  split <;> omega

theorem status_holds {k : Nat} (hk : k < 6) :
    byteAt (statusPayload s r d src) (12 + k / 2) / 16 ^ (k % 2) % 16 = holdCode s k := by
  have h0 := holdCode_lt s 0
  have h1 := holdCode_lt s 1
  have h2 := holdCode_lt s 2
  have h3 := holdCode_lt s 3
  have h4 := holdCode_lt s 4
  have h5 := holdCode_lt s 5
  have hb12 : byteAt (statusPayload s r d src) 12 = (holdCode s 0 + 16 * holdCode s 1) % 256 := rfl
  have hb13 : byteAt (statusPayload s r d src) 13 = (holdCode s 2 + 16 * holdCode s 3) % 256 := rfl
  have hb14 : byteAt (statusPayload s r d src) 14 = (holdCode s 4 + 16 * holdCode s 5) % 256 := rfl
  interval_cases k <;> simp only [Nat.reduceDiv, Nat.reduceMod, Nat.reduceAdd, Nat.reducePow, hb12, hb13, hb14] <;> omega

theorem status_faults {k : Nat} (hk : k < 9) :
    halfAt (statusPayload s r d src) 15 / 2 ^ k % 2 = 1 ↔ ∃ x, s.faults[k]? = some x ∧ x.status ≠ .clear := by
  have hhalf : halfAt (statusPayload s r d src) 15 = activeFaults s :=
    halfAt_of_get rfl rfl (Nat.lt_trans (activeFaults_lt s) (by decide))
  rw [hhalf, activeFaults_eq, bitsOf_digit _ hk, ← faultStands_iff]
  split <;> simp_all

theorem SupplyState.code_lt (x : SupplyState) : x.code < 4 := by cases x <;> decide

theorem MotorState.code_lt (x : MotorState) : x.code < 5 := by cases x <;> decide

theorem status_states : byteAt (statusPayload s r d src) 17 % 4 = s.supply.state.code ∧
    byteAt (statusPayload s r d src) 17 / 4 % 8 = s.motor.state.code ∧
    byteAt (statusPayload s r d src) 17 / 32 = if s.unsaved = true then 4 else 0 := by
  have hbyte : byteAt (statusPayload s r d src) 17 =
      (s.supply.state.code + 4 * s.motor.state.code + bit s.unsaved 7) % 256 := rfl
  have hsupply := SupplyState.code_lt s.supply.state
  have hmotor := MotorState.code_lt s.motor.state
  rw [hbyte]
  unfold bit
  split <;> refine ⟨?_, ?_, ?_⟩ <;> omega

theorem status_detail (h : d < 256) : byteAt (statusPayload s r d src) 18 = d := byteAt_of_get rfl h

end Status

/-! ### Reports of fixed length (Table 5-6) -/

theorem MotionPhase.code_lt (x : MotionPhase) : x.code < 4 := by cases x <;> decide

theorem reportPublished_states (s : State) : byteAt (reportPublished s) 12 % 4 = s.pub.phase.code ∧
    byteAt (reportPublished s) 12 / 4 = s.pub.motorState.code := by
  have hbyte : byteAt (reportPublished s) 12 = (s.pub.phase.code + 4 * s.pub.motorState.code) % 256 := rfl
  have hphase := MotionPhase.code_lt s.pub.phase
  have hmotor := MotorState.code_lt s.pub.motorState
  rw [hbyte]
  constructor <;> omega

theorem reportPublished_labour {s : State} (hlo : -32768 ≤ s.pub.L) (hhi : s.pub.L ≤ 32767) :
    signed16 (halfAt (reportPublished s) 8) = s.pub.L := by
  have hhalf : halfAt (reportPublished s) 8 = (s.pub.L % 65536).toNat := halfAt_of_get rfl rfl (by omega)
  rw [hhalf]
  exact signed16_kept hlo hhi

theorem reportSound_underruns {s : State} {v : Nat} {vo : Voice} (hv : v < 6) (hvo : s.sound.voices[v]? = some vo)
    (hu : vo.underruns < 65536) : halfAt (reportSound s) (4 + 2 * v) = vo.underruns := by
  have hvoice : voice s v = vo := by
    unfold voice
    rw [List.getD_eq_getElem?_getD, hvo]
    rfl
  rw [← hvoice] at hu ⊢
  interval_cases v <;> exact halfAt_of_get rfl rfl hu

/-! ### Blocks of one length after another -/

/-- In a run of blocks of `c` bytes each, byte `j` of block `k`. -/
theorem getElem?_flatMap_block {α : Type} {f : α → List Byte} {c : Nat} (hc : ∀ x, (f x).length = c) {l : List α} {k : Nat}
    {x : α} (hk : l[k]? = some x) {j : Nat} (hj : j < c) : (l.flatMap f)[c * k + j]? = (f x)[j]? := by
  induction l generalizing k with
  | nil => cases hk
  | cons a l ih =>
    rw [List.flatMap_cons]
    cases k with
    | zero =>
      obtain rfl : a = x := Option.some.inj hk
      rw [Nat.mul_zero, Nat.zero_add, List.getElem?_append_left (by rw [hc]; exact hj)]
    | succ k =>
      have hsucc : c * (k + 1) + j = c + (c * k + j) := by rw [Nat.mul_succ]; omega
      rw [hsucc, List.getElem?_append_right (by rw [hc]; omega), hc, Nat.add_sub_cancel_left]
      exact ih hk

theorem length_flatMap_block {α : Type} {f : α → List Byte} {c : Nat} (hc : ∀ x, (f x).length = c) (l : List α) :
    (l.flatMap f).length = c * l.length := by
  induction l with
  | nil => rfl
  | cons a l ih => rw [List.flatMap_cons, List.length_append, hc, ih, List.length_cons, Nat.mul_succ, Nat.add_comm]

theorem reportHold_length (now : Time) (h : Hold) : (reportHold now h).length = 3 := rfl

/-- The first byte of a reported hold. -/
theorem reportHold_head (now : Time) (h : Hold) : byteAt (reportHold now h) 0 = 16 * h.source.code +
    (if h.kind = .cap then 1 else 0) + (if h.phase = some .dwell then 2 else 0) + (if h.expiry = .absent then 0 else 4) := by
  have hbyte : byteAt (reportHold now h) 0 = (16 * h.source.code + bit (h.kind == .cap) 0 +
      bit (h.phase == some .dwell) 1 + bit (h.expiry != .absent) 2) % 256 := rfl
  have hcode : h.source.code ≤ 6 := by cases h.source <;> decide
  rw [hbyte]
  simp only [bit, beq_iff_eq, bne_iff_ne, ne_eq, ite_not]
  split <;> split <;> split <;> omega

theorem ageTenths_lt (now t : Time) : ageTenths now t < 65536 := by
  unfold ageTenths
  omega

theorem reportHolds_get {s : State} {k : Nat} {h : Hold} (hk : s.holds[k]? = some h) {j : Nat} (hj : j < 3) :
    (reportHolds s)[1 + 3 * k + j]? = (reportHold s.partTime h)[j]? := by
  have hblock := getElem?_flatMap_block (f := reportHold s.partTime) (fun _ => rfl) hk hj
  have hnext : 1 + 3 * k + j = (3 * k + j) + 1 := by omega
  rw [hnext]
  exact hblock

theorem reportHolds_head {s : State} {k : Nat} {h : Hold} (hk : s.holds[k]? = some h) :
    byteAt (reportHolds s) (1 + 3 * k) = byteAt (reportHold s.partTime h) 0 := by
  have hget := reportHolds_get hk (j := 0) (by decide)
  unfold byteAt
  rw [List.getD_eq_getElem?_getD, List.getD_eq_getElem?_getD, ← hget]
  rfl

theorem reportHolds_age {s : State} {k : Nat} {h : Hold} (hk : s.holds[k]? = some h) :
    halfAt (reportHolds s) (2 + 3 * k) = ageTenths s.partTime h.created := by
  have h1 := reportHolds_get hk (j := 1) (by decide)
  have h2 := reportHolds_get hk (j := 2) (by decide)
  have hn1 : 2 + 3 * k = 1 + 3 * k + 1 := by omega
  have hn2 : 2 + 3 * k + 1 = 1 + 3 * k + 2 := by omega
  refine halfAt_of_get ?_ ?_ (ageTenths_lt _ _)
  · rw [hn1, h1]
    rfl
  · rw [hn2, h2]
    rfl

end Sys2Proof.Machine
end

section
/-! The reports of the Throttle Table and of a function group (R55, R97, Table 5-6), and O33. -/

namespace Sys2Proof.Machine

/-! ### QUERY THROTTLES (R55) -/

theorem occupiedFrom_none {s : State} {start : Nat} (h : ∀ j, j < 16 → start ≤ j → ¬ (entry s j).isSome = true) :
    occupiedFrom s start = none := by
  unfold occupiedFrom
  rw [List.find?_range_eq_none]
  intro j hj
  rw [Bool.not_eq_true', ← Bool.not_eq_true, Bool.and_eq_true, decide_eq_true_eq]
  exact fun hs => h j hj hs.1 hs.2

theorem occupiedFrom_some {s : State} {start i : Nat} (hi : i < 16) (hstart : start ≤ i) (he : (entry s i).isSome = true)
    (hfirst : ∀ j, j < i → start ≤ j → ¬ (entry s j).isSome = true) : occupiedFrom s start = some i := by
  unfold occupiedFrom
  rw [List.find?_range_eq_some]
  refine ⟨Bool.and_eq_true_iff.2 ⟨decide_eq_true hstart, he⟩, List.mem_range.2 hi, fun j hj => ?_⟩
  rw [Bool.not_eq_true', ← Bool.not_eq_true, Bool.and_eq_true, decide_eq_true_eq]
  exact fun hs => hfirst j hj hs.1 hs.2

/-- The head of the report of the Throttle Table: the occupied count, the next occupied index, the rate limit and the
refused learns. -/
def throttlesHead (s : State) (next : Nat) : List Byte :=
  [b8 (s.throttles.filter (·.isSome)).length, b8 next, b8 (set8 s 13)] ++ le2 s.refusedLearns

theorem reportThrottles_none {s : State} {start : Nat} (h : occupiedFrom s start = none) :
    reportThrottles s start = throttlesHead s 0xFF := by
  unfold reportThrottles throttlesHead
  dsimp only
  rw [h]
  rfl

theorem reportThrottles_some {s : State} {start i : Nat} {e : ThrottleEntry} (h : occupiedFrom s start = some i)
    (he : entry s i = some e) :
    reportThrottles s start = throttlesHead s ((occupiedFrom s (i + 1)).getD 0xFF) ++ reportEntry s i e := by
  unfold reportThrottles throttlesHead
  dsimp only
  rw [h]
  dsimp only
  rw [he]

/-- The head stands first in every report of the table. -/
theorem reportThrottles_head (s : State) (start : Nat) : ∃ next rest, reportThrottles s start = throttlesHead s next ++ rest :=
  ⟨_, _, rfl⟩

/-- The table counted index by index. -/
theorem occupied_count {s : State} (h : s.throttles.length = 16) :
    (s.throttles.filter (·.isSome)).length = ((List.range 16).filter (fun j => (entry s j).isSome)).length := by
  have htable : s.throttles = (List.range 16).map (entry s) := by
    refine List.ext_getElem (by rw [h, List.length_map, List.length_range]) fun j h1 h2 => ?_
    rw [List.getElem_map, List.getElem_range]
    unfold entry
    rw [List.getD_eq_getElem _ _ h1]
  conv_lhs => rw [htable, List.filter_map, List.length_map]
  rfl

theorem itemCode_le (i : Nat) (h : HolderItem) : itemCode i h ≤ 2 := by
  unfold itemCode
  split
  · split <;> decide
  · decide

theorem itemCode_other {i : Nat} {h : HolderItem} (hs : h.source ≠ .throttle i) : itemCode i h = 0 := if_neg hs

theorem itemCode_named {i : Nat} {h : HolderItem} (hs : h.source = .throttle i) :
    itemCode i h = if h.until_.isSome = true then 2 else 1 := if_pos hs

theorem sum_itemCode_none {i : Nat} {l : List HolderItem} (h : ∀ x ∈ l, x.source ≠ .throttle i) :
    (l.map (itemCode i)).sum = 0 := by
  induction l with
  | nil => rfl
  | cons a l ih =>
    rw [List.map_cons, List.sum_cons, itemCode_other (h a List.mem_cons_self),
      ih fun x hx => h x (List.mem_cons_of_mem a hx)]

/-- Of the items of different sources at most one names an index. -/
theorem sum_itemCode_named {i : Nat} {l : List HolderItem} (hd : (l.map (·.source)).Nodup) {h : HolderItem} (hh : h ∈ l)
    (hs : h.source = .throttle i) : (l.map (itemCode i)).sum = if h.until_.isSome = true then 2 else 1 := by
  induction l with
  | nil => cases hh
  | cons a l ih =>
    rw [List.map_cons] at hd
    obtain ⟨hnot, hrest⟩ := List.nodup_cons.1 hd
    rw [List.map_cons, List.sum_cons]
    rcases List.mem_cons.1 hh with rfl | hmem
    · have hothers : ∀ x ∈ l, x.source ≠ .throttle i := fun x hx hxs =>
        hnot (List.mem_map.2 ⟨x, hx, hxs.trans hs.symm⟩)
      rw [sum_itemCode_none hothers, itemCode_named hs, Nat.add_zero]
    · have hne : a.source ≠ .throttle i := fun has => hnot (List.mem_map.2 ⟨h, hmem, hs.trans has.symm⟩)
      rw [itemCode_other hne, ih hrest hmem, Nat.zero_add]

theorem sum_itemCode_le {i : Nat} {l : List HolderItem} (hd : (l.map (·.source)).Nodup) :
    (l.map (itemCode i)).sum ≤ 2 := by
  by_cases h : ∃ x ∈ l, x.source = .throttle i
  · obtain ⟨x, hx, hs⟩ := h
    rw [sum_itemCode_named hd hx hs]
    split <;> decide
  · rw [sum_itemCode_none fun x hx hs => h ⟨x, hx, hs⟩]
    exact Nat.zero_le 2

/-- How the holder of a group names an index. -/
def groupItemCode (s : State) (i g : Nat) : Nat := (s.groups.getD g none).elim 0 (itemCode i)

theorem groupItemCode_le (s : State) (i g : Nat) : groupItemCode s i g ≤ 2 := by
  unfold groupItemCode
  cases s.groups.getD g none with
  | none => exact Nat.zero_le 2
  | some h => exact itemCode_le i h

theorem claimsCode_eq (s : State) (i : Nat) : claimsCode s i = (s.drive.holders.map (itemCode i)).sum
    + 4 * groupItemCode s i 0 + 16 * groupItemCode s i 1 + 64 * groupItemCode s i 2 + 256 * groupItemCode s i 3 := by
  have hterm (g : Nat) : (match s.groups.getD g none with
      | some h => 4 ^ (g + 1) * itemCode i h
      | none => 0) = 4 ^ (g + 1) * groupItemCode s i g := by
    unfold groupItemCode
    cases s.groups.getD g none <;> rfl
  have hsum : claimsCode s i = (s.drive.holders.map (itemCode i)).sum
      + ((List.range 4).map (fun g => 4 ^ (g + 1) * groupItemCode s i g)).sum :=
    congrArg (fun f : Nat → Nat => (s.drive.holders.map (itemCode i)).sum + ((List.range 4).map f).sum) (funext hterm)
  have hfour : ((List.range 4).map (fun g => 4 ^ (g + 1) * groupItemCode s i g)).sum =
      4 * groupItemCode s i 0 + (16 * groupItemCode s i 1 + (64 * groupItemCode s i 2 + (256 * groupItemCode s i 3 + 0))) := rfl
  rw [hsum, hfour]
  omega

/-- The two bits of DRIVE and of each group in the claims field. -/
theorem claimsCode_digits {s : State} (hd : (s.drive.holders.map (·.source)).Nodup) (i : Nat) :
    claimsCode s i < 65536 ∧ claimsCode s i % 4 = (s.drive.holders.map (itemCode i)).sum ∧
      ∀ g, g < 4 → claimsCode s i / 4 ^ (g + 1) % 4 = groupItemCode s i g := by
  have hdrive := sum_itemCode_le (i := i) hd
  have h0 := groupItemCode_le s i 0
  have h1 := groupItemCode_le s i 1
  have h2 := groupItemCode_le s i 2
  have h3 := groupItemCode_le s i 3
  rw [claimsCode_eq]
  refine ⟨by omega, by omega, fun g hg => ?_⟩
  interval_cases g <;> simp only [Nat.reduceAdd, Nat.reducePow] <;> omega

/-! ### QUERY FUNCTIONS (R97) -/

theorem groupSwitches_get {s : State} {g i : Nat} {sw : Switch} (hi : i < 8) (h : s.switches[8 * g + i]? = some sw) :
    (groupSwitches s g)[i]? = some sw := by
  unfold groupSwitches
  rw [List.getElem?_take_of_lt hi, List.getElem?_drop, h]

theorem groupSwitches_length {s : State} {g : Nat} (hg : g < 4) (h : s.switches.length = 32) :
    (groupSwitches s g).length = 8 := by
  unfold groupSwitches
  rw [List.length_take, List.length_drop]
  omega

theorem switchBits_eq (sws : List Switch) (test : Switch → Bool) :
    switchBits sws test = bitsOf (fun k => (sws[k]?.map test).getD false) sws.length := by
  unfold switchBits bitsOf
  refine congrArg List.sum (List.ext_getElem (by simp) fun k h1 h2 => ?_)
  have hk : k < sws.length := by simpa using h1
  rw [List.getElem_mapIdx, List.getElem_map, List.getElem_range]
  refine if_congr ?_ rfl rfl
  dsimp only
  rw [List.getElem?_eq_getElem hk]
  rfl

theorem switchBits_digit {sws : List Switch} (hl : sws.length = 8) {i : Nat} {sw : Switch} (hi : sws[i]? = some sw)
    (hi8 : i < 8) (test : Switch → Bool) : switchBits sws test % 256 / 2 ^ i % 2 = if test sw = true then 1 else 0 := by
  have hlt : bitsOf (fun k => (sws[k]?.map test).getD false) 8 < 256 := bitsOf_lt _ 8
  rw [switchBits_eq, hl, Nat.mod_eq_of_lt hlt, bitsOf_digit _ hi8, hi]
  rfl

theorem reportFunctions_setter {s : State} {g i : Nat} {sw : Switch} (h : (groupSwitches s g)[i]? = some sw) :
    byteAt (reportFunctions s g) (2 + i) = writerCode sw.lastSetter % 256 := by
  have hget : (reportFunctions s g)[2 + i]? = some (b8 (writerCode sw.lastSetter)) := by
    have hnext : 2 + i = i + 1 + 1 := by omega
    unfold reportFunctions
    dsimp only
    rw [hnext, List.cons_append, List.getElem?_cons_succ, List.cons_append, List.getElem?_cons_succ, List.nil_append,
      List.getElem?_map, h]
    rfl
  unfold byteAt
  rw [List.getD_eq_getElem?_getD, hget]
  exact toNat_b8 _

/-! ### The statement -/

theorem writerCode_throttle {w : Option Writer} {i : Nat} (hi : i < 16) (h : w = some (.source (.throttle i))) :
    writerCode w % 256 = i := by
  rw [h]
  exact Nat.mod_eq_of_lt (Nat.lt_trans hi (by decide))

theorem holdCode_eq (s : State) (k : Nat) : holdCode s k = (s.holds[k]?).elim 0 (fun h => h.source.code) := by
  unfold holdCode
  cases s.holds[k]? <;> rfl

/-- Settles O33: the rows by `queriesAnswered`; the payloads byte by byte, the sums of bits by `bitsOf_digit`. -/
theorem queriesReportTheState : Obligations.QueriesReportTheState := by
  unfold Obligations.QueriesReportTheState
  refine ⟨queriesAnswered, fun s r d src => ?status, fun s => ⟨?published, ?holds, ?sound⟩, fun s start hs => ?throttles,
    fun s g i sw hg hi hl hsw => ?functions⟩
  case status =>
    obtain ⟨hmode, hholds⟩ := status_mode s r d src
    obtain ⟨hsupply, hmotor, hunsaved⟩ := status_states s r d src
    have hwriter := status_writer s r d src
    refine ⟨rfl, ?_, status_generation s r d src, status_step s r d src, status_directions s r d src, fun h => ?_,
      fun h => ?_, fun h => ?_, fun i hi h => ?_, status_reference s r d src, ?_, fun h => ?_, fun h => ?_,
      fun g hg => ⟨fun h => ?_, fun h hh c hc => ?_⟩, fun k hk => ?_, fun k hk => status_faults s r d src hk, ?_, ?_,
      hunsaved, status_detail s r d src⟩
    · rw [status_result]
      cases r <;> rfl
    · rw [hwriter, h]
      rfl
    · rw [hwriter, h]
      rfl
    · rw [hwriter, h]
      rfl
    · rw [hwriter, writerCode_throttle hi h]
    · rw [hmode]
      cases s.drive.mode <;> rfl
    · rw [hholds, if_pos ((senderHolds_iff s src).2 h)]
    · rw [hholds, if_neg (mt (senderHolds_iff s src).1 h)]
    · rw [status_group s r d src hg, h]
      rfl
    · rw [status_group s r d src hg, hh, groupCode_held hc]
    · rw [status_holds s r d src hk, holdCode_eq]
      cases s.holds[k]? with
      | none => rfl
      | some h =>
        dsimp only [Option.elim_some]
        cases h.source <;> rfl
    · rw [hsupply]
      cases s.supply.state <;> rfl
    · rw [hmotor]
      cases s.motor.state <;> rfl
  case published =>
    obtain ⟨hphase, hmotor⟩ := reportPublished_states s
    refine ⟨rfl, halfAt_of_get rfl rfl, halfAt_of_get rfl rfl, halfAt_of_get rfl rfl, halfAt_of_get rfl rfl,
      reportPublished_labour, halfAt_of_get rfl rfl, ?_, ?_, wordAt_of_get rfl rfl rfl rfl⟩
    · rw [hphase]
      cases s.pub.phase <;> rfl
    · rw [hmotor]
      cases s.pub.motorState <;> rfl
  case holds =>
    refine ⟨?_, byteAt_of_get rfl, fun k h hk => ⟨?_, ?_⟩⟩
    · have hlen := length_flatMap_block (reportHold_length s.partTime) s.holds
      unfold reportHolds
      rw [List.length_append, hlen]
      rfl
    · rw [reportHolds_head hk, reportHold_head]
      cases h.source <;> rfl
    · rw [reportHolds_age hk]
      rfl
  case sound =>
    exact ⟨rfl, halfAt_of_get rfl rfl, halfAt_of_get rfl rfl, fun v vo hv hvo hu => reportSound_underruns hv hvo hu⟩
  case throttles =>
    obtain ⟨next, rest, hhead⟩ := reportThrottles_head s start
    refine ⟨?_, ?_, fun h => ?_, fun h => ?_, fun i hi hstart e he hfirst => ?_⟩
    · rw [← occupied_count hs.table, hhead]
      have hcount := List.length_filter_le (fun e : Option ThrottleEntry => e.isSome) s.throttles
      rw [hs.table] at hcount
      exact byteAt_of_get rfl (by omega)
    · rw [hhead]
      exact byteAt_of_get rfl (byteAt_lt _ _)
    · rw [hhead]
      exact halfAt_of_get rfl rfl h
    · rw [reportThrottles_none (occupiedFrom_none fun j hj hstart hsome => h j hj hstart ⟨hj, hsome⟩)]
      exact ⟨rfl, rfl⟩
    · have hfound : occupiedFrom s start = some i := occupiedFrom_some hi hstart (by rw [he]; rfl)
        fun j hj hsj hsome => hfirst j hj hsj ⟨Nat.lt_trans hj hi, hsome⟩
      obtain ⟨hlt, hdrive, hgroups⟩ := claimsCode_digits hs.distinct i
      rw [reportThrottles_some hfound he]
      have hclaims : halfAt (throttlesHead s ((occupiedFrom s (i + 1)).getD 0xFF) ++ reportEntry s i e) 19 = claimsCode s i :=
        halfAt_of_get rfl rfl hlt
      refine ⟨rfl, byteAt_of_get rfl (by omega), wordAt_of_get rfl rfl rfl rfl, ?_, rfl,
        halfAt_of_get rfl rfl (ageTenths_lt _ _), ?_, byteAt_of_get rfl, halfAt_of_get rfl rfl, fun h => ?_,
        fun j hj hij hpres hno => ?_, fun h => ?_, fun h hh hsrc => ?_, fun g hg => ?_⟩
      · refine byteAt_of_get rfl ?_ |>.trans ?_
        · unfold bit
          split <;> omega
        · unfold bit
          rfl
      · cases hl : e.lostSince with
        | none => exact halfAt_of_get (n := 0) (by rw [reportEntry, hl]; rfl) (by rw [reportEntry, hl]; rfl) (by decide)
        | some since =>
          exact halfAt_of_get (by rw [reportEntry, hl]; rfl) (by rw [reportEntry, hl]; rfl) (ageTenths_lt _ _)
      · rw [occupiedFrom_none fun j hj hij hsome => h j hj (by omega) ⟨hj, hsome⟩]
        rfl
      · rw [occupiedFrom_some hj (by omega) hpres.2 fun k hk hik hsome => hno k hk (by omega) ⟨by omega, hsome⟩]
        exact byteAt_of_get rfl (by omega)
      · rw [hclaims, hdrive, sum_itemCode_none h]
      · rw [hclaims, hdrive, sum_itemCode_named hs.distinct hh hsrc]
      · rw [hclaims, hgroups g hg]
        unfold groupItemCode
        cases s.groups.getD g none with
        | none => rfl
        | some h => rfl
  case functions =>
    have hgroup := groupSwitches_get hi hsw
    have hlength := groupSwitches_length hg hl
    have hsetter := reportFunctions_setter hgroup
    refine ⟨?_, switchBits_digit hlength hgroup hi _, switchBits_digit hlength hgroup hi _, fun h => ?_, fun h => ?_,
      fun h => ?_, fun k hk h => ?_⟩
    · unfold reportFunctions
      rw [List.length_append, List.length_map, hlength]
      rfl
    · rw [hsetter, h]
      rfl
    · rw [hsetter, h]
      rfl
    · rw [hsetter, h]
      rfl
    · rw [hsetter, writerCode_throttle hk h]

end Sys2Proof.Machine
end

section
/-! CONSIST_HOLD, the local master's requests and the timers (R17, R41, R89, R90, R100, R104, R112, R139, R142, R164, R165,
R172); O35, O36 and O37. -/

namespace Sys2Proof.Machine

/-! ### A targeted stop is installed (R38, R39, R41) -/

/-- The entry of a targeted stop in APPROACH (R38). -/
def stopEntry (decel : Decel) (dwell : Option Nat) (rev : Bool) (o : Origin) (now : Time) : Hold :=
  { source := .beacon, kind := .stop, capValue := 0, decel := decel, expiry := .absent, phase := some .approach,
    dwell := dwell, reverseAtEnd := rev, origin := some o, created := now }

theorem map_beacon_id {h' : Hold} {l : List Hold} (hno : ∀ x ∈ l, x.source ≠ .beacon) :
    l.map (fun x => if x.source = .beacon then h' else x) = l := by
  refine (List.map_congr_left fun x hx => ?_).trans (List.map_id l)
  exact if_neg (hno x hx)

/-- With one entry for each source, the entry just installed is the BEACON entry. -/
theorem map_beacon_insertHold {h h' : Hold} (hs : h.source = .beacon) (hs' : h'.source = .beacon) {l : List Hold}
    (hd : (l.map (·.source)).Nodup) :
    (insertHold h l).map (fun x => if x.source = .beacon then h' else x) = insertHold h' l := by
  induction l with
  | nil =>
    unfold insertHold
    rw [List.map_singleton, if_pos hs]
  | cons a l ih =>
    rw [List.map_cons] at hd
    obtain ⟨hnot, hrest⟩ := List.nodup_cons.1 hd
    unfold insertHold
    rw [hs, hs']
    split
    · rename_i ha
      rw [List.map_cons, if_pos hs, map_beacon_id fun x hx hxs => hnot (List.mem_map.2 ⟨x, hx, hxs.trans ha.symm⟩)]
    · rename_i ha
      rw [List.map_cons, if_neg ha, ih hrest]

section InstallStop

variable {decel : Decel} {dwell : Option Nat} {rev : Bool} {o : Origin} {s : State}

theorem installStop_refused (h : originTaken s o = false) : installStop decel dwell rev o s = s := by
  unfold installStop
  rw [h]
  rfl

theorem installStop_approaches (h : originTaken s o = true) (hr : s.pub.R ≠ 0) :
    installStop decel dwell rev o s = { s with holds := insertHold (stopEntry decel dwell rev o s.partTime) s.holds } := by
  unfold installStop
  rw [if_pos h]
  exact if_neg hr

theorem installStop_dwells (h : originTaken s o = true) (hr : s.pub.R = 0) (hdwell : dwell ≠ some 0)
    (hd : HoldsDistinct s) : installStop decel dwell rev o s = { s with holds := insertHold { stopEntry decel dwell rev o
      s.partTime with phase := some .dwell, expiry := dwellExpiry s.partTime dwell } s.holds } := by
  have hmap := map_beacon_insertHold (h := stopEntry decel dwell rev o s.partTime)
    (h' := { stopEntry decel dwell rev o s.partTime with phase := some .dwell, expiry := dwellExpiry s.partTime dwell })
    rfl rfl hd
  rw [← hmap]
  unfold installStop
  rw [if_pos h]
  dsimp only
  rw [if_pos (by exact hr)]
  unfold enterDwell
  exact if_neg hdwell

/-- The entry of a beacon cap, its distance limit in du (R40). -/
def capEntry (value limit : Nat) (o : Origin) (s : State) : Hold :=
  { source := .beacon, kind := .cap, capValue := value, decel := .normal, phase := none, dwell := none,
    reverseAtEnd := false, origin := some o, created := s.partTime,
    expiry := if limit = 0 then .absent else .atOdometer (s.pub.odometer + BitVec.ofNat 32 limit) }

theorem installCap_taken {value limit : Nat} (h : originTaken s o = true) :
    installCap value limit o s = { s with holds := insertHold (capEntry value limit o s) s.holds } := if_pos h

theorem installCap_refused {value limit : Nat} (h : originTaken s o = false) : installCap value limit o s = s := by
  unfold installCap
  rw [h]
  rfl

end InstallStop

/-! ### CONSIST_HOLD (R89) -/

theorem exec_consistHold {s : State} {which : Port} {f : Frame} {m : Mark} (hn : nextTaken s = some (which, f))
    (hs : screen s which f = .matched m) (hk : f.kind = 0x40) : exec .consistHold s = .next
      (if f.payload.length < 7 then popIntake which s else consistHoldTaken f.payload (popIntake which s)) := by
  have hrow : exec .consistHold s = execConsistHold s := rfl
  rw [hrow, execConsistHold, frontRequest_eq hn hs _ (ofKind_of_kind_eq hk)]

theorem consistHoldTaken_stop {p : List Byte} {s : State} (h : byteAt p 0 = 0) : consistHoldTaken p s =
    installStop (if halfAt p 1 = 0 then .instant else .rate (clampNat 10 4000 (halfAt p 1)))
      (if byteAt p 4 / 2 % 2 = 1 then none else some (byteAt p 3)) (byteAt p 4 % 2 == 1) .consist s := if_pos h

theorem consistHoldTaken_cap {p : List Byte} {s : State} (h : byteAt p 0 = 1) :
    consistHoldTaken p s = installCap (min 4000 (halfAt p 1)) (halfAt p 5 * 100) .consist s :=
  (if_neg (by omega)).trans (if_pos h)

theorem consistHoldTaken_other {p : List Byte} {s : State} (h : 1 < byteAt p 0) : consistHoldTaken p s = s :=
  (if_neg (by omega)).trans (if_neg (by omega))

theorem consistHoldTaken_elsewhere {p : List Byte} {s : State} (h : originTaken s .consist = false) :
    consistHoldTaken p s = s := by
  unfold consistHoldTaken
  dsimp only
  rw [installStop_refused h, installCap_refused h, ite_self, ite_self]

theorem popIntake_pub_holds_settings (which : Port) (s : State) : (popIntake which s).pub = s.pub ∧
    (popIntake which s).holds = s.holds ∧ (popIntake which s).settings = s.settings ∧
    (popIntake which s).partTime = s.partTime := by cases which <;> exact ⟨rfl, rfl, rfl, rfl⟩

/-- Settles O35: a CONSIST_HOLD is an installation of origin CONSIST, which only a MID or TRAIL takes. -/
theorem consistHoldIsInstalled : Obligations.ConsistHoldIsInstalled := by
  unfold Obligations.ConsistHoldIsInstalled
  intro s which f m hn hs hk
  obtain ⟨hpub, hholds, hset, hnow⟩ := popIntake_pub_holds_settings which s
  have hmember : originTaken (popIntake which s) .consist = true ↔ IsMember s := by
    rw [Steer.originTaken_consist, isMember_of_settings hset]
  rw [exec_consistHold hn hs hk]
  refine ⟨fun hlen hm h0 hr => ?stands, fun hlen hm h0 hr hdwell hd => ?dwells, fun hlen hm h1 => ?cap, fun h => ?none⟩
  case stands =>
    rw [if_neg (Nat.not_lt.2 hlen), consistHoldTaken_stop h0, installStop_approaches (hmember.2 hm) (by rwa [hpub]), hholds,
      hnow]
    rfl
  case dwells =>
    have hd' : HoldsDistinct (popIntake which s) := by
      unfold HoldsDistinct
      rwa [hholds]
    rw [if_neg (Nat.not_lt.2 hlen), consistHoldTaken_stop h0,
      installStop_dwells (hmember.2 hm) (by rwa [hpub]) hdwell hd', hholds, hnow]
    generalize (if byteAt f.payload 4 / 2 % 2 = 1 then none else some (byteAt f.payload 3)) = dwell
    cases dwell <;> rfl
  case cap =>
    have hlimit : halfAt f.payload 5 * 100 = 0 ↔ halfAt f.payload 5 = 0 := by omega
    rw [if_neg (Nat.not_lt.2 hlen), consistHoldTaken_cap h1, installCap_taken (hmember.2 hm), hholds]
    unfold capEntry
    rw [hpub, hnow]
    simp only [hlimit]
  case none =>
    by_cases hlen : f.payload.length < 7
    · rw [if_pos hlen]
    · rw [if_neg hlen]
      rcases h with h | h | h
      · exact absurd h hlen
      · rw [consistHoldTaken_elsewhere (Bool.eq_false_iff.2 (mt hmember.1 h))]
      · rw [consistHoldTaken_other h]

/-! ### The local master's requests (R86, R90, R104, R164) -/

theorem localOnly_throttle {act : State → Answer × State} {a : Asked} {s : State} {i : Nat} (h : a.src = .throttle i) :
    localOnly act a s = (.status .notLocal 0, s) := by
  refine if_neg ?_
  rw [h]
  exact nofun

theorem localOnly_local {act : State → Answer × State} {a : Asked} {s : State} (h : a.src = .localMaster) :
    localOnly act a s = act s := if_pos h

section LocalRows

variable {s t : State} {f : Frame} {m : Mark} {src : Source}

theorem exec_learn_dispatched (h : Dispatched s f m src t) (hk : f.kind = 0x30) (hlen : 1 ≤ f.payload.length) :
    exec .learn s = .next (replied s f m src (actLearn f.payload { frame := f, mark := m, src := src } t)) := by
  have hrow : exec .learn s = .next (takeRequest (ofKind 0x30) (withPayload 1 actLearn) s) := rfl
  rw [exec_taken_dispatched hrow h (ofKind_of_kind_eq hk), withPayload_long hlen]

theorem exec_outputLocal_dispatched (h : Dispatched s f m src t) (hk : f.kind = 0x31) (hlen : 3 ≤ f.payload.length) :
    exec .outputLocal s = .next (replied s f m src (actOutputLocal f.payload { frame := f, mark := m, src := src } t)) := by
  have hrow : exec .outputLocal s = .next (takeRequest (ofKind 0x31) (withPayload 3 actOutputLocal) s) := rfl
  rw [exec_taken_dispatched hrow h (ofKind_of_kind_eq hk), withPayload_long hlen]

theorem exec_reset_dispatched (h : Dispatched s f m src t) (hk : f.kind = 0x32) :
    exec .reset s = .next (replied s f m src (actReset { frame := f, mark := m, src := src } t)) := by
  have hrow : exec .reset s = .next (takeRequest (ofKind 0x32) actReset s) := rfl
  rw [exec_taken_dispatched hrow h (ofKind_of_kind_eq hk)]

theorem exec_cfgOpen_dispatched (h : Dispatched s f m src t) (hk : f.kind = 0x10) (hlen : 6 ≤ f.payload.length) :
    exec .cfgOpen s = .next (replied s f m src (actCfgOpen f.payload { frame := f, mark := m, src := src } t)) := by
  have hrow : exec .cfgOpen s = .next (takeRequest (ofKind 0x10) (withPayload 6 actCfgOpen) s) := rfl
  rw [exec_taken_dispatched hrow h (ofKind_of_kind_eq hk), withPayload_long hlen]

end LocalRows

theorem updateAt_get_other {α : Type} {i j : Nat} (h : j ≠ i) (l : List α) (g : α → α) :
    (updateAt l i g)[j]? = l[j]? := by
  unfold updateAt
  rw [List.getElem?_modify]
  simp [Ne.symm h]

theorem updateAt_get_same {α : Type} {l : List α} {i : Nat} {x : α} (h : l[i]? = some x) (g : α → α) :
    (updateAt l i g)[i]? = some (g x) := by
  unfold updateAt
  rw [List.getElem?_modify, h]
  simp

theorem updateAt_of_get {α : Type} {l : List α} {i : Nat} {x : α} (h : l[i]? = some x) (g : α → α) :
    updateAt l i g = l.set i (g x) := by
  refine List.ext_getElem? fun j => ?_
  rw [List.getElem?_set]
  split
  · rename_i hij
    subst hij
    rw [updateAt_get_same h, if_pos (List.getElem?_eq_some_iff.1 h).1]
  · rename_i hij
    exact updateAt_get_other (Ne.symm hij) l g

/-- OUTPUT_LOCAL sets one output and leaves the others (R104). -/
theorem outputLocal_get (n mode level : Nat) (s : State) :
    (∀ k, k ≠ n → (outputLocal n mode level s).outputs[k]? = s.outputs[k]?) ∧
    (∀ o, s.outputs[n]? = some o → (outputLocal n mode level s).outputs[n]? =
      some (o.control (if mode = 1 then .localLevel else .function) level)) := by
  unfold outputLocal
  exact ⟨fun k hk => updateAt_get_other hk _ _, fun o ho => updateAt_get_same ho _⟩

theorem control_eq {o : Output} {mode level : Nat} (h : mode ≤ 1) :
    o.control (if mode = 1 then .localLevel else .function) level =
      if o.mode = .localLevel ∧ mode = 0 then
        { o with mode := .function, localLevel := level, fade := 0, counter := 0, lastDemand := false }
      else { o with mode := if mode = 1 then .localLevel else .function, localLevel := level } := by
  rcases Nat.le_one_iff_eq_zero_or_eq_one.1 h with rfl | rfl
  · unfold Output.control
    simp
  · unfold Output.control
    simp

/-- Settles O36. -/
theorem localMasterRequests : Obligations.LocalMasterRequests := by
  unfold Obligations.LocalMasterRequests
  intro s f m src t h
  refine ⟨fun i hsrc => ⟨fun hk hlen => ?learnRefused, fun hk hlen => ?outputRefused, fun hk => ?resetRefused,
    fun hk hlen hbank => ?bankRefused⟩, fun hsrc => ⟨fun hk hlen hslot => ?learnRange, fun hk hlen hslot => ?learnArmed,
      fun hk hlen hbad => ?outputRange, fun hk hlen hn hmode => ?outputSet, fun hk => ?reset⟩⟩
  case learnRefused =>
    refine (exec_learn_dispatched h hk hlen).trans ?_
    unfold actLearn
    rw [localOnly_throttle hsrc]
  case outputRefused =>
    refine (exec_outputLocal_dispatched h hk hlen).trans ?_
    unfold actOutputLocal
    rw [localOnly_throttle hsrc]
  case resetRefused =>
    refine (exec_reset_dispatched h hk).trans ?_
    unfold actReset
    rw [localOnly_throttle hsrc]
  case bankRefused =>
    refine (exec_cfgOpen_dispatched h hk hlen).trans ?_
    unfold actCfgOpen
    rw [if_pos ⟨hbank, by rw [hsrc]; exact nofun⟩]
  case learnRange =>
    refine (exec_learn_dispatched h hk hlen).trans ?_
    unfold actLearn
    rw [localOnly_local hsrc, if_pos hslot]
  case learnArmed =>
    refine (exec_learn_dispatched h hk hlen).trans ?_
    unfold actLearn
    rw [localOnly_local hsrc, if_neg (Nat.not_lt.2 hslot)]
    rfl
  case outputRange =>
    refine (exec_outputLocal_dispatched h hk hlen).trans ?_
    unfold actOutputLocal
    rw [localOnly_local hsrc, if_pos hbad]
  case outputSet =>
    obtain ⟨hothers, hset⟩ := outputLocal_get (byteAt f.payload 0) (byteAt f.payload 1) (byteAt f.payload 2) t
    refine ⟨outputLocal (byteAt f.payload 0) (byteAt f.payload 1) (byteAt f.payload 2) t, ?_, rfl, hothers, fun o ho => ?_⟩
    · refine (exec_outputLocal_dispatched h hk hlen).trans ?_
      unfold actOutputLocal
      rw [localOnly_local hsrc, if_neg (by omega)]
    · rw [hset o ho, control_eq hmode]
  case reset =>
    refine (exec_reset_dispatched h hk).trans ?_
    unfold actReset
    rw [localOnly_local hsrc]

/-! ### The timers (R17, R100, R112, R139, R142, R165, R172) -/

theorem exec_faultRetry (s : State) : exec .faultRetry s = .next (faultRetried s) := rfl
theorem exec_groupRetry (g : Nat) (s : State) : exec (.groupRetry g) s = .next (groupRetried g s) := rfl
theorem exec_momentaryExpiry (i : Nat) (s : State) : exec (.momentaryExpiry i) s = .next (switchExpires i s) := rfl
theorem exec_puffEnd (s : State) : exec .puffEnd s = .next (puffEnds s) := rfl
theorem exec_fanStop (s : State) : exec .fanStop s = .next (fanStops s) := rfl
theorem exec_learnExpiry (s : State) : exec .learnExpiry s = .next (learnExpires s) := rfl
theorem exec_cfgTimeout (s : State) : exec .cfgTimeout s = .next (txnTimeout s) := rfl

theorem faultRetried_due {s : State} {k : FaultKind} {due : Time}
    (h : s.motor.fault = some { kind := k, retry := some due }) : faultRetried s = if reached s.partTime due = true then
      { s with motor := { s.motor with fault := none, state := .stopped }
               holds := s.holds.filter (fun h => h.source != .motorFault) } else s := by
  unfold faultRetried
  rw [h]
  rfl

theorem faultRetried_latched {s : State} {k : FaultKind} (h : s.motor.fault = some { kind := k, retry := none }) :
    faultRetried s = s := by
  unfold faultRetried
  rw [h]

theorem groupRetried_due {s : State} {g : Nat} {due : Time} (h : s.trips[g]? = some (some due)) :
    groupRetried g s = if reached s.partTime due = true then { s with trips := s.trips.set g none } else s := by
  unfold groupRetried
  rw [h]
  dsimp only
  rw [updateAt_of_get h]

theorem switchExpires_due {s : State} {i : Nat} {sw : Switch} {due : Time} (h : s.switches[i]? = some sw)
    (he : sw.expiry = some due) : switchExpires i s = if reached s.partTime due = true then
      featureEvents s { s with switches := s.switches.set i { sw with on := false, expiry := none } } else s := by
  obtain ⟨on, setter, expiry⟩ := sw
  obtain rfl : expiry = some due := he
  unfold switchExpires
  rw [h]
  dsimp only
  rw [updateAt_of_get h]

theorem puffEnds_due {s : State} {due : Time} (h : s.smoke.puffEnd = some due) :
    puffEnds s = if reached s.partTime due = true then setFan .idle s else s := by
  unfold puffEnds
  rw [h]

theorem fanStops_due {s : State} {due : Time} (h : s.smoke.fault = some (.sensor due)) :
    fanStops s = if reached s.partTime due = true then setFan .stopped s else s := by
  unfold fanStops
  rw [h]

theorem setFan_idle_puff {s : State} (h : s.smoke.fan = .puff) : setFan .idle s = { s with smoke := { s.smoke with
    fan := .idle, puffEnd := none, fanLevel := set8 s 230, inUse := { s.smoke.inUse with idle := set8 s 230 } } } := by
  unfold setFan
  dsimp only
  rw [if_pos h]

theorem setFan_stopped_of_no_puff {s : State} (h : s.smoke.fan ≠ .puff) :
    setFan .stopped s = { s with smoke := { s.smoke with fan := .stopped, puffEnd := none, fanLevel := 0 } } := by
  unfold setFan
  dsimp only
  rw [if_neg h]

theorem learnExpires_due {s : State} {due : Time} (h : s.beacon.learnExpiry = some due) : learnExpires s =
    if reached s.partTime due = true then { s with beacon := { s.beacon with
      learn := { s.beacon.learn with state := .cancelled, time := s.partTime }
      learnExpiry := none
      state := if s.beacon.state = .learnArmed then .idle
        else if s.beacon.state = .learnCapture then .capture else s.beacon.state } } else s := by
  unfold learnExpires
  rw [h]
  dsimp only
  cases s.beacon.state <;> rfl

theorem txnTimeout_due {s : State} (hs : s.txn.state ≠ .closed) (h : reached s.partTime (s.txn.lastFrame + 2000) = true) :
    txnTimeout s = endTxn s := if_pos ⟨hs, h⟩

theorem txnTimeout_early {s : State} (h : reached s.partTime (s.txn.lastFrame + 2000) = false) : txnTimeout s = s :=
  if_neg fun hd => Bool.false_ne_true (h.symm.trans hd.2)

/-- Two states that differ in the loads alone differ in the Sound Engine, the Flash Port, the Smoke Controller, the
supply and the free-value counter. -/
theorem eq_of_offLoads {s t : State} (h : t.offLoads = s.offLoads) : t = { s with
    sound := t.sound, port := t.port, smoke := t.smoke, supply := t.supply, freeCount := t.freeCount } :=
  (congrArg (fun u : State => { u with
    sound := t.sound, port := t.port, smoke := t.smoke, supply := t.supply, freeCount := t.freeCount }) h :)

/-- What a change of the switches brings about (R102): the demand's step, the loads, and nothing else. -/
theorem featureEvents_switches (s : State) (sws : List Switch) :
    let t := featureEvents s { s with switches := sws }
    t.demand = (if asked s 42 = false ∧ asked t 42 = true then { s.demand with step := 0 } else s.demand) ∧
      t = { s with switches := sws, sound := t.sound, port := t.port, smoke := t.smoke, demand := t.demand
                   freeCount := t.freeCount } := by
  intro t
  have hview : t.offLoads = (braked s { s with switches := sws }).offLoads := featureEvents_offLoads s _
  have hsupply : t.supply = s.supply := featureEvents_supply s _
  have hasked : asked t = asked { s with switches := sws } := asked_featureEvents s _
  have heq := eq_of_offLoads hview
  rw [hsupply] at heq
  have hbraked : (braked s { s with switches := sws }).demand =
      if asked s 42 = false ∧ asked { s with switches := sws } 42 = true then { s.demand with step := 0 } else s.demand := by
    unfold braked
    split <;> rfl
  have hdemand : t.demand = (braked s { s with switches := sws }).demand := (congrArg State.demand hview :)
  refine ⟨?_, ?_⟩
  · rw [hdemand, hbraked, hasked]
  · rw [hdemand]
    refine heq.trans ?_
    unfold braked
    split <;> rfl

/-- Settles O37: each timer by its own equation; a switch by what its feature change brings about. -/
theorem dueTimersAct : Obligations.DueTimersAct := by
  unfold Obligations.DueTimersAct
  intro s
  refine ⟨fun k due h => ?retry, fun k h => ?latched, fun g due h => ?group, fun i sw due h he => ⟨fun hr => ?switch,
    fun hr => ?switchOn⟩, fun due h => ⟨fun hr hf => ?puff, fun hr => ?puffing⟩, fun due h hf => ?fan, fun due h => ?learn,
    fun hs => ⟨fun hr => ?txn, fun hr => ?txnOpen⟩⟩
  case retry =>
    rw [exec_faultRetry, faultRetried_due h]
    exact ⟨fun hr => by rw [if_pos hr], fun hr => by rw [hr]; rfl⟩
  case latched => rw [exec_faultRetry, faultRetried_latched h]
  case group =>
    rw [exec_groupRetry, groupRetried_due h]
    exact ⟨fun hr => by rw [if_pos hr], fun hr => by rw [hr]; rfl⟩
  case switch =>
    rw [exec_momentaryExpiry, switchExpires_due h he, if_pos hr]
    generalize hsws : s.switches.set i { sw with on := false, expiry := none } = sws
    obtain ⟨hdemand, hframe⟩ := featureEvents_switches s sws
    have hswitches : (featureEvents s { s with switches := sws }).switches = sws := (congrArg State.switches hframe :)
    refine ⟨_, rfl, hswitches, fun ha => ?_, ?_, hdemand, ?_⟩
    · rw [asked_featureEvents] at ha
      exact featureEvents_smoke ha
    · rw [hswitches]
      exact (featureEvents_hears s _).sound_port
    · rw [hswitches]
      exact hframe
  case switchOn =>
    rw [exec_momentaryExpiry, switchExpires_due h he, hr]
    rfl
  case puff => rw [exec_puffEnd, puffEnds_due h, if_pos hr, setFan_idle_puff hf]
  case puffing =>
    rw [exec_puffEnd, puffEnds_due h, hr]
    rfl
  case fan =>
    rw [exec_fanStop, fanStops_due h, setFan_stopped_of_no_puff hf]
    exact ⟨fun hr => by rw [if_pos hr], fun hr => by rw [hr]; rfl⟩
  case learn =>
    rw [exec_learnExpiry, learnExpires_due h]
    exact ⟨fun hr => by rw [if_pos hr], fun hr => by rw [hr]; rfl⟩
  case txn =>
    rw [exec_cfgTimeout, txnTimeout_due hs hr]
    obtain ⟨hclosed, hstaged⟩ := txnEnded_endTxn s
    have hframe : endTxn s = { s with txn := (endTxn s).txn, sound := (endTxn s).sound, port := (endTxn s).port } := by
      have hended := endTxn_frame s
      have htxn := congrArg State.txn hended
      rw [htxn]
      exact hended
    exact ⟨_, rfl, hclosed, hstaged, hframe⟩
  case txnOpen => rw [exec_cfgTimeout, txnTimeout_early hr]

end Sys2Proof.Machine
end

section
/-! The Output Controller's period (R103 to R111): the group senses, the stages of one output, the light demand; O38 and
O39. -/

namespace Sys2Proof.Machine

theorem exec_outputPeriod {s : State} (h : s.phase = .running) (ma0 ma1 : Nat) :
    exec (.outputPeriod ma0 ma1) s = .next (outputPeriod ma0 ma1 s) := by
  have hrow : exec (.outputPeriod ma0 ma1) s = execOutputPeriod ma0 ma1 s := rfl
  rw [hrow, execOutputPeriod, if_pos h]

/-! ### The group senses (R111, R112) -/

/-- A NORMAL group draws too much. -/
def Overloads (s : State) (g ma : Nat) : Prop := s.trips[g]? = some none ∧ 500 < ma

/-- The Fault List after one report of an overload. -/
def overloadReported (now : Time) (l : List FaultRecord) : List FaultRecord := updateAt l 3 (fun r => r.report false now)

theorem groupTripped_false_iff {s : State} {g : Nat} (hg : g < s.trips.length) :
    groupTripped s g = false ↔ s.trips[g]? = some none := by
  unfold groupTripped
  rw [List.getElem?_eq_getElem hg]
  cases s.trips[g] <;> simp

theorem checkGroup_trips {s : State} {g ma : Nat} (h : Overloads s g ma) : checkGroup g ma s =
    { s with trips := s.trips.set g (some (s.partTime + 2000)), faults := overloadReported s.partTime s.faults } := by
  obtain ⟨hnormal, hma⟩ := h
  have hg : g < s.trips.length := (List.getElem?_eq_some_iff.1 hnormal).1
  unfold checkGroup
  rw [(groupTripped_false_iff hg).2 hnormal, decide_eq_true hma, updateAt_of_get hnormal]
  rfl

theorem checkGroup_stands {s : State} {g ma : Nat} (hg : g < s.trips.length) (h : ¬ Overloads s g ma) :
    checkGroup g ma s = s := by
  refine if_neg fun hc => h ?_
  rw [Bool.and_eq_true, Bool.not_eq_true', decide_eq_true_eq] at hc
  exact ⟨(groupTripped_false_iff hg).1 hc.1, hc.2⟩

/-- The state after the senses of both groups. -/
def sensed (ma0 ma1 : Nat) (s : State) : State := checkGroup 1 ma1 (checkGroup 0 ma0 s)

section Sensed

variable {s : State} {ma0 ma1 : Nat}

theorem overloads_second (hl : s.trips.length = 2) :
    Overloads (checkGroup 0 ma0 s) 1 ma1 ↔ Overloads s 1 ma1 := by
  by_cases h0 : Overloads s 0 ma0
  · rw [checkGroup_trips h0]
    unfold Overloads
    dsimp only
    rw [List.getElem?_set_ne (by decide)]
  · rw [checkGroup_stands (by omega) h0]

theorem checkGroup_trips_length (g ma : Nat) : (checkGroup g ma s).trips.length = s.trips.length := by
  unfold checkGroup
  split
  · exact List.length_modify ..
  · rfl

theorem checkGroup_frame (g ma : Nat) (s : State) :
    checkGroup g ma s = { s with trips := (checkGroup g ma s).trips, faults := (checkGroup g ma s).faults } := by
  unfold checkGroup
  split <;> rfl

theorem sensed_frame (ma0 ma1 : Nat) (s : State) :
    sensed ma0 ma1 s = { s with trips := (sensed ma0 ma1 s).trips, faults := (sensed ma0 ma1 s).faults } := by
  have h0 := checkGroup_frame 0 ma0 s
  have h1 := checkGroup_frame 1 ma1 (checkGroup 0 ma0 s)
  unfold sensed
  generalize checkGroup 0 ma0 s = u at *
  generalize checkGroup 1 ma1 u = v at *
  rw [h1, h0]

/-- What each group's sense does to the trips and to the Fault List. -/
theorem sensed_eq (hl : s.trips.length = 2) :
    (Overloads s 0 ma0 → Overloads s 1 ma1 →
      (sensed ma0 ma1 s).trips = (s.trips.set 0 (some (s.partTime + 2000))).set 1 (some (s.partTime + 2000)) ∧
      (sensed ma0 ma1 s).faults = overloadReported s.partTime (overloadReported s.partTime s.faults)) ∧
    (Overloads s 0 ma0 → ¬ Overloads s 1 ma1 →
      (sensed ma0 ma1 s).trips = s.trips.set 0 (some (s.partTime + 2000)) ∧
      (sensed ma0 ma1 s).faults = overloadReported s.partTime s.faults) ∧
    (¬ Overloads s 0 ma0 → Overloads s 1 ma1 →
      (sensed ma0 ma1 s).trips = s.trips.set 1 (some (s.partTime + 2000)) ∧
      (sensed ma0 ma1 s).faults = overloadReported s.partTime s.faults) ∧
    (¬ Overloads s 0 ma0 → ¬ Overloads s 1 ma1 →
      (sensed ma0 ma1 s).trips = s.trips ∧ (sensed ma0 ma1 s).faults = s.faults) := by
  have hsecond : Overloads (checkGroup 0 ma0 s) 1 ma1 ↔ Overloads s 1 ma1 := overloads_second hl
  have hlen : 1 < (checkGroup 0 ma0 s).trips.length := by
    rw [checkGroup_trips_length]
    omega
  unfold sensed
  refine ⟨fun h0 h1 => ?_, fun h0 h1 => ?_, fun h0 h1 => ?_, fun h0 h1 => ?_⟩
  · rw [checkGroup_trips (hsecond.2 h1), checkGroup_trips h0]
    exact ⟨rfl, rfl⟩
  · rw [checkGroup_stands hlen (mt hsecond.1 h1), checkGroup_trips h0]
    exact ⟨rfl, rfl⟩
  · rw [checkGroup_trips (hsecond.2 h1), checkGroup_stands (by omega) h0]
    exact ⟨rfl, rfl⟩
  · rw [checkGroup_stands hlen (mt hsecond.1 h1), checkGroup_stands (by omega) h0]
    exact ⟨rfl, rfl⟩

/-- An overload is no latched report, so no record becomes LATCHED by it or ceases to be. -/
theorem overloadReported_latched (now : Time) (l : List FaultRecord) :
    (∃ r ∈ overloadReported now l, r.status = .latched) ↔ ∃ r ∈ l, r.status = .latched := by
  have hkeeps (r : FaultRecord) : (r.report false now).status = .latched ↔ r.status = .latched := by
    unfold FaultRecord.report
    cases r.status <;> simp
  unfold overloadReported updateAt
  constructor
  · rintro ⟨r, hr, hlatched⟩
    obtain ⟨i, hi⟩ := List.mem_iff_getElem?.1 hr
    rw [List.getElem?_modify] at hi
    cases hx : l[i]? with
    | none =>
      rw [hx] at hi
      cases hi
    | some x =>
      rw [hx] at hi
      refine ⟨x, List.mem_iff_getElem?.2 ⟨i, hx⟩, ?_⟩
      by_cases h3 : 3 = i
      · simp [h3] at hi
        exact (hkeeps x).1 (hi ▸ hlatched)
      · simp [h3] at hi
        exact hi ▸ hlatched
  · rintro ⟨r, hr, hlatched⟩
    obtain ⟨i, hi⟩ := List.mem_iff_getElem?.1 hr
    by_cases h3 : 3 = i
    · exact ⟨_, List.mem_iff_getElem?.2 ⟨i, by rw [List.getElem?_modify, hi, h3]; simp⟩, (hkeeps r).2 hlatched⟩
    · exact ⟨r, List.mem_iff_getElem?.2 ⟨i, by rw [List.getElem?_modify, hi]; simp [h3]⟩, hlatched⟩

theorem anyLatched_iff (s : State) : anyLatched s = true ↔ ∃ r ∈ s.faults, r.status = .latched := by
  unfold anyLatched
  rw [List.any_eq_true]
  exact exists_congr fun r => and_congr_right fun _ => beq_iff_eq

theorem anyLatched_sensed (hl : s.trips.length = 2) : anyLatched (sensed ma0 ma1 s) = anyLatched s := by
  obtain ⟨hboth, hfirst, hsecond, hnone⟩ := sensed_eq (ma0 := ma0) (ma1 := ma1) hl
  rw [Bool.eq_iff_iff, anyLatched_iff, anyLatched_iff]
  by_cases h0 : Overloads s 0 ma0 <;> by_cases h1 : Overloads s 1 ma1
  · rw [(hboth h0 h1).2, overloadReported_latched, overloadReported_latched]
  · rw [(hfirst h0 h1).2, overloadReported_latched]
  · rw [(hsecond h0 h1).2, overloadReported_latched]
  · rw [(hnone h0 h1).2]

end Sensed

/-! ### The stages of one output (R105 to R109) -/

/-- A FLICKER or FIREBOX of a depth while its output is lit: a value is drawn as the counter returns to 0 and as the
demand comes on (R106; log 27). -/
def flickered (s : State) (n depth : Nat) (o : Output) : Nat × Output :=
  let b := outByte s n 1
  let p := outByte s n 5
  let draws := p ≤ o.counter + 1 ∨ o.lastDemand = false
  let gen := if draws then (o.generator * 25173 + 13849) % 65536 else o.generator
  let drawn := if draws then gen / 256 else o.drawn
  (b - b * depth * drawn / 65025,
    { o with counter := if p ≤ o.counter + 1 then 0 else o.counter + 1, generator := gen, drawn := drawn })

theorem flickerStep_eq (s : State) (n depth : Nat) (o : Output) :
    (flickerLevel (outByte s n 1) depth (flickerStep o (outByte s n 5)).drawn, flickerStep o (outByte s n 5)) =
      flickered s n depth o := by
  unfold flickered flickerStep flickerLevel drawFlicker nextCount
  by_cases h : outByte s n 5 ≤ o.counter + 1 <;> cases hd : o.lastDemand <;> simp [h]

/-- The effect stage by its code (R106): a fade moves in any case, every other effect shows nothing while the output is
not lit. -/
def effectShape (s : State) (n : Nat) (lit : Bool) (o : Output) : Nat × Output :=
  let code := outByte s n 0
  let b := outByte s n 1
  let fade := moveFade o.fade (if lit = true then b else 0) b (outByte s n 3)
  if code = 3 then (fade, { o with fade := fade })
  else if lit = false then (0, o)
  else if code = 1 ∨ code = 4 then
    flickered s n (if code = 4 then fireboxDepth (outByte s n 6) s.pub.L else outByte s n 6) o
  else if code = 2 then
    (if (strobeStep o (outByte s n 5)).counter < max 1 (outByte s n 5 / 4) then b else 0, strobeStep o (outByte s n 5))
  else (b, o)

theorem effectStage_eq (s : State) (n : Nat) (lit : Bool) (o : Output) : effectStage s n lit o =
    ((effectShape s n lit o).1, { (effectShape s n lit o).2 with lastDemand := lit }) := by
  have h1 := flickerStep_eq s n (outByte s n 6) o
  have h4 := flickerStep_eq s n (fireboxDepth (outByte s n 6) s.pub.L) o
  unfold effectStage effectShape effectOf
  dsimp only
  by_cases c3 : outByte s n 0 = 3
  · rw [if_pos c3, if_pos c3]
  · rw [if_neg c3, if_neg c3]
    cases lit with
    | false => rfl
    | true =>
      rw [if_neg (by decide : ¬ (!true) = true), if_neg (by decide : ¬ true = false)]
      by_cases c1 : outByte s n 0 = 1
      · rw [if_pos c1, if_pos (.inl c1), if_neg (by omega), ← h1]
      · rw [if_neg c1]
        by_cases c4 : outByte s n 0 = 4
        · rw [if_neg (by omega), if_pos c4, if_pos (.inr c4), if_pos c4, ← h4]
        · rw [if_neg (by omega : ¬ (outByte s n 0 = 1 ∨ outByte s n 0 = 4)), if_neg c4]

/-- The consist gate and the fault blink by the output's mode byte (R107). -/
theorem gateAndBlink_eq (s : State) (n level : Nat) : gateAndBlink s n level =
    if 64 ≤ outByte s n 2 % 128 ∧ (∃ r ∈ s.faults, r.status = .latched) then
      (if s.partTime.toNat % 1000 < 500 then 255 else 0)
    else if outByte s n 2 / 8 % 2 = 1 ∧ IsMember s then 0 else level := by
  have hblink : (faultBlink s n && anyLatched s) = true ↔
      64 ≤ outByte s n 2 % 128 ∧ ∃ r ∈ s.faults, r.status = .latched := by
    rw [Bool.and_eq_true, anyLatched_iff]
    refine and_congr_left fun _ => ?_
    unfold faultBlink
    rw [beq_iff_eq]
    omega
  have hgate : (leadOnly s n && (consistPosition s == .mid || consistPosition s == .trail)) = true ↔
      outByte s n 2 / 8 % 2 = 1 ∧ IsMember s := by
    unfold leadOnly IsMember
    rw [Bool.and_eq_true, Bool.or_eq_true, beq_iff_eq, beq_iff_eq, beq_iff_eq]
  unfold gateAndBlink
  dsimp only
  rw [if_congr hblink rfl (if_congr hgate rfl rfl)]

/-- The park behaviour that counts: KEEP outside PARKED and for an output in LOCAL mode (R108). -/
def parkInForce (s : State) (n : Nat) (o : Output) : Nat :=
  if s.supply.state = .parked ∧ o.mode = .function then outByte s n 2 / 16 % 4 else 2

theorem supplyScale_eq (s : State) (n : Nat) (o : Output) (level : Nat) : supplyScale s n (o.mode == .function) level =
    if s.supply.state = .dark then 0
    else if parkInForce s n o = 0 then 0
    else if parkInForce s n o = 1 then min (level * s.supply.grants.dim / 256) (outByte s n 7)
    else level * s.supply.grants.dim / 256 := by
  unfold supplyScale parkInForce parkBehaviour
  dsimp only
  cases s.supply.state with
  | track => simp
  | ride => simp
  | dark => simp
  | parked => cases o.mode <;> simp

/-- What an output shows before the supply scales it (R105 to R107). -/
def shownLevel (s : State) (n : Nat) (o : Output) : Nat := (levelBeforeSupply s n o).1

/-- The light an output asks for (R109). -/
theorem outputStep_light (s : State) (n : Nat) (o : Output) : (outputStep s n o).2 =
    if 0 < shownLevel s n o ∧ groupTripped s (n / 4) = false ∧ ¬ s.supply.state = .dark ∧ parkInForce s n o ≠ 0
    then 10 * outByte s n 4 else 0 := by
  have hpark : (s.supply.state == .parked && o.mode == .function && parkBehaviour s n == 0) = true ↔
      parkInForce s n o = 0 := by
    unfold parkInForce parkBehaviour
    rw [Bool.and_eq_true, Bool.and_eq_true, beq_iff_eq, beq_iff_eq, beq_iff_eq]
    split
    · rename_i h
      exact and_iff_right h
    · rename_i h
      exact iff_of_false (fun hc => h hc.1) (by decide)
  unfold outputStep
  dsimp only
  refine if_congr ?_ rfl rfl
  rw [Bool.and_eq_true, Bool.and_eq_true, Bool.and_eq_true, decide_eq_true_eq, Bool.not_eq_true', bne_iff_ne,
    Bool.not_eq_true', ← Bool.not_eq_true (s.supply.state == _ && _ && _), hpark, and_assoc, and_assoc]
  rfl

theorem outputStep_final (s : State) (n : Nat) (o : Output) : (outputStep s n o).1 =
    { (levelBeforeSupply s n o).2 with
      final := if groupTripped s (n / 4) = true then 0 else supplyScale s n (o.mode == .function) (shownLevel s n o) } := rfl

/-! ### One output period -/

/-- What an output shows turns on neither the trips nor on which reports stand beside the latched ones. -/
theorem levelBeforeSupply_sensed {s : State} {ma0 ma1 : Nat} (hl : s.trips.length = 2) (n : Nat) (o : Output) :
    levelBeforeSupply (sensed ma0 ma1 s) n o = levelBeforeSupply s n o := by
  have hlatched := anyLatched_sensed (ma0 := ma0) (ma1 := ma1) hl
  rw [sensed_frame] at hlatched ⊢
  unfold levelBeforeSupply gateAndBlink
  rw [hlatched]
  rfl

theorem outputPeriod_frame (ma0 ma1 : Nat) (s : State) : outputPeriod ma0 ma1 s = { s with
    outputs := (outputPeriod ma0 ma1 s).outputs, lightDemand := (outputPeriod ma0 ma1 s).lightDemand
    trips := (sensed ma0 ma1 s).trips, faults := (sensed ma0 ma1 s).faults } := by
  have hperiod : outputPeriod ma0 ma1 s = { sensed ma0 ma1 s with
    outputs := (outputPeriod ma0 ma1 s).outputs, lightDemand := (outputPeriod ma0 ma1 s).lightDemand } := rfl
  have hframe := sensed_frame ma0 ma1 s
  generalize outputPeriod ma0 ma1 s = t at *
  generalize sensed ma0 ma1 s = u at *
  rw [hperiod, hframe]

theorem outputPeriod_outputs (ma0 ma1 : Nat) (s : State) {n : Nat} {o : Output} (h : s.outputs[n]? = some o) :
    (outputPeriod ma0 ma1 s).outputs[n]? = some (outputStep (sensed ma0 ma1 s) n o).1 := by
  have houtputs : (outputPeriod ma0 ma1 s).outputs =
      ((sensed ma0 ma1 s).outputs.mapIdx (fun n o => outputStep (sensed ma0 ma1 s) n o)).map (·.1) := rfl
  have hsame : (sensed ma0 ma1 s).outputs = s.outputs := (congrArg State.outputs (sensed_frame ma0 ma1 s) :)
  rw [houtputs, hsame, List.getElem?_map, List.getElem?_mapIdx, h]
  rfl

theorem outputPeriod_output (ma0 ma1 : Nat) (s : State) {n : Nat} {o' : Output}
    (h : (outputPeriod ma0 ma1 s).outputs[n]? = some o') : ∃ o, s.outputs[n]? = some o ∧
      o' = (outputStep (sensed ma0 ma1 s) n o).1 := by
  cases ho : s.outputs[n]? with
  | none =>
    have houtputs : (outputPeriod ma0 ma1 s).outputs =
        ((sensed ma0 ma1 s).outputs.mapIdx (fun n o => outputStep (sensed ma0 ma1 s) n o)).map (·.1) := rfl
    have hsame : (sensed ma0 ma1 s).outputs = s.outputs := (congrArg State.outputs (sensed_frame ma0 ma1 s) :)
    rw [houtputs, hsame, List.getElem?_map, List.getElem?_mapIdx, ho] at h
    cases h
  | some o =>
    rw [outputPeriod_outputs ma0 ma1 s ho] at h
    exact ⟨o, rfl, (Option.some.inj h).symm⟩

/-- An output after its period, by what the state before the senses says of it. -/
theorem outputPeriod_shown {s : State} {ma0 ma1 n : Nat} {o : Output} (hl : s.trips.length = 2)
    (h : s.outputs[n]? = some o) : (outputPeriod ma0 ma1 s).outputs[n]? = some { (levelBeforeSupply s n o).2 with
      final := if groupTripped (outputPeriod ma0 ma1 s) (n / 4) = true then 0
        else supplyScale s n (o.mode == .function) (shownLevel s n o) } := by
  have hscale (level : Nat) : supplyScale (sensed ma0 ma1 s) n (o.mode == .function) level =
      supplyScale s n (o.mode == .function) level := by
    rw [sensed_frame]
    rfl
  have hlevel := levelBeforeSupply_sensed (ma0 := ma0) (ma1 := ma1) hl n o
  rw [outputPeriod_outputs ma0 ma1 s h, outputStep_final, hscale]
  unfold shownLevel
  rw [hlevel]
  rfl

theorem outputPeriod_light {s : State} {ma0 ma1 : Nat} (hl : s.trips.length = 2) : (outputPeriod ma0 ma1 s).lightDemand =
    (s.outputs.mapIdx (fun n o =>
      if 0 < shownLevel s n o ∧ groupTripped (outputPeriod ma0 ma1 s) (n / 4) = false ∧ ¬ s.supply.state = .dark ∧
        parkInForce s n o ≠ 0 then 10 * outByte s n 4 else 0)).sum := by
  have hlight : (outputPeriod ma0 ma1 s).lightDemand =
      (((sensed ma0 ma1 s).outputs.mapIdx (fun n o => outputStep (sensed ma0 ma1 s) n o)).map (·.2)).sum := rfl
  have hsame : (sensed ma0 ma1 s).outputs = s.outputs := (congrArg State.outputs (sensed_frame ma0 ma1 s) :)
  have hmap (f : Nat → Output → Output × Nat) : (s.outputs.mapIdx f).map (·.2) = s.outputs.mapIdx (fun n o => (f n o).2) :=
    List.ext_getElem? fun i => by
      rw [List.getElem?_map, List.getElem?_mapIdx, List.getElem?_mapIdx, Option.map_map]
      rfl
  rw [hlight, hsame, hmap]
  refine congrArg (fun f => (s.outputs.mapIdx f).sum) (funext fun n => funext fun o => ?_)
  have hshown : shownLevel (sensed ma0 ma1 s) n o = shownLevel s n o :=
    congrArg Prod.fst (levelBeforeSupply_sensed hl n o)
  have htripped : groupTripped (outputPeriod ma0 ma1 s) (n / 4) = groupTripped (sensed ma0 ma1 s) (n / 4) := rfl
  rw [htripped, ← hshown]
  refine (outputStep_light (sensed ma0 ma1 s) n o).trans ?_
  refine if_congr (and_congr_right fun _ => and_congr_right fun _ => ?_) ?_ rfl
  · rw [sensed_frame]
    rfl
  · rw [sensed_frame]
    rfl

/-! ### What the obligations ask -/

theorem groupTripped_sensed {s : State} {ma0 ma1 : Nat} (g : Nat) :
    groupTripped (outputPeriod ma0 ma1 s) g = groupTripped (sensed ma0 ma1 s) g := rfl

/-- An output in LOCAL mode shows its local level and nothing of it moves on. -/
theorem levelBeforeSupply_local {s : State} {n : Nat} {o : Output} (h : o.mode = .localLevel) :
    levelBeforeSupply s n o = (o.localLevel, o) := by
  unfold levelBeforeSupply
  rw [h]

theorem levelBeforeSupply_function {s : State} {n : Nat} {o : Output} (h : o.mode = .function) :
    levelBeforeSupply s n o = (gateAndBlink s n (effectShape s n (outputDemand s n) o).1,
      { (effectShape s n (outputDemand s n) o).2 with lastDemand := outputDemand s n }) := by
  unfold levelBeforeSupply
  rw [h, effectStage_eq]

theorem supplyScale_track {s : State} (h : s.supply.state = .track) (n : Nat) (function : Bool) (level : Nat) :
    supplyScale s n function level = level * s.supply.grants.dim / 256 := by
  unfold supplyScale
  rw [h]

theorem supplyScale_dark {s : State} (h : s.supply.state = .dark) (n : Nat) (function : Bool) (level : Nat) :
    supplyScale s n function level = 0 := by
  unfold supplyScale
  rw [h]

/-- A steady output without a mode of its own is lit just while its feature is asked. -/
theorem outputDemand_plain {s : State} {n : Nat} (h : outByte s n 2 = 0) : outputDemand s n = asked s (1 + n) := by
  unfold outputDemand autoMode
  rw [h]
  exact (Bool.or_false _).trans (Bool.or_false _)

theorem gateAndBlink_plain {s : State} {n : Nat} (h : outByte s n 2 = 0) (level : Nat) :
    gateAndBlink s n level = level := by
  rw [gateAndBlink_eq, h, if_neg (by omega), if_neg (by omega)]

theorem effectShape_steady {s : State} {n : Nat} (h : outByte s n 0 = 0) (lit : Bool) (o : Output) :
    effectShape s n lit o = (if lit = true then outByte s n 1 else 0, o) := by
  unfold effectShape
  dsimp only
  rw [h, if_neg (by decide)]
  cases lit
  · rfl
  · rfl

/-- What each group's sense does to its own trip. -/
theorem sensed_trip {s : State} {ma0 ma1 : Nat} (hl : s.trips.length = 2) {g ma : Nat}
    (hg : (g = 0 ∧ ma = ma0) ∨ (g = 1 ∧ ma = ma1)) :
    (Overloads s g ma → (sensed ma0 ma1 s).trips[g]? = some (some (s.partTime + 2000))) ∧
      (¬ Overloads s g ma → (sensed ma0 ma1 s).trips[g]? = s.trips[g]?) := by
  obtain ⟨hboth, hfirst, hsecond, hnone⟩ := sensed_eq (ma0 := ma0) (ma1 := ma1) hl
  rcases hg with ⟨rfl, rfl⟩ | ⟨rfl, rfl⟩
  · refine ⟨fun h => ?_, fun h => ?_⟩
    · by_cases h1 : Overloads s 1 ma1
      · rw [(hboth h h1).1, List.getElem?_set_ne (by decide), List.getElem?_set_self (by omega)]
      · rw [(hfirst h h1).1, List.getElem?_set_self (by omega)]
    · by_cases h1 : Overloads s 1 ma1
      · rw [(hsecond h h1).1, List.getElem?_set_ne (by decide)]
      · rw [(hnone h h1).1]
  · refine ⟨fun h => ?_, fun h => ?_⟩
    · by_cases h0 : Overloads s 0 ma0
      · rw [(hboth h0 h).1, List.getElem?_set_self (by rw [List.length_set]; omega)]
      · rw [(hsecond h0 h).1, List.getElem?_set_self (by omega)]
    · by_cases h0 : Overloads s 0 ma0
      · rw [(hfirst h0 h).1, List.getElem?_set_ne (by decide)]
      · rw [(hnone h0 h).1]

/-- Settles O38. -/
theorem outputPeriodLightsTheLamps : Obligations.OutputPeriodLightsTheLamps := by
  unfold Obligations.OutputPeriodLightsTheLamps
  intro s ma0 ma1 hrun _ hl
  obtain ⟨hboth, hfirst, hsecond, hnone⟩ := sensed_eq (ma0 := ma0) (ma1 := ma1) hl
  have hframe := outputPeriod_frame ma0 ma1 s
  have htrips : (outputPeriod ma0 ma1 s).trips = (sensed ma0 ma1 s).trips := rfl
  have hfaults : (outputPeriod ma0 ma1 s).faults = (sensed ma0 ma1 s).faults := rfl
  refine ⟨outputPeriod ma0 ma1 s, exec_outputPeriod hrun ma0 ma1, fun g ma hg => ?trip, fun h0 h1 => (hnone h0 h1).2,
    ?once, fun h0 h1 => (hboth h0 h1).2, fun n o ho hoff => ?off, fun n o ho hon htrack => ⟨fun hmode => ?plain,
    fun hmode hcode hbyte => ?steady⟩, fun hdark => ?nolight, ?frame⟩
  case trip => exact sensed_trip hl hg
  case once =>
    rintro (⟨h0, h1⟩ | ⟨h0, h1⟩)
    · exact (hfirst h0 h1).2
    · exact (hsecond h0 h1).2
  case off =>
    obtain ⟨o₀, ho₀, _⟩ := outputPeriod_output ma0 ma1 s ho
    rw [outputPeriod_shown hl ho₀, Option.some.injEq] at ho
    rw [← ho]
    rcases hoff with htripped | hdark
    · exact if_pos htripped
    · exact (congrArg _ (supplyScale_dark hdark ..)).trans (ite_self 0)
  case plain =>
    rw [outputPeriod_shown hl ho, hon, if_neg (by decide), supplyScale_track htrack]
    unfold shownLevel
    rw [levelBeforeSupply_local hmode]
  case steady =>
    rw [outputPeriod_shown hl ho, hon, if_neg (by decide), supplyScale_track htrack]
    unfold shownLevel
    rw [levelBeforeSupply_function hmode, effectShape_steady hcode, gateAndBlink_plain hbyte, outputDemand_plain hbyte]
  case nolight =>
    rw [outputPeriod_light hl, List.sum_eq_zero]
    intro x hx
    obtain ⟨i, _, rfl⟩ := List.mem_mapIdx.1 hx
    exact if_neg fun h => h.2.2.1 hdark
  case frame => rwa [htrips, hfaults]

/-- What an output shows before the supply scales it, by its mode and its mode byte. -/
theorem shownLevel_eq (s : State) (n : Nat) (o : Output) : shownLevel s n o =
    if o.mode = .localLevel then o.localLevel
    else if 64 ≤ outByte s n 2 % 128 ∧ (∃ r ∈ s.faults, r.status = .latched) then
      (if s.partTime.toNat % 1000 < 500 then 255 else 0)
    else if outByte s n 2 / 8 % 2 = 1 ∧ IsMember s then 0
    else (effectShape s n (outputDemand s n) o).1 := by
  unfold shownLevel
  cases h : o.mode with
  | localLevel => rw [levelBeforeSupply_local h, if_pos rfl]
  | function =>
    rw [levelBeforeSupply_function h, if_neg (by decide : ¬ OutputMode.function = .localLevel)]
    exact gateAndBlink_eq ..

/-- Settles O39. -/
theorem outputEffectsFollowTheirSettings : Obligations.OutputEffectsFollowTheirSettings := by
  unfold Obligations.OutputEffectsFollowTheirSettings
  intro s t ma0 ma1 hrun _ hl ht
  obtain rfl : outputPeriod ma0 ma1 s = t := Host.Outcome.next.inj ((exec_outputPeriod hrun ma0 ma1).symm.trans ht)
  intro lit effect shown park dark
  have hlit (n : Nat) : lit n = outputDemand s n := rfl
  have heffect (n : Nat) (o : Output) : effect n o = effectShape s n (outputDemand s n) o := rfl
  have hshown (n : Nat) (o : Output) : shownLevel s n o = shown n o := shownLevel_eq s n o
  have hpark (n : Nat) (o : Output) : parkInForce s n o = park n o := rfl
  refine ⟨fun n o ho hon => ?_, fun n o ho htripped => ?_, ?_⟩
  · have hstep := outputPeriod_shown (ma0 := ma0) (ma1 := ma1) hl ho
    rw [hon, if_neg (by decide), supplyScale_eq, hshown, hpark] at hstep
    refine ⟨fun hmode => ?_, fun hmode => ?_⟩
    · rwa [levelBeforeSupply_local hmode] at hstep
    · rw [levelBeforeSupply_function hmode] at hstep
      exact hstep
  · have hstep := outputPeriod_shown (ma0 := ma0) (ma1 := ma1) hl ho
    rw [htripped, if_pos rfl] at hstep
    refine ⟨fun hmode => ?_, fun hmode => ?_⟩
    · rwa [levelBeforeSupply_local hmode] at hstep
    · rw [levelBeforeSupply_function hmode] at hstep
      exact hstep
  · rw [outputPeriod_light hl]
    simp only [hshown, hpark]
    rfl

end Sys2Proof.Machine
end

section
/-! One voice of the Sound Engine: what its moves leave alone, and what each of them does to its record and to the Flash
Port (R120 to R122, R126, R131). -/

namespace Sys2Proof.Machine

/-! ### Moves of one voice -/

theorem sameButVoice_refl (v : Nat) (s : State) : sameButVoice v s s := ⟨rfl, fun _ _ => rfl⟩

theorem sameButVoice_trans {v : Nat} {a b c : State} (h : sameButVoice v a b) (k : sameButVoice v b c) :
    sameButVoice v a c := by
  refine ⟨?_, fun w hw => (k.2 w hw).trans (h.2 w hw)⟩
  rw [k.1, h.1]

theorem setVoice_only (v : Nat) (vo : Voice) (s : State) : sameButVoice v s (setVoice v vo s) :=
  ⟨rfl, fun _ hw => List.getElem?_set_ne (Ne.symm hw)⟩

theorem withdrawVoice_only (v : Nat) (s : State) : sameButVoice v s (withdrawVoice v s) := ⟨rfl, fun _ _ => rfl⟩

theorem requestFlash_port (who : Requester) (op : FlashOp) (s : State) :
    requestFlash who op s = { s with port := (requestFlash who op s).port } := by
  unfold requestFlash
  dsimp only
  split <;> rfl

theorem requestFlash_only (v : Nat) (who : Requester) (op : FlashOp) (s : State) :
    sameButVoice v s (requestFlash who op s) := by
  refine ⟨?_, fun w _ => ?_⟩
  · have h := requestFlash_port who op s
    generalize requestFlash who op s = t at *
    rw [h]
  · rw [requestFlash_sound]

theorem askRun_only (v : Nat) (s : State) : sameButVoice v s (askRun v s) := by
  unfold askRun
  dsimp only
  split
  · split
    · exact sameButVoice_refl v s
    · exact sameButVoice_trans (setVoice_only v _ s) (requestFlash_only v _ _ _)
  · exact sameButVoice_refl v s

theorem idleVoice_only (v : Nat) (s : State) : sameButVoice v s (idleVoice v s) :=
  sameButVoice_trans (withdrawVoice_only v s) (setVoice_only v _ _)

theorem primeVoice_only (v : Nat) (ph : CuePhase) (c : Clip) (pos : Nat) (s : State) :
    sameButVoice v s (primeVoice v ph c pos s) := by
  refine sameButVoice_trans (withdrawVoice_only v s) ?_
  unfold primeVoice
  dsimp only
  split
  · exact sameButVoice_refl v _
  · split
    · exact sameButVoice_trans (setVoice_only v _ _) (askRun_only v _)
    · split
      · exact setVoice_only v _ _
      · exact sameButVoice_trans (setVoice_only v _ _) (requestFlash_only v _ _ _)

theorem turnHalf_only (v : Nat) (s : State) : sameButVoice v s (turnHalf v s) :=
  sameButVoice_trans (setVoice_only v _ s) (askRun_only v _)

theorem leaveLoop_only (v lp : Nat) (s : State) : sameButVoice v s (leaveLoop v lp s) :=
  sameButVoice_trans (withdrawVoice_only v s) (sameButVoice_trans (setVoice_only v _ _) (askRun_only v _))

/-- Everything but the voices' records, the exhaust rotation and the Flash Port is the same. -/
def VoicesOnly (s t : State) : Prop :=
  t = { s with port := t.port, sound := { s.sound with voices := t.sound.voices, rotation := t.sound.rotation } }

namespace VoicesOnly

theorem refl (s : State) : VoicesOnly s s := rfl

theorem trans {a b c : State} (h : VoicesOnly a b) (k : VoicesOnly b c) : VoicesOnly a c := by
  unfold VoicesOnly at *
  rw [k, h]

theorem of_same {v : Nat} {s t : State} (h : sameButVoice v s t) : VoicesOnly s t := by
  unfold VoicesOnly
  rw [h.1]

theorem foldl {β : Type} {f : State → β → State} (hf : ∀ s b, VoicesOnly s (f s b)) (l : List β) (s : State) :
    VoicesOnly s (l.foldl f s) := by
  induction l generalizing s with
  | nil => exact refl s
  | cons b l ih => exact (hf s b).trans (ih _)

theorem chooseExhaust (c : Nat) (s : State) : VoicesOnly s (chooseExhaust c s).2 := by
  unfold Machine.chooseExhaust
  split
  · rfl
  · split
    · rfl
    · rfl

theorem resumeFrom (v : Nat) (st : List StackEntry) (s : State) : VoicesOnly s (resumeFrom v st s) := by
  induction st generalizing s with
  | nil => exact of_same (idleVoice_only v s)
  | cons e rest ih =>
    have hchosen : VoicesOnly s (if exhaustCue s == some e.cue then Machine.chooseExhaust e.cue s else (none, s)).2 := by
      split
      · exact chooseExhaust e.cue s
      · exact refl s
    unfold Machine.resumeFrom
    dsimp only
    refine hchosen.trans ?_
    generalize (if exhaustCue s == some e.cue then Machine.chooseExhaust e.cue s else (none, s)) = chosen
    split
    · exact of_same (sameButVoice_trans (setVoice_only v _ chosen.2) (primeVoice_only v _ _ _ _))
    · exact (of_same (setVoice_only v _ chosen.2)).trans (ih _)

theorem cueEnd (v : Nat) (s : State) : VoicesOnly s (cueEnd v s) := resumeFrom v _ s

theorem phaseEnd (v : Nat) (s : State) : VoicesOnly s (phaseEnd v s) := by
  unfold Machine.phaseEnd
  dsimp only
  split
  · exact of_same (idleVoice_only v s)
  · split
    · split
      · exact cueEnd v s
      · split
        · exact of_same (primeVoice_only v _ _ _ _)
        · exact cueEnd v s
    · exact cueEnd v s

theorem advanceVoice (v : Nat) (s : State) : VoicesOnly s (advanceVoice v s) := by
  unfold Machine.advanceVoice
  dsimp only
  split
  · split
    · split
      · split
        · exact (of_same (setVoice_only v _ s)).trans (of_same (turnHalf_only v _))
        · exact of_same (setVoice_only v _ s)
      · split
        · exact phaseEnd v s
        · split
          · exact of_same (leaveLoop_only v _ s)
          · exact of_same (setVoice_only v _ s)
    · split
      · exact phaseEnd v s
      · split
        · exact (of_same (setVoice_only v _ s)).trans (of_same (turnHalf_only v _))
        · exact of_same (setVoice_only v _ s)
  · exact refl s

theorem sound {s t : State} (h : VoicesOnly s t) : t = { s with sound := t.sound, port := t.port } := by
  unfold VoicesOnly at h
  rw [h]

end VoicesOnly

/-! ### The records and the Flash Port -/

theorem getElem?_setVoice {s : State} {v : Nat} {vo : Voice} (h : s.sound.voices[v]? = some vo) (x : Voice) :
    (setVoice v x s).sound.voices[v]? = some x :=
  List.getElem?_set_self (List.getElem?_eq_some_iff.1 h).1

/-- The request a voice makes is on its way. -/
theorem asksFlash_requestFlash (who : Requester) (op : FlashOp) (s : State) :
    AsksFlash { who := who, op := op, entered := s.partTime } (requestFlash who op s) := by
  unfold requestFlash AsksFlash
  dsimp only
  split
  · exact .inr rfl
  · exact .inl (List.mem_append_right _ (List.mem_singleton.2 rfl))

/-- A voice that withdraws has no request outstanding (R121, R175). -/
theorem voiceOutstanding_withdrawVoice (v : Nat) (s : State) : voiceOutstanding v (withdrawVoice v s) = false := by
  unfold voiceOutstanding withdrawVoice
  rw [Bool.or_eq_false_iff]
  constructor
  · rw [List.any_eq_false]
    intro r hr
    have h := (List.mem_filter.1 hr).2
    rw [bne_iff_ne] at h
    exact fun hc => h (beq_iff_eq.1 hc)
  · cases h : s.port.busy with
    | none => rfl
    | some b =>
      by_cases hv : b.1.who = .voice v
      · simp [hv]
      · simp [hv]

theorem idleVoice_becomes {s : State} {v : Nat} {vo : Voice} (h : s.sound.voices[v]? = some vo) :
    BecomesIdle v vo s (idleVoice v s) := by
  refine ⟨idleVoice_only v s, voiceOutstanding_withdrawVoice v s, ?_⟩
  have hvo : voice (withdrawVoice v s) v = vo := voice_eq_of_getElem? h
  unfold idleVoice
  dsimp only
  rw [hvo]
  exact getElem?_setVoice h _

/-! ### The mix, the volume and the envelope (R127, R128, R131) -/

theorem sampleEvent_eq (s : State) : sampleEvent s = ((List.range 6).filter (fun v => (voice s v).hasData)).foldl
    (fun u v => advanceVoice v u)
    { s with sound := { s.sound with sample := mixed (s.sound.voices.map (voiceContribution s)).sum s.sound.master } } := rfl

/-- A voice that is IDLE, in PRIME or waits gives no sample. -/
theorem voiceSample_silent {s : State} {vo : Voice} (h : vo.state = .idle ∨ vo.state = .prime ∨ vo.wait ≠ .none) :
    voiceSample s vo = 0 := by
  have hnone : vo.hasData = false := by
    unfold Voice.hasData
    rcases h with h | h | h
    · rw [h]
      rfl
    · rw [h]
      rfl
    · rw [beq_false_of_ne h]
      simp
  unfold voiceSample
  split
  · rw [hnone, if_neg (by decide)]
  · rfl

section Envelope

variable {s : State} {v : Nat} {vo : Voice}

theorem envelopeStep_still (h : s.sound.voices[v]? = some vo) (hs : vo.state = .idle ∨ vo.envDir = .steady) :
    envelopeStep v s = s := by
  unfold envelopeStep
  rw [voice_eq_of_getElem? h]
  dsimp only
  rcases hs with hs | hs
  · exact if_pos hs
  · rw [hs]
    exact ite_self s

theorem envelopeStep_rising (h : s.sound.voices[v]? = some vo) (hs : vo.state ≠ .idle) (hd : vo.envDir = .rising) :
    envelopeStep v s = setVoice v { vo with
      env := min 256 (vo.env + 16), envDir := if 240 ≤ vo.env then .steady else .rising } s := by
  have hfull : min 256 (vo.env + 16) = 256 ↔ 240 ≤ vo.env := by omega
  unfold envelopeStep
  rw [voice_eq_of_getElem? h]
  dsimp only
  rw [if_neg hs, hd]
  dsimp only
  rw [if_congr hfull rfl rfl]

theorem envelopeStep_falling (h : s.sound.voices[v]? = some vo) (hs : vo.state ≠ .idle) (hd : vo.envDir = .falling) :
    envelopeStep v s = if vo.env ≤ 16 then idleVoice v s else setVoice v { vo with env := vo.env - 16 } s := by
  unfold envelopeStep
  rw [voice_eq_of_getElem? h]
  dsimp only
  rw [if_neg hs, hd]

end Envelope

/-- Settles O40. -/
theorem soundMixesAndGlides : Obligations.SoundMixesAndGlides := by
  unfold Obligations.SoundMixesAndGlides
  intro s hrun
  have hsample : exec .sampleEvent s = .next (sampleEvent s) := by
    have hrow : exec .sampleEvent s = execSampleEvent s := rfl
    rw [hrow, execSampleEvent, if_pos hrun]
  have hvolume : exec .volumeStep s = .next { s with sound := { s.sound with
      master := volumeMoved s.sound.master (volumeTarget s) } } := by
    have hrow : exec .volumeStep s = execVolumeStep s := rfl
    rw [hrow, execVolumeStep, if_pos hrun]
  have henvelope {v : Nat} (hv : v < 6) : exec (.envelopeStep v) s = .next (envelopeStep v s) := by
    have hrow : exec (.envelopeStep v) s = execEnvelopeStep v s := rfl
    rw [hrow, execEnvelopeStep, if_pos ⟨hrun, hv⟩]
  refine ⟨?mix, fun vo h => voiceSample_silent h, hvolume, fun v vo h hv => ⟨fun hs => ?still, fun hs hd => ?rising,
    fun hs hd he => ?falling, fun hs hd he => ?ends⟩⟩
  case mix =>
    have hframe : VoicesOnly { s with sound := { s.sound with
        sample := mixed (s.sound.voices.map (voiceContribution s)).sum s.sound.master } } (sampleEvent s) :=
      VoicesOnly.foldl (fun t v => VoicesOnly.advanceVoice v t) _ _
    exact ⟨sampleEvent s, hsample, hframe.sound, (congrArg (fun t => t.sound.master) hframe :),
      (congrArg (fun t => t.sound.sample) hframe :), sampleEvent_eq s⟩
  case still => rw [henvelope hv, envelopeStep_still h hs]
  case rising => rw [henvelope hv, envelopeStep_rising h hs hd, setVoice]
  case falling => rw [henvelope hv, envelopeStep_falling h hs hd, if_neg (by omega), setVoice]
  case ends =>
    refine ⟨_, henvelope hv, ?_⟩
    rw [envelopeStep_falling h hs hd, if_pos he]
    have hvo : voice (withdrawVoice v s) v = vo := voice_eq_of_getElem? h
    unfold idleVoice
    dsimp only
    rw [hvo]
    rfl

end Sys2Proof.Machine
end

section
/-! What a cue has to play, the voice it goes to and how it is started (R114, R115, R118, R121, R123 to R125). -/

namespace Sys2Proof.Machine

/-! ### The clips of a cue -/

theorem phaseClip_eq_some {s : State} {c : Nat} {ph : CuePhase} {cl : Clip} :
    phaseClip s c ph = some cl ↔ HasClip s c ph cl := by
  unfold phaseClip findClip HasClip
  split
  next h => exact iff_of_false nofun fun hc => hc.1 h
  next h => exact (and_iff_right h).symm

theorem phaseClip_eq_none {s : State} {c : Nat} {ph : CuePhase} :
    phaseClip s c ph = none ↔ ∀ cl, ¬ HasClip s c ph cl := by
  rw [Option.eq_none_iff_forall_ne_some]
  exact forall_congr' fun cl => not_congr phaseClip_eq_some

theorem HasClip.mem {s : State} {c : Nat} {ph : CuePhase} {cl : Clip} (h : HasClip s c ph cl) :
    cl ∈ s.sound.directory := List.mem_of_find?_eq_some h.2

/-- What a phase has to play turns on the settings and the directory copy alone. -/
theorem phaseClip_congr {s t : State} (hs : t.settings = s.settings) (hd : t.sound.directory = s.sound.directory)
    (c : Nat) (ph : CuePhase) : phaseClip t c ph = phaseClip s c ph := by
  unfold phaseClip findClip cueByte set8
  rw [hs, hd]

theorem playable_iff (s : State) (c : Nat) : playable s c = true ↔
    (∃ ph cl, HasClip s c ph cl) ∨ exhaustCue s = some c ∧ ∃ d ∈ s.sound.directory, d.variant ≠ 0 := by
  have hsome (ph : CuePhase) : (phaseClip s c ph).isSome = true ↔ ∃ cl, HasClip s c ph cl := by
    rw [Option.isSome_iff_exists]
    exact exists_congr fun cl => phaseClip_eq_some
  unfold playable
  rw [Bool.or_eq_true, Bool.or_eq_true, Bool.or_eq_true, hsome, hsome, hsome, Bool.and_eq_true, beq_iff_eq, List.any_eq_true]
  refine or_congr ⟨?_, ?_⟩ (and_congr_right fun _ => exists_congr fun d => and_congr_right fun _ => bne_iff_ne)
  · rintro ((h | h) | h)
    · exact ⟨_, h⟩
    · exact ⟨_, h⟩
    · exact ⟨_, h⟩
  · rintro ⟨ph, h⟩
    cases ph
    · exact .inl (.inl h)
    · exact .inl (.inr h)
    · exact .inr h

/-! ### The exhaust clip (R118) -/

theorem rotateVariant_none {s : State} {k : Nat} (h : s.sound.directory.filter (fun c => c.variant == k) = []) :
    rotateVariant s k = none := by
  unfold rotateVariant
  rw [h]
  rfl

theorem rotateVariant_some {s : State} {k : Nat} {cl : Clip}
    (h : (s.sound.directory.filter (fun c => c.variant == k))[
      (s.sound.rotation.getD (k - 1) 0).toNat % (s.sound.directory.filter (fun c => c.variant == k)).length]? = some cl) :
    rotateVariant s k = some (cl, s.sound.rotation.set (k - 1) (s.sound.rotation.getD (k - 1) 0 + 1)) := by
  unfold rotateVariant
  dsimp only
  rw [h]

/-- A group of variant clips that is not empty gives one in rotation. -/
theorem exists_inTurn {l : List Clip} (h : l ≠ []) (n : Nat) : ∃ cl, l[n % l.length]? = some cl :=
  ⟨_, List.getElem?_eq_getElem (Nat.mod_lt n (List.length_pos_iff.2 h))⟩

theorem ExhaustChoice.mem {s : State} {c : Nat} {cl : Clip} {rot : List Byte} (h : ExhaustChoice s c cl rot) :
    cl ∈ s.sound.directory := by
  rcases h with ⟨_, hturn, _⟩ | ⟨_, _, hturn, _⟩ | ⟨_, _, hclip, _⟩
  · exact List.mem_of_mem_filter (List.mem_of_getElem? hturn)
  · exact List.mem_of_mem_filter (List.mem_of_getElem? hturn)
  · exact hclip.mem

theorem chooseExhaust_of_choice {s : State} {c : Nat} {cl : Clip} {rot : List Byte} (h : ExhaustChoice s c cl rot) :
    chooseExhaust c s = (some cl, { s with sound := { s.sound with rotation := rot } }) := by
  unfold chooseExhaust
  rcases h with ⟨_, hturn, rfl⟩ | ⟨hnone, _, hturn, rfl⟩ | ⟨hnone, hnormal, hclip, rfl⟩
  · rw [rotateVariant_some (k := exhaustVariant s) hturn]
    rfl
  · rw [rotateVariant_none (k := exhaustVariant s) hnone, rotateVariant_some hturn]
  · rw [rotateVariant_none (k := exhaustVariant s) hnone, rotateVariant_none hnormal, phaseClip_eq_some.2 hclip]

theorem chooseExhaust_of_none {s : State} {c : Nat} (h : ∀ cl rot, ¬ ExhaustChoice s c cl rot) :
    chooseExhaust c s = (none, s) := by
  have hwanted : s.sound.directory.filter (fun d => d.variant == exhaustVariant s) = [] := by
    by_contra hne
    obtain ⟨cl, hcl⟩ := exists_inTurn hne (s.sound.rotation.getD (exhaustVariant s - 1) 0).toNat
    exact h cl _ (.inl ⟨hne, hcl, rfl⟩)
  have hnormal : s.sound.directory.filter (fun d => d.variant == 2) = [] := by
    by_contra hne
    obtain ⟨cl, hcl⟩ := exists_inTurn hne (s.sound.rotation.getD (2 - 1) 0).toNat
    exact h cl _ (.inr (.inl ⟨hwanted, hne, hcl, rfl⟩))
  have hattack : phaseClip s c .attack = none :=
    phaseClip_eq_none.2 fun cl hcl => h cl _ (.inr (.inr ⟨hwanted, hnormal, hcl, rfl⟩))
  unfold chooseExhaust
  rw [rotateVariant_none hwanted, rotateVariant_none hnormal, hattack]

/-! ### The first phase with something to play (R115, R126) -/

theorem soundsIn_iff {p : Partition} {cl : Clip} {len lp : Nat} :
    SoundsIn p cl len lp ↔ len = playLen p cl ∧ lp = loopPoint p cl := by
  refine and_congr_right fun hlen => ?_
  have hlen : len = playLen p cl := hlen
  subst hlen
  unfold loopPoint
  cases cl.loop <;> rfl

theorem playLen_pos {p : Partition} {cl : Clip} (hp : 0 < p.size) (hcl : 0 < cl.len) : 0 < playLen p cl := by
  unfold playLen Partition.capacity
  split
  · exact hcl
  · omega

/-- A position inside the clip has something to play. -/
theorem endsAtOnce_inside {vo : Voice} {p : Partition} {cl : Clip} {pos : Nat} (hpart : vo.part = some p)
    (hpos : pos < playLen p cl) : endsAtOnce vo cl pos = false := by
  unfold endsAtOnce
  rw [hpart]
  dsimp only
  rw [decide_eq_false (by omega), Bool.false_and]

/-- A cue with an exhaust clip plays it and nothing after it (R118). -/
theorem pickPhase_exhaust {s : State} {vo : Voice} {c : Nat} {cl : Clip} {pos : Nat} (h : endsAtOnce vo cl pos = false)
    (rest : List (CuePhase × Nat)) :
    pickPhase s vo c (some (some cl)) ((.attack, pos) :: rest) = some (.attack, cl, pos) := by
  unfold pickPhase
  dsimp only
  rw [if_pos rfl]
  dsimp only
  rw [h, if_neg (by decide)]

/-- An exhaust cue that has found no clip has nothing to play. -/
theorem pickPhase_exhaust_none (s : State) (vo : Voice) (c : Nat) (l : List (CuePhase × Nat)) :
    pickPhase s vo c (some none) l = none := by
  induction l with
  | nil => rfl
  | cons x rest ih =>
    obtain ⟨ph, pos⟩ := x
    unfold pickPhase
    dsimp only
    rw [ite_self]
    exact ih

section Phases

variable {s : State} {vo : Voice} {c : Nat} {ph : CuePhase}

theorem pickPhase_absent (h : phaseClip s c ph = none) (pos : Nat) (rest : List (CuePhase × Nat)) :
    pickPhase s vo c none ((ph, pos) :: rest) = pickPhase s vo c none rest := by
  rw [pickPhase]
  rw [h]

theorem pickPhase_present {cl : Clip} {pos : Nat} (h : phaseClip s c ph = some cl) (he : endsAtOnce vo cl pos = false)
    (rest : List (CuePhase × Nat)) : pickPhase s vo c none ((ph, pos) :: rest) = some (ph, cl, pos) := by
  rw [pickPhase]
  rw [h]
  dsimp only
  rw [he, if_neg (by decide)]

theorem pickPhase_none_of_absent {l : List (CuePhase × Nat)} (h : ∀ x ∈ l, phaseClip s c x.1 = none) :
    pickPhase s vo c none l = none := by
  induction l with
  | nil => rfl
  | cons x rest ih =>
    obtain ⟨ph, pos⟩ := x
    rw [pickPhase_absent (h _ List.mem_cons_self)]
    exact ih fun y hy => h y (List.mem_cons_of_mem _ hy)

/-- The phases before one that comes after another lie between the two. -/
theorem CuePhase.after_split {ph q : CuePhase} (h : q ∈ ph.after) :
    ∃ a b, ph.after = a ++ q :: b ∧ ∀ r ∈ a, r ∈ ph.after ∧ q ∈ r.after := by
  cases ph with
  | attack =>
    obtain rfl | rfl : q = .loop ∨ q = .release := by simpa [CuePhase.after] using h
    · exact ⟨[], [.release], rfl, nofun⟩
    · exact ⟨[.loop], [], rfl, by decide⟩
  | loop =>
    obtain rfl : q = .release := by simpa [CuePhase.after] using h
    exact ⟨[], [], rfl, nofun⟩
  | release => cases h

/-- The next phase present after one plays from its start. -/
theorem pickPhase_after {p : Partition} {q : CuePhase} {cl : Clip} (hpart : vo.part = some p) (hp : 0 < p.size)
    (hlen : 0 < cl.len) (hq : q ∈ ph.after) (hclip : HasClip s c q cl)
    (hfirst : ∀ r, r ∈ ph.after → q ∈ r.after → ∀ d, ¬ HasClip s c r d) :
    pickPhase s vo c none (ph.after.map (fun r => (r, 0))) = some (q, cl, 0) := by
  obtain ⟨a, b, hsplit, hbefore⟩ := CuePhase.after_split hq
  have habsent : ∀ r ∈ a, phaseClip s c r = none := fun r hr =>
    phaseClip_eq_none.2 (hfirst r (hbefore r hr).1 (hbefore r hr).2)
  rw [hsplit]
  clear hsplit hbefore
  induction a with
  | nil => exact pickPhase_present (phaseClip_eq_some.2 hclip) (endsAtOnce_inside hpart (playLen_pos hp hlen)) _
  | cons r a ih =>
    rw [List.cons_append, List.map_cons, pickPhase_absent (habsent r List.mem_cons_self)]
    exact ih fun x hx => habsent x (List.mem_cons_of_mem _ hx)

end Phases

/-- A cue that starts on a voice with room finds this phase and this clip. -/
def Picks (s : State) (c : Nat) (ex : Option (Option Clip)) (ph : CuePhase) (cl : Clip) : Prop :=
  ∀ t vo p, t.settings = s.settings → t.sound.directory = s.sound.directory → vo.part = some p → 0 < p.size →
    pickPhase t vo c ex [(.attack, 0), (.loop, 0), (.release, 0)] = some (ph, cl, 0)

theorem picks_first {s : State} {c : Nat} {ph : CuePhase} {cl : Clip} (h : FirstPresent s c .attack ph cl)
    (hlen : 0 < cl.len) : Picks s c none ph cl := by
  intro t vo p hs hd hpart hp
  obtain ⟨hclip, hwhere, hfirst⟩ := h
  have hhas (q : CuePhase) (d : Clip) : HasClip t c q d ↔ HasClip s c q d := by
    rw [← phaseClip_eq_some, ← phaseClip_eq_some, phaseClip_congr hs hd]
  rcases hwhere with rfl | hafter
  · exact pickPhase_present (phaseClip_eq_some.2 ((hhas _ _).2 hclip)) (endsAtOnce_inside hpart (playLen_pos hp hlen)) _
  · rw [pickPhase_absent (phaseClip_eq_none.2 fun d hd => hfirst _ (.inl rfl) hafter d ((hhas _ _).1 hd))]
    exact pickPhase_after hpart hp hlen hafter ((hhas _ _).2 hclip)
      fun r hr hq d hd => hfirst r (.inr hr) hq d ((hhas _ _).1 hd)

theorem picks_exhaust (s : State) (c : Nat) {cl : Clip} (hlen : 0 < cl.len) :
    Picks s c (some (some cl)) .attack cl :=
  fun _ _ _ _ _ hpart hp => pickPhase_exhaust (endsAtOnce_inside hpart (playLen_pos hp hlen)) _

/-! ### A voice asks for its next run (R121, R122) -/

/-- A double-buffered voice with a run to ask for and a free half for it asks. -/
theorem askRun_asks {s : State} {v : Nat} {vo : Voice} {p : Partition} {cl : Clip} {a : Nat} {ph : CuePhase} {k : Bool}
    (h : s.sound.voices[v]? = some vo) (hpart : vo.part = some p) (hclip : vo.clip = some cl) (hnext : vo.nextRun = some a)
    (hphase : vo.phase = some ph) (hfree : freeHalf vo = some k) (hdbl : p.dbl = true)
    (hout : voiceOutstanding v s = false) (hfade : vo.fading = false) :
    (askRun v s).sound.voices[v]? =
        some { vo.setHalf k (.filling (runFrom p cl ph a)) with nextRun := runAfter p cl ph (runFrom p cl ph a) } ∧
      AsksFlash { who := .voice v, op := .read (cl.addr + 2 * a) (2 * (runFrom p cl ph a).len), entered := s.partTime }
        (askRun v s) := by
  have hask : askRun v s = requestFlash (.voice v) (.read (cl.addr + 2 * a) (2 * (runFrom p cl ph a).len))
      (setVoice v { vo.setHalf k (.filling (runFrom p cl ph a)) with nextRun := runAfter p cl ph (runFrom p cl ph a) } s) := by
    unfold askRun
    rw [voice_eq_of_getElem? h]
    dsimp only
    rw [hpart, hclip, hnext, hphase, hfree]
    dsimp only
    rw [hout, hfade, hdbl, if_neg (by decide)]
  rw [hask]
  refine ⟨?_, asksFlash_requestFlash ..⟩
  rw [requestFlash_sound]
  exact getElem?_setVoice h _

theorem freeHalf_eq (vo : Voice) : freeHalf vo =
    if vo.half vo.playing = .empty then some vo.playing
    else if vo.half (!vo.playing) = .empty then some (!vo.playing) else none := by
  unfold freeHalf Voice.half
  cases vo.playing <;> rfl

/-- A half that a voice may ask data for is EMPTY. -/
theorem freeHalf_empty {vo : Voice} {k : Bool} (h : freeHalf vo = some k) : vo.half k = .empty := by
  rw [freeHalf_eq] at h
  split at h
  next hmine => exact Option.some.inj h ▸ hmine
  next =>
    split at h
    next hother => exact Option.some.inj h ▸ hother
    next => cases h

/-- Asking for a run changes a voice's halves and its next run only, and no half that is FULL. -/
theorem askRun_keeps {s : State} {v : Nat} {vo : Voice} (h : s.sound.voices[v]? = some vo) :
    ∃ h0 h1 next, (askRun v s).sound.voices[v]? = some { vo with half0 := h0, half1 := h1, nextRun := next } ∧
      ∀ k r, vo.half k = .full r → ({ vo with half0 := h0, half1 := h1, nextRun := next } : Voice).half k = .full r := by
  have hset (k : Bool) (r : Half) (n : Option Nat) : ({ vo.setHalf k r with nextRun := n } : Voice) =
      { vo with half0 := (vo.setHalf k r).half0, half1 := (vo.setHalf k r).half1, nextRun := n } := by
    cases k <;> rfl
  unfold askRun
  rw [voice_eq_of_getElem? h]
  dsimp only
  split
  next p cl a ph k _ _ _ _ hk =>
    split
    · exact ⟨_, _, _, h, fun _ _ hr => hr⟩
    · rw [requestFlash_sound]
      refine ⟨_, _, _, (getElem?_setVoice h _).trans (congrArg some (hset _ _ _)), fun l r hr => ?_⟩
      have hne : l ≠ k := by
        rintro rfl
        rw [freeHalf_empty hk] at hr
        cases hr
      refine Eq.trans ?_ hr
      unfold Voice.setHalf Voice.half
      cases k <;> cases l <;> simp at hne ⊢
  · exact ⟨_, _, _, h, fun _ _ hr => hr⟩

/-! ### A voice goes to PRIME (R121) -/

theorem primeVoice_goes {s : State} {v : Nat} {vo : Voice} (h : s.sound.voices[v]? = some vo) (hfade : vo.envDir ≠ .falling)
    (ph : CuePhase) (cl : Clip) (pos : Nat) : GoesToPrime v vo ph cl pos s (primeVoice v ph cl pos s) := by
  unfold GoesToPrime
  intro x p len lp hpart hsounds
  obtain ⟨rfl, rfl⟩ := soundsIn_iff.1 hsounds
  have hw : (withdrawVoice v s).sound.voices[v]? = some vo := h
  have hvo : voice (withdrawVoice v s) v = vo := voice_eq_of_getElem? hw
  have hprime : primeVoice v ph cl pos s =
      if p.dbl then askRun v (setVoice v { vo.primed ph cl pos with nextRun := some pos, resident := none } (withdrawVoice v s))
      else if vo.resident = some (cl.id, p) then
        setVoice v { vo.primed ph cl pos with state := ph.voiceState, nextPhase := none } (withdrawVoice v s)
      else requestFlash (.voice v) (.read cl.addr (2 * min cl.len p.capacity))
        (setVoice v (vo.primed ph cl pos) (withdrawVoice v s)) := by
    have hp : (vo.primed ph cl pos).part = some p := hpart
    unfold primeVoice
    dsimp only
    rw [hvo, hp]
    rfl
  refine ⟨fun hdbl hres => ?_, fun hdbl hres => ?_, fun hdbl => ?_⟩
  · rw [hprime, hdbl, if_neg (by decide), if_pos hres]
    exact ⟨voiceOutstanding_withdrawVoice v s, getElem?_setVoice hw _⟩
  · rw [hprime, hdbl, if_neg (by decide), if_neg hres]
    have hlen : playLen p cl = min cl.len p.capacity := by
      rw [playLen, hdbl, if_neg (by decide)]
    rw [hlen]
    refine ⟨?_, asksFlash_requestFlash ..⟩
    rw [requestFlash_sound]
    exact getElem?_setVoice hw _
  · rw [hprime, if_pos hdbl]
    generalize hz : ({ vo.primed ph cl pos with nextRun := some pos, resident := none } : Voice) = z
    have hzfade : z.fading = false := by
      subst hz
      exact (Bool.true_and _).trans (beq_false_of_ne hfade)
    obtain ⟨hrecord, hasks⟩ := askRun_asks (a := pos) (ph := ph) (k := false) (getElem?_setVoice hw z)
      (by subst hz; exact hpart) (by subst hz; rfl) (by subst hz; rfl) (by subst hz; rfl) (by subst hz; rfl) hdbl
      (voiceOutstanding_withdrawVoice v s) hzfade
    refine ⟨runAfter p cl ph (runFrom p cl ph pos), hrecord.trans ?_, hasks⟩
    subst hz
    rfl

end Sys2Proof.Machine
end

section
/-! A start request: the voice it finds and the start on it (R123 to R125); O41. -/

namespace Sys2Proof.Machine

theorem voices_getElem? {s : State} (six : s.sound.voices.length = 6) {v : Nat} (hv : v < 6) :
    s.sound.voices[v]? = some (voice s v) := by
  unfold voice
  rw [List.getD_eq_getElem?_getD, List.getElem?_eq_getElem (six ▸ hv)]
  rfl

theorem setVoice_setVoice (v : Nat) (a b : Voice) (s : State) : setVoice v a (setVoice v b s) = setVoice v a s := by
  unfold setVoice
  dsimp only
  rw [List.set_set]

/-- Two partitions share a unit, or one ends where the other begins or before. -/
theorem Partition.overlaps_eq (p q : Partition) :
    p.overlaps q = !(decide (p.start + p.size ≤ q.start) || decide (q.start + q.size ≤ p.start)) := by
  unfold Partition.overlaps
  rw [Bool.eq_iff_iff, Bool.and_eq_true, decide_eq_true_eq, decide_eq_true_eq, Bool.not_eq_true', Bool.or_eq_false_iff,
    decide_eq_false_iff_not, decide_eq_false_iff_not]
  omega

/-! ### The voices of the search (R124) -/

/-- Every stack without a cue's entries. -/
def Voice.without (c : Nat) (vo : Voice) : Voice := { vo with stack := vo.stack.filter (fun e => e.cue != c) }

theorem unstack_eq (c : Nat) (s : State) :
    unstack c s = { s with sound := { s.sound with voices := s.sound.voices.map (Voice.without c) } } := rfl

theorem voice_unstack (c : Nat) (s : State) (v : Nat) : voice (unstack c s) v = (voice s v).without c := by
  unfold voice
  rw [unstack_eq, List.getD_eq_getElem?_getD, List.getD_eq_getElem?_getD, List.getElem?_map]
  cases s.sound.voices[v]? <;> rfl

theorem plays_iff (vo : Voice) (c : Nat) :
    vo.plays c = true ↔ vo.state ≠ .idle ∧ vo.envDir ≠ .falling ∧ vo.cue = some c := by
  unfold Voice.plays Voice.fading
  rw [Bool.and_eq_true, Bool.and_eq_true, bne_iff_ne, beq_iff_eq, Bool.not_eq_true', Bool.and_eq_false_iff, and_assoc]
  refine and_congr_right fun hs => and_congr_left fun _ => ?_
  rw [bne_eq_false_iff_eq, beq_eq_false_iff_ne]
  exact or_iff_right hs

theorem not_disabled_iff (p : Partition) : p.disabled = false ↔ 0 < p.size ∧ (p.dbl = true → 1 < p.size) := by
  unfold Partition.disabled
  rw [Bool.or_eq_false_iff, beq_eq_false_iff_ne]
  cases p.dbl with
  | false =>
    rw [Bool.false_and]
    exact ⟨fun h => ⟨by omega, nofun⟩, fun h => ⟨by omega, rfl⟩⟩
  | true =>
    rw [Bool.true_and, beq_eq_false_iff_ne]
    exact ⟨fun h => ⟨by omega, fun _ => by omega⟩, fun h => ⟨by omega, by have := h.2 rfl; omega⟩⟩

theorem idleEnabled_iff (s : State) (v : Nat) : idleEnabled s v = true ↔
    (0 < (voicePartition s v).size ∧ ((voicePartition s v).dbl = true → 1 < (voicePartition s v).size)) ∧
      (voice s v).state = .idle := by
  unfold idleEnabled
  rw [Bool.and_eq_true, beq_iff_eq, Bool.not_eq_true', not_disabled_iff, and_comm]

theorem displaceable_iff (s : State) (c v : Nat) : displaceable s c v = true ↔
    (0 < (voicePartition s v).size ∧ ((voicePartition s v).dbl = true → 1 < (voicePartition s v).size)) ∧
      (voice s v).state ≠ .idle ∧ (voice s v).envDir ≠ .falling ∧
        ∃ d, (voice s v).cue = some d ∧ cuePriority s d < cuePriority s c := by
  have hcue : (match (voice s v).cue with | some d => decide (cuePriority s d < cuePriority s c) | none => false) = true ↔
      ∃ d, (voice s v).cue = some d ∧ cuePriority s d < cuePriority s c := by
    cases (voice s v).cue with
    | none => exact iff_of_false nofun nofun
    | some d => exact decide_eq_true_iff.trans ⟨fun h => ⟨d, rfl, h⟩, fun ⟨_, hd, h⟩ => Option.some.inj hd ▸ h⟩
  unfold displaceable Voice.fading
  dsimp only
  rw [Bool.and_eq_true, Bool.and_eq_true, Bool.and_eq_true, bne_iff_ne, Bool.not_eq_true', Bool.not_eq_true',
    Bool.and_eq_false_iff, not_disabled_iff, bne_eq_false_iff_eq, beq_eq_false_iff_ne]
  refine Iff.trans (and_congr_right fun _ => hcue) ⟨?_, ?_⟩
  · rintro ⟨⟨⟨hs, hf⟩, he⟩, hd⟩
    exact ⟨he, hs, hf.resolve_left hs, hd⟩
  · rintro ⟨he, hs, hf, hd⟩
    exact ⟨⟨⟨hs, .inr hf⟩, he⟩, hd⟩

theorem overlapsOther_false_iff (s : State) (v : Nat) (p : Partition) : overlapsOther s v p = false ↔
    ∀ w, w < 6 → w ≠ v → (voice s w).state ≠ .idle → ∀ q, (voice s w).part = some q →
      (decide (p.start + p.size ≤ q.start) || decide (q.start + q.size ≤ p.start)) = true := by
  unfold overlapsOther
  rw [List.any_eq_false]
  refine forall_congr' fun w => ?_
  rw [List.mem_range]
  refine forall_congr' fun _ => ?_
  cases hq : (voice s w).part with
  | none =>
    refine iff_of_true ?_ nofun
    rw [Bool.and_false]
    decide
  | some q =>
    dsimp only
    rw [Bool.and_eq_true, Bool.and_eq_true, bne_iff_ne, bne_iff_ne, Partition.overlaps_eq, Bool.not_eq_true']
    constructor
    · intro h hne hs r hr
      obtain rfl := Option.some.inj hr
      by_contra ho
      exact h ⟨⟨hne, hs⟩, Bool.eq_false_iff.2 ho⟩
    · rintro h ⟨⟨hne, hs⟩, ho⟩
      rw [h hne hs q rfl] at ho
      cases ho

/-- A voice that is displaced before another: a lower priority, or the same and an earlier start (R124). -/
def DisplacedBefore (s : State) (v w : Nat) : Prop :=
  cuePriority s ((voice s v).cue.getD 0) < cuePriority s ((voice s w).cue.getD 0) ∨
    cuePriority s ((voice s v).cue.getD 0) = cuePriority s ((voice s w).cue.getD 0) ∧
      (voice s v).startNo.toNat < (voice s w).startNo.toNat

theorem betterVictim_first {s : State} {v w : Nat} (h : w = v ∨ DisplacedBefore s v w) :
    betterVictim s v w = v ∧ betterVictim s w v = v := by
  rcases h with rfl | h
  · exact ⟨ite_self _, ite_self _⟩
  · unfold betterVictim
    dsimp only
    exact ⟨if_neg (by unfold DisplacedBefore at h; omega), if_pos (by unfold DisplacedBefore at h; omega)⟩

/-- The better one of two voices is one of them. -/
theorem betterVictim_eq (s : State) (a b : Nat) : betterVictim s a b = a ∨ betterVictim s a b = b := by
  unfold betterVictim
  dsimp only
  split
  · exact .inr rfl
  · exact .inl rfl

/-- The voice displaced before all others of a list is the one the search ends with. -/
theorem foldl_betterVictim {s : State} {v : Nat} {l : List Nat} (hl : ∀ w ∈ l, w = v ∨ DisplacedBefore s v w) {a : Nat}
    (ha : a = v ∨ DisplacedBefore s v a) (h : a = v ∨ v ∈ l) : l.foldl (betterVictim s) a = v := by
  induction l generalizing a with
  | nil => exact h.resolve_right nofun
  | cons b l ih =>
    have hb := hl b List.mem_cons_self
    have hrest : ∀ w ∈ l, w = v ∨ DisplacedBefore s v w := fun w hw => hl w (List.mem_cons_of_mem _ hw)
    have hv : a = v ∨ b = v → betterVictim s a b = v := by
      rintro (rfl | rfl)
      · exact (betterVictim_first hb).1
      · exact (betterVictim_first ha).2
    refine ih hrest ?_ ?_
    · rcases betterVictim_eq s a b with he | he
      · exact he.symm ▸ ha
      · exact he.symm ▸ hb
    · rcases h with rfl | h
      · exact .inl (hv (.inl rfl))
      · rcases List.mem_cons.1 h with rfl | h
        · exact .inl (hv (.inr rfl))
        · exact .inr h

section Search

variable {s : State} {c v : Nat}

/-- The voice is free and its partition fits. -/
def FreeFits (s : State) (v : Nat) : Prop :=
  idleEnabled s v = true ∧ overlapsOther s v (voicePartition s v) = false

/-- The voice plays a cue of lower priority and its partition fits. -/
def LowerFits (s : State) (c v : Nat) : Prop :=
  displaceable s c v = true ∧ overlapsOther s v (voicePartition s v) = false

theorem free_and_fits_iff (s : State) (v : Nat) :
    (idleEnabled s v && !overlapsOther s v (voicePartition s v)) = true ↔ FreeFits s v := by
  rw [Bool.and_eq_true, Bool.not_eq_true']
  rfl

theorem chooseVoice_free (hv : v < 6) (h : FreeFits s v) (hfirst : ∀ w, w < v → ¬ FreeFits s w) :
    chooseVoice s c = .free v := by
  have hfind : (List.range 6).find? (fun v => idleEnabled s v && !overlapsOther s v (voicePartition s v)) = some v :=
    List.find?_range_eq_some.2 ⟨(free_and_fits_iff s v).2 h, List.mem_range.2 hv, fun w hw => by
      rw [Bool.not_eq_true', Bool.eq_false_iff]
      exact mt (free_and_fits_iff s w).1 (hfirst w hw)⟩
  unfold chooseVoice
  dsimp only
  rw [hfind]

theorem no_free (h : ∀ w, w < 6 → ¬ FreeFits s w) :
    (List.range 6).find? (fun v => idleEnabled s v && !overlapsOther s v (voicePartition s v)) = none :=
  List.find?_eq_none.2 fun w hw => mt (free_and_fits_iff s w).1 (h w (List.mem_range.1 hw))

theorem lower_and_fits_iff (s : State) (c v : Nat) :
    v ∈ (List.range 6).filter (fun v => displaceable s c v && !overlapsOther s v (voicePartition s v)) ↔
      v < 6 ∧ LowerFits s c v := by
  rw [List.mem_filter, List.mem_range, Bool.and_eq_true, Bool.not_eq_true']
  rfl

theorem chooseVoice_displace (hfree : ∀ w, w < 6 → ¬ FreeFits s w) (hv : v < 6) (h : LowerFits s c v)
    (hbest : ∀ w, w < 6 → w ≠ v → LowerFits s c w → DisplacedBefore s v w) : chooseVoice s c = .displace v := by
  have hmem := (lower_and_fits_iff s c v).2 ⟨hv, h⟩
  have hall : ∀ w ∈ (List.range 6).filter (fun v => displaceable s c v && !overlapsOther s v (voicePartition s v)),
      w = v ∨ DisplacedBefore s v w := fun w hw => by
    obtain ⟨hw6, hw⟩ := (lower_and_fits_iff s c w).1 hw
    by_cases hne : w = v
    · exact .inl hne
    · exact .inr (hbest w hw6 hne hw)
  unfold chooseVoice
  dsimp only
  rw [no_free hfree]
  dsimp only
  generalize (List.range 6).filter (fun v => displaceable s c v && !overlapsOther s v (voicePartition s v)) = l at *
  cases l with
  | nil => cases hmem
  | cons a l =>
    refine congrArg VoiceChoice.displace (foldl_betterVictim (fun w hw => hall w (List.mem_cons_of_mem _ hw))
      (hall a List.mem_cons_self) ?_)
    exact (List.mem_cons.1 hmem).imp Eq.symm id

theorem chooseVoice_drop (hnone : ∀ w, w < 6 → ¬ FreeFits s w ∧ ¬ LowerFits s c w) : chooseVoice s c =
    if (List.range 6).any (fun v => (idleEnabled s v || displaceable s c v) && !(!overlapsOther s v (voicePartition s v))) then
      .overlapDrop else .priorityDrop := by
  have hlower : (List.range 6).filter (fun v => displaceable s c v && !overlapsOther s v (voicePartition s v)) = [] := by
    rw [List.eq_nil_iff_forall_not_mem]
    intro w hw
    obtain ⟨hw6, hw⟩ := (lower_and_fits_iff s c w).1 hw
    exact (hnone w hw6).2 hw
  unfold chooseVoice
  dsimp only
  rw [no_free fun w hw => (hnone w hw).1]
  dsimp only
  rw [hlower]

theorem chooseVoice_overlap (hnone : ∀ w, w < 6 → ¬ FreeFits s w ∧ ¬ LowerFits s c w) (hv : v < 6)
    (h : idleEnabled s v = true ∨ displaceable s c v = true) : chooseVoice s c = .overlapDrop := by
  rw [chooseVoice_drop hnone, if_pos]
  refine List.any_eq_true.2 ⟨v, List.mem_range.2 hv, ?_⟩
  rw [Bool.not_not, Bool.and_eq_true, Bool.or_eq_true]
  refine ⟨h, ?_⟩
  by_contra hfit
  have hfit := Bool.eq_false_iff.2 hfit
  exact h.elim (fun h => (hnone v hv).1 ⟨h, hfit⟩) (fun h => (hnone v hv).2 ⟨h, hfit⟩)

theorem chooseVoice_priority (h : ∀ w, w < 6 → ¬ (idleEnabled s w = true ∨ displaceable s c w = true)) :
    chooseVoice s c = .priorityDrop := by
  rw [chooseVoice_drop fun w hw => ⟨fun hf => h w hw (.inl hf.1), fun hl => h w hw (.inr hl.1)⟩, if_neg]
  intro hany
  obtain ⟨w, hw, hcand⟩ := List.any_eq_true.1 hany
  rw [Bool.and_eq_true, Bool.or_eq_true] at hcand
  exact h w (List.mem_range.1 hw) hcand.1

end Search

/-! ### The start on a voice (R123) -/

/-- A voice's record as a cue begins on it (R115, R118, R126). -/
def Voice.begun (s : State) (c : Nat) (held : Bool) (exhaust : Bool) (vo : Voice) : Voice :=
  { vo with cue := some c, passes := startPasses s c held, env := 256, envDir := .steady, exhaust := exhaust }

theorem startOn_picks {s t : State} {v c : Nat} {held : Bool} {ex : Option (Option Clip)} {ph : CuePhase} {cl : Clip}
    {p : Partition} (hpick : Picks s c ex ph cl) (hs : t.settings = s.settings)
    (hd : t.sound.directory = s.sound.directory) (hpart : (voice t v).part = some p) (hp : 0 < p.size) :
    startOn v c held ex t = primeVoice v ph cl 0 (setVoice v ((voice t v).begun t c held ex.isSome) t) := by
  have hpicked := hpick (setVoice v ((voice t v).begun t c held ex.isSome) t) ((voice t v).begun t c held ex.isSome) p
    hs hd hpart hp
  unfold startOn
  dsimp only
  unfold Voice.begun at *
  rw [hpicked]

/-- The resident clip of another voice goes where its partition is overlapped (R121). -/
def Voice.evicted (p : Partition) (vo : Voice) : Voice :=
  { vo with resident := vo.resident.bind (fun r =>
      if (decide (p.start + p.size ≤ r.2.start) || decide (r.2.start + r.2.size ≤ p.start)) = true then some r else none) }

theorem dropResidents_other {s : State} {v w : Nat} (p : Partition) {x : Voice} (hw : w ≠ v)
    (h : s.sound.voices[w]? = some x) : (dropResidents v p s).sound.voices[w]? = some (x.evicted p) := by
  unfold dropResidents
  dsimp only
  rw [List.getElem?_mapIdx, h, Option.map_some]
  obtain ⟨_, _, _, _, _, _, _, _, _, _, _, _, _, _, _, _, resident, _, _⟩ := x
  cases resident with
  | none => rfl
  | some r =>
    obtain ⟨id, q⟩ := r
    unfold Voice.evicted
    dsimp only [Option.bind_some]
    rw [Partition.overlaps_eq]
    cases (decide (p.start + p.size ≤ q.start) || decide (q.start + q.size ≤ p.start)) <;> simp [hw]

theorem dropResidents_same {s : State} {v : Nat} (p : Partition) {x : Voice} (h : s.sound.voices[v]? = some x) :
    (dropResidents v p s).sound.voices[v]? = some x := by
  unfold dropResidents
  dsimp only
  rw [List.getElem?_mapIdx, h, Option.map_some]
  cases x.resident with
  | none => rfl
  | some r => simp

theorem dropResidents_frame (v : Nat) (p : Partition) (s : State) :
    dropResidents v p s = { s with sound := { s.sound with voices := (dropResidents v p s).sound.voices } } := rfl

end Sys2Proof.Machine
end

section
/-! Start requests are taken (R114 to R116, R118, R123 to R125); O41. -/

namespace Sys2Proof.Machine

/-- What a start on a voice leaves: the voice's own record goes to PRIME, the others lose the resident clips that the
partition overlaps (R121, R123). -/
theorem freshOn_goes {s t : State} {v c : Nat} {held : Bool} {ex : Option (Option Clip)} {ph : CuePhase} {cl : Clip}
    {vo : Voice} (hpick : Picks s c ex ph cl) (hs : t.settings = s.settings)
    (hd : t.sound.directory = s.sound.directory) (hvo : t.sound.voices[v]? = some vo)
    (hp : 0 < (voicePartition t v).size) (stack : List StackEntry) :
    GoesToPrime v (({ vo with startNo := t.sound.startCounter + 1, part := some (voicePartition t v), stack := stack } :
        Voice).begun t c held ex.isSome) ph cl 0 t (freshOn v c held ex stack t) ∧
      (∀ w x, w ≠ v → t.sound.voices[w]? = some x →
        (freshOn v c held ex stack t).sound.voices[w]? = some (x.evicted (voicePartition t v))) ∧
      freshOn v c held ex stack t = { t with port := (freshOn v c held ex stack t).port, sound := { t.sound with
        voices := (freshOn v c held ex stack t).sound.voices, startCounter := t.sound.startCounter + 1 } } := by
  generalize hz : ({ vo with startNo := t.sound.startCounter + 1, part := some (voicePartition t v), stack := stack } :
    Voice) = z
  generalize hdrop : dropResidents v (voicePartition t v)
    { t with sound := { t.sound with startCounter := t.sound.startCounter + 1 } } = d
  have hdframe : d = { t with sound := { t.sound with
      voices := d.sound.voices, startCounter := t.sound.startCounter + 1 } } := by
    subst hdrop
    rfl
  have hdself : d.sound.voices[v]? = some vo := by
    subst hdrop
    exact dropResidents_same _ hvo
  have hdother (w : Nat) (x : Voice) (hw : w ≠ v) (hx : t.sound.voices[w]? = some x) :
      d.sound.voices[w]? = some (x.evicted (voicePartition t v)) := by
    subst hdrop
    exact dropResidents_other _ hw hx
  have hfresh : freshOn v c held ex stack t = startOn v c held ex (setVoice v z d) := by
    have hvoice : voice d v = vo := voice_eq_of_getElem? hdself
    unfold freshOn
    dsimp only
    rw [hdrop, hvoice, ← hz, show d.sound.startCounter = t.sound.startCounter + 1 from by rw [hdframe]]
  have hz' : voice (setVoice v z d) v = z := voice_eq_of_getElem? (getElem?_setVoice hdself z)
  have hzpart : z.part = some (voicePartition t v) := by
    subst hz
    rfl
  have hstart := startOn_picks (t := setVoice v z d) (v := v) (held := held) hpick
    ((congrArg State.settings hdframe).trans hs) ((congrArg (fun u => u.sound.directory) hdframe).trans hd)
    (hz'.symm ▸ hzpart) hp
  have hbegun : z.begun (setVoice v z d) c held ex.isSome = z.begun t c held ex.isSome := by
    unfold Voice.begun startPasses cueByte set8
    rw [show (setVoice v z d).settings = t.settings from (congrArg State.settings hdframe :)]
  rw [hz', setVoice_setVoice, hbegun] at hstart
  rw [hfresh, hstart]
  have honly := sameButVoice_trans (setVoice_only v (z.begun t c held ex.isSome) d)
    (primeVoice_only v ph cl 0 (setVoice v (z.begun t c held ex.isSome) d))
  have htime : d.partTime = t.partTime := (congrArg State.partTime hdframe :)
  have hgoes := primeVoice_goes (getElem?_setVoice hdself (z.begun t c held ex.isSome)) (nofun : EnvDir.steady ≠ .falling)
    ph cl 0
  refine ⟨?_, fun w x hw hx => (honly.2 w hw).trans (hdother w x hw hx), ?_⟩
  · unfold GoesToPrime at hgoes ⊢
    rw [← htime]
    exact hgoes
  · generalize primeVoice v ph cl 0 (setVoice v (z.begun t c held ex.isSome) d) = u at *
    rw [honly.1, hdframe]

/-- A cue that restarts keeps its voice's partition (R123). -/
theorem restart_goes {s t : State} {v c : Nat} {held : Bool} {ex : Option (Option Clip)} {ph : CuePhase} {cl : Clip}
    {vo : Voice} {p : Partition} (hpick : Picks s c ex ph cl) (hs : t.settings = s.settings)
    (hd : t.sound.directory = s.sound.directory) (hvo : t.sound.voices[v]? = some vo) (hpart : vo.part = some p)
    (hp : 0 < p.size) :
    GoesToPrime v (vo.begun t c held ex.isSome) ph cl 0 t (startOn v c held ex t) ∧
      sameButVoice v t (startOn v c held ex t) := by
  have hz : voice t v = vo := voice_eq_of_getElem? hvo
  rw [startOn_picks hpick hs hd (hz.symm ▸ hpart) hp, hz]
  exact ⟨primeVoice_goes (getElem?_setVoice hvo _) (nofun : EnvDir.steady ≠ .falling) ph cl 0,
    sameButVoice_trans (setVoice_only v _ t) (primeVoice_only v ph cl 0 _)⟩

/-- The phase that a voice not IDLE plays or is about to play. -/
theorem phase_of_state {vo : Voice} {q : CuePhase}
    (h : vo.state = q.voiceState ∨ vo.state = .prime ∧ vo.nextPhase = some q) : vo.phase = some q := by
  unfold Voice.phase
  rcases h with h | ⟨h, hq⟩
  · rw [h]
    cases q <;> rfl
  · rw [h]
    exact hq

theorem displacedStack_eq {s : State} {vo : Voice} {d : Nat} {q : CuePhase} (hd : vo.cue = some d)
    (hq : vo.phase = some q) : displacedStack s vo =
      if cueByte s d 0 / 8 % 2 = 1 then ({ cue := d, phase := q, pos := vo.pos, passes := vo.passes } :: vo.stack).take 2
      else vo.stack := by
  unfold displacedStack cueResumable
  rw [hd, hq]
  dsimp only
  rw [if_congr beq_iff_eq rfl rfl]

/-! ### The request -/

section Request

variable {s : State} {c : Nat} {held : Bool}

/-- NORMAL mode and a cue that is playable (R114, R132). -/
def MayStart (s : State) (c : Nat) : Prop := s.sound.mode = .normal ∧ playable s c = true

theorem startRequest_refused (h : ¬ MayStart s c) : startRequest c held s = s := by
  refine if_pos ?_
  rw [Bool.or_eq_true, decide_eq_true_eq, Bool.not_eq_true', ← Bool.not_eq_true]
  cases hm : s.sound.mode with
  | quiet => exact .inl rfl
  | normal => exact .inr fun hp => h ⟨hm, hp⟩

theorem startRequest_taken (h : MayStart s c) : startRequest c held s =
    if exhaustCue s = some c then
      match (chooseExhaust c s).1 with
      | some clip => takeStart c held (some (some clip)) (chooseExhaust c s).2
      | none => s
    else takeStart c held none s := by
  refine if_neg ?_
  rw [h.1, h.2]
  decide

theorem startRequest_no_exhaust (he : exhaustCue s = some c) (h : ∀ cl rot, ¬ ExhaustChoice s c cl rot) :
    startRequest c held s = s := by
  by_cases hm : MayStart s c
  · rw [startRequest_taken hm, if_pos he, chooseExhaust_of_none h]
  · exact startRequest_refused hm

/-- A request that may start finds its clip, and the rotation goes on with it. -/
theorem startRequest_picks (hlens : ∀ d ∈ s.sound.directory, 0 < d.len) {ph : CuePhase} {cl : Clip} {rot : List Byte}
    (hm : MayStart s c) (h : (¬ exhaustCue s = some c ∧ FirstPresent s c .attack ph cl ∧ rot = s.sound.rotation) ∨
      (exhaustCue s = some c ∧ ph = .attack ∧ ExhaustChoice s c cl rot)) :
    ∃ ex, Picks s c ex ph cl ∧ ex.isSome = (exhaustCue s == some c) ∧
      startRequest c held s = takeStart c held ex { s with sound := { s.sound with rotation := rot } } := by
  rcases h with ⟨hne, hfirst, rfl⟩ | ⟨he, rfl, hchoice⟩
  · refine ⟨none, picks_first hfirst (hlens cl hfirst.1.mem), (beq_false_of_ne hne).symm, ?_⟩
    rw [startRequest_taken hm, if_neg hne]
  · refine ⟨some (some cl), picks_exhaust s c (hlens cl hchoice.mem), (beq_iff_eq.2 he).symm, ?_⟩
    rw [startRequest_taken hm, if_pos he, chooseExhaust_of_choice hchoice]

theorem takeStart_plays {ex : Option (Option Clip)} {v : Nat} (hv : v < 6) (h : (voice s v).plays c = true)
    (hfirst : ∀ w, w < v → ¬ (voice s w).plays c = true) : takeStart c held ex s = startOn v c held ex s := by
  have hfind : (List.range 6).find? (fun v => (voice s v).plays c) = some v :=
    List.find?_range_eq_some.2 ⟨h, List.mem_range.2 hv, fun w hw => by
      rw [Bool.not_eq_true', Bool.eq_false_iff]
      exact hfirst w hw⟩
  unfold takeStart
  rw [hfind]

theorem takeStart_fresh {ex : Option (Option Clip)} (h : ∀ w, w < 6 → ¬ (voice s w).plays c = true) :
    takeStart c held ex s = freshStart c held ex (unstack c s) := by
  have hfind : (List.range 6).find? (fun v => (voice s v).plays c) = none :=
    List.find?_eq_none.2 fun w hw => h w (List.mem_range.1 hw)
  unfold takeStart
  rw [hfind]

end Request

/-- Settles O41. -/
theorem startRequestsAreTaken : Obligations.StartRequestsAreTaken := by
  unfold Obligations.StartRequestsAreTaken
  intro s c held hsound hlens u exhaust may
  have hmay : MayStart s c ↔ may := and_congr_right fun _ => playable_iff s c
  refine ⟨fun h => startRequest_refused (mt hmay.1 h), fun he h => startRequest_no_exhaust he h, ?_⟩
  intro ph cl rot hm hclip begun plays part enabled apart fits free priority lower rest starts dropped
  obtain ⟨ex, hpick, hex, hu⟩ := startRequest_picks (held := held) hlens (hmay.2 hm) hclip
  replace hu : u = takeStart c held ex { s with sound := { s.sound with rotation := rot } } := hu
  generalize hs₁ : ({ s with sound := { s.sound with rotation := rot } } : State) = s₁ at hu
  have hvoices : s₁.sound.voices = s.sound.voices := by
    subst hs₁
    rfl
  have hsame (w : Nat) : voice s₁ w = voice s w := by
    unfold voice
    rw [hvoices]
  have hget {w : Nat} (hw : w < 6) : s.sound.voices[w]? = some (voice s w) := voices_getElem? hsound.six hw
  have hplays {w : Nat} (hw : w < 6) : plays w ↔ (voice s₁ w).plays c = true := by
    rw [plays_iff, hsame]
    exact ⟨fun ⟨x, hx, h⟩ => (voice_eq_of_getElem? hx).symm ▸ h, fun h => ⟨_, hget hw, h⟩⟩
  have hbegun (x : Voice) (t : State) (ht : t.settings = s.settings) : x.begun t c held ex.isSome = begun x := by
    unfold Voice.begun startPasses cueByte set8
    rw [ht, hex]
    rfl
  have hset : s₁.settings = s.settings := by
    subst hs₁
    rfl
  have hdir : s₁.sound.directory = s.sound.directory := by
    subst hs₁
    rfl
  refine ⟨fun v hv hplay hfirst vo hvo p hpart hp => ?restart, fun hnone => ?fresh⟩
  case restart =>
    rw [takeStart_plays hv ((hplays hv).1 hplay) fun w hw h => hfirst w hw ((hplays (by omega)).2 h)] at hu
    obtain ⟨hgoes, honly⟩ := restart_goes (t := s₁) (held := held) hpick hset hdir (hvoices ▸ hvo) hpart hp
    rw [← hu] at hgoes honly
    rw [hbegun vo s₁ hset] at hgoes
    refine ⟨?_, fun w hw => (honly.2 w hw).trans (by rw [hvoices]), ?_⟩
    · subst hs₁
      exact hgoes
    · subst hs₁
      exact honly.1
  case fresh =>
    rw [takeStart_fresh fun w hw h => hnone w hw ((hplays hw).2 h)] at hu
    generalize hs₂ : unstack c s₁ = s₂ at hu
    have hvoice (w : Nat) : voice s₂ w = (voice s w).without c := by
      rw [← hs₂, voice_unstack, hsame]
    have hget₂ {w : Nat} {x : Voice} (hx : s.sound.voices[w]? = some x) : s₂.sound.voices[w]? = some (x.without c) := by
      rw [← hs₂, unstack_eq]
      dsimp only
      rw [List.getElem?_map, hvoices, hx, Option.map_some]
    have hset₂ : s₂.settings = s.settings := by
      rw [← hs₂, unstack_eq]
      exact hset
    have hdir₂ : s₂.sound.directory = s.sound.directory := by
      rw [← hs₂, unstack_eq]
      exact hdir
    have hpart (w : Nat) : voicePartition s₂ w = part w := by
      unfold voicePartition set8
      rw [hset₂]
      rfl
    have hpriority (d : Nat) : cuePriority s₂ d = priority d := by
      unfold cuePriority cueByte set8
      rw [hset₂]
      rfl
    have hfree {w : Nat} (hw : w < 6) : free w ↔ idleEnabled s₂ w = true := by
      rw [idleEnabled_iff, hpart, hvoice]
      refine and_congr_right fun _ => ⟨fun ⟨x, hx, h⟩ => (voice_eq_of_getElem? hx).symm ▸ h, fun h => ⟨_, hget hw, h⟩⟩
    have hlower {w : Nat} (hw : w < 6) : lower w ↔ displaceable s₂ c w = true := by
      rw [displaceable_iff, hpart, hvoice]
      simp only [hpriority]
      refine and_congr_right fun _ => ⟨fun ⟨x, hx, h⟩ => (voice_eq_of_getElem? hx).symm ▸ h, fun h => ⟨_, hget hw, h⟩⟩
    have hfits (w : Nat) : fits w ↔ overlapsOther s₂ w (voicePartition s₂ w) = false := by
      rw [overlapsOther_false_iff, hpart]
      simp only [hvoice]
      constructor
      · exact fun h x hx hne => h x hx hne (voice s x) (hget hx)
      · rintro h x hx hne y hy
        obtain rfl := voice_eq_of_getElem? hy
        exact h x hx hne
    have hfreeFits {w : Nat} (hw : w < 6) : free w ∧ fits w ↔ FreeFits s₂ w := and_congr (hfree hw) (hfits w)
    have hlowerFits {w : Nat} (hw : w < 6) : lower w ∧ fits w ↔ LowerFits s₂ c w := and_congr (hlower hw) (hfits w)
    have hstarts (v : Nat) (hv : v < 6) (vo : Voice) (stack : List StackEntry) (hvo : s.sound.voices[v]? = some vo)
        (hp : 0 < (part v).size) (h : u = freshOn v c held ex stack s₂) : starts v vo stack := by
      obtain ⟨hgoes, hothers, hframe⟩ := freshOn_goes (t := s₂) (v := v) (held := held) hpick hset₂ hdir₂ (hget₂ hvo)
        ((hpart v).symm ▸ hp) stack
      rw [← h] at hgoes hothers hframe
      rw [hbegun _ s₂ hset₂, hpart] at hgoes
      rw [hpart] at hothers
      refine ⟨?_, fun w _ hne x hx => hothers w _ hne (hget₂ hx), ?_⟩
      · subst hs₂
        subst hs₁
        exact hgoes
      · subst hs₂
        subst hs₁
        exact hframe
    refine ⟨fun v hv vo hvo hf hfit hfirst => ?free, fun v hv hnofree hl hfit vo hvo d hd q hq hbest => ?displace,
      fun hnofit => ⟨?overlap, fun hnocand => ?priority⟩⟩
    case free =>
      refine hstarts v hv vo [] hvo hf.1.1 ?_
      rw [hu, freshStart, chooseVoice_free hv ((hfreeFits hv).1 ⟨hf, hfit⟩)
        fun w hw h => hfirst w hw ((hfreeFits (by omega)).2 h)]
    case displace =>
      refine hstarts v hv vo _ hvo hl.1.1 ?_
      have hbefore (w : Nat) (hw : w < 6) (hne : w ≠ v) (h : LowerFits s₂ c w) : DisplacedBefore s₂ v w := by
        obtain ⟨hlw, hfw⟩ := (hlowerFits hw).2 h
        obtain ⟨_, x, hx, _, _, e, he, _⟩ := hlw
        have hb := hbest w hw hne ((hlower hw).2 h.1) hfw x hx e he
        unfold DisplacedBefore
        rw [hvoice, hvoice, voice_eq_of_getElem? hvo, voice_eq_of_getElem? hx, hpriority, hpriority]
        unfold Voice.without
        dsimp only
        rw [hd, he]
        exact hb
      have hrecord : voice s₂ v = vo.without c := (hvoice v).trans (congrArg _ (voice_eq_of_getElem? hvo))
      rw [hu, freshStart, chooseVoice_displace (fun w hw h => hnofree w hw ((hfreeFits hw).2 h)) hv
        ((hlowerFits hv).1 ⟨hl, hfit⟩) hbefore]
      dsimp only
      rw [hrecord, displacedStack_eq (s := s₂) (vo := vo.without c) hd (phase_of_state hq)]
      unfold cueByte set8
      rw [hset₂]
      rfl
    case overlap =>
      rintro ⟨v, hv, hcand⟩
      have hnone (w : Nat) (hw : w < 6) : ¬ FreeFits s₂ w ∧ ¬ LowerFits s₂ c w :=
        ⟨fun h => hnofit w hw ((hfreeFits hw).2 h |>.imp_left .inl), fun h => hnofit w hw ((hlowerFits hw).2 h |>.imp_left .inr)⟩
      rw [hu, freshStart, chooseVoice_overlap hnone hv (hcand.imp (hfree hv).1 (hlower hv).1)]
      subst hs₂
      subst hs₁
      rfl
    case priority =>
      rw [hu, freshStart, chooseVoice_priority fun w hw h => hnocand w hw (h.imp (hfree hw).2 (hlower hw).2)]
      subst hs₂
      subst hs₁
      rfl

end Sys2Proof.Machine
end

section
/-! The ends of phases and cues, and the cues that the stack resumes (R115, R121, R126, R131); O42. -/

namespace Sys2Proof.Machine

theorem chooseExhaust_setVoice (c v : Nat) (x : Voice) (s : State) :
    chooseExhaust c (setVoice v x s) = ((chooseExhaust c s).1, setVoice v x (chooseExhaust c s).2) := by
  have hrotate (k : Nat) : rotateVariant (setVoice v x s) k = rotateVariant s k := rfl
  have hvariant : exhaustVariant (setVoice v x s) = exhaustVariant s := rfl
  have hclip : phaseClip (setVoice v x s) c .attack = phaseClip s c .attack := rfl
  unfold chooseExhaust
  rw [hrotate, hrotate, hvariant, hclip]
  cases rotateVariant s (exhaustVariant s) with
  | some y => rfl
  | none =>
    cases rotateVariant s 2 with
    | some y => rfl
    | none => rfl

/-- A voice's record as an entry of its stack is resumed (R126). -/
def Voice.resumed (e : StackEntry) (rest : List StackEntry) (exhaust : Bool) (vo : Voice) : Voice :=
  { vo with cue := some e.cue, passes := e.passes, stack := rest, env := 0, envDir := .rising, exhaust := exhaust }

/-- The clip that a resumed exhaust cue chooses anew. -/
def resumedChoice (e : StackEntry) (s : State) : Option Clip × State :=
  if exhaustCue s == some e.cue then chooseExhaust e.cue s else (none, s)

/-- What an entry of the stack has to play on a voice. -/
def resumedPick (s : State) (x : Voice) (e : StackEntry) (chosen : Option Clip) : Option (CuePhase × Clip × Nat) :=
  if x.exhaust then pickPhase s x e.cue (some chosen) [(.attack, if e.phase = .attack then e.pos else 0)]
  else pickPhase s x e.cue none ((e.phase, e.pos) :: e.phase.after.map (fun ph => (ph, 0)))

/-- The voice plays what the entry has to play, or the entries below are looked at. -/
def resumeWith (v : Nat) (e : StackEntry) (rest : List StackEntry) (x : Voice) (chosen : Option Clip) (s : State) : State :=
  match resumedPick s x e chosen with
  | some (ph, c, pos) => primeVoice v ph c pos s
  | none => resumeFrom v rest s

theorem resumeFrom_cons (v : Nat) (e : StackEntry) (rest : List StackEntry) (s : State) :
    resumeFrom v (e :: rest) s =
      resumeWith v e rest ((voice (resumedChoice e s).2 v).resumed e rest (exhaustCue s == some e.cue)) (resumedChoice e s).1
        (setVoice v ((voice (resumedChoice e s).2 v).resumed e rest (exhaustCue s == some e.cue)) (resumedChoice e s).2) := by
  rw [resumeFrom]
  rfl

theorem voice_resumedChoice (e : StackEntry) (s : State) (v : Nat) : voice (resumedChoice e s).2 v = voice s v := by
  unfold resumedChoice chooseExhaust
  split
  · split
    · rfl
    · split
      · rfl
      · rfl
  · rfl

theorem resumedChoice_setVoice (e : StackEntry) (v : Nat) (x : Voice) (s : State) :
    resumedChoice e (setVoice v x s) = ((resumedChoice e s).1, setVoice v x (resumedChoice e s).2) := by
  have hcue : exhaustCue (setVoice v x s) = exhaustCue s := rfl
  unfold resumedChoice
  rw [hcue]
  split
  · exact chooseExhaust_setVoice e.cue v x s
  · rfl

/-- What resuming from a stack makes of a voice turns on its partition, buffer and resident clip alone. -/
theorem resumeFrom_setVoice {v : Nat} {s : State} (hv : v < s.sound.voices.length) {a b : Voice}
    (hab : ∀ e rest exhaust, a.resumed e rest exhaust = b.resumed e rest exhaust) (l : List StackEntry) :
    resumeFrom v l (setVoice v a s) = resumeFrom v l (setVoice v b s) := by
  have ha : voice (setVoice v a s) v = a := voice_setVoice_same hv a
  have hb : voice (setVoice v b s) v = b := voice_setVoice_same hv b
  cases l with
  | nil =>
    have hidle {x : Voice} (hx : voice (setVoice v x s) v = x) : idleVoice v (setVoice v x s) =
        setVoice v { resetVoice with resident := x.resident, underruns := x.underruns } (withdrawVoice v s) := by
      have hx' : voice (withdrawVoice v (setVoice v x s)) v = x := hx
      unfold idleVoice
      dsimp only
      rw [hx']
      exact setVoice_setVoice v _ x (withdrawVoice v s)
    have hcore := hab { cue := 0, phase := .attack, pos := 0, passes := 0 } [] false
    have hres : a.resident = b.resident := (congrArg Voice.resident hcore :)
    have hund : a.underruns = b.underruns := (congrArg Voice.underruns hcore :)
    refine (hidle ha).trans (Eq.trans ?_ (hidle hb).symm)
    rw [hres, hund]
  | cons e rest =>
    have hcue (x : Voice) : exhaustCue (setVoice v x s) = exhaustCue s := rfl
    rw [resumeFrom_cons, resumeFrom_cons, voice_resumedChoice, voice_resumedChoice, resumedChoice_setVoice,
      resumedChoice_setVoice, ha, hb, hab, setVoice_setVoice, setVoice_setVoice, hcue, hcue]

section CueEnds

variable {s : State} {v : Nat} {vo : Voice}

theorem cueEnd_empty (h : s.sound.voices[v]? = some vo) (hstack : vo.stack = []) : cueEnd v s = idleVoice v s := by
  unfold cueEnd
  rw [voice_eq_of_getElem? h, hstack]
  rfl

theorem cueEnd_stacked (h : s.sound.voices[v]? = some vo) {e : StackEntry} {below : List StackEntry}
    (hstack : vo.stack = e :: below) : cueEnd v s =
      resumeWith v e below (vo.resumed e below (exhaustCue s == some e.cue)) (resumedChoice e s).1
        (setVoice v (vo.resumed e below (exhaustCue s == some e.cue)) (resumedChoice e s).2) := by
  unfold cueEnd
  rw [voice_eq_of_getElem? h, hstack, resumeFrom_cons, voice_resumedChoice, voice_eq_of_getElem? h]

/-- An entry with something to play resumes on its voice. -/
theorem resumeWith_picked {e : StackEntry} {below : List StackEntry} {chosen : Option Clip} {ph : CuePhase} {cl : Clip}
    {pos : Nat} (h : s.sound.voices[v]? = some vo) {exhaust : Bool}
    (hpick : resumedPick (setVoice v (vo.resumed e below exhaust) s) (vo.resumed e below exhaust) e chosen =
      some (ph, cl, pos)) :
    GoesToPrime v (vo.resumed e below exhaust) ph cl pos s
        (resumeWith v e below (vo.resumed e below exhaust) chosen (setVoice v (vo.resumed e below exhaust) s)) ∧
      sameButVoice v s
        (resumeWith v e below (vo.resumed e below exhaust) chosen (setVoice v (vo.resumed e below exhaust) s)) := by
  unfold resumeWith
  rw [hpick]
  exact ⟨primeVoice_goes (getElem?_setVoice h _) (nofun : EnvDir.rising ≠ .falling) ph cl pos,
    sameButVoice_trans (setVoice_only v _ s) (primeVoice_only v ph cl pos _)⟩

/-- An entry with nothing to play is popped. -/
theorem resumeWith_nothing {e : StackEntry} {below : List StackEntry} {chosen : Option Clip}
    (h : s.sound.voices[v]? = some vo) {exhaust : Bool}
    (hpick : resumedPick (setVoice v (vo.resumed e below exhaust) s) (vo.resumed e below exhaust) e chosen = none) :
    resumeWith v e below (vo.resumed e below exhaust) chosen (setVoice v (vo.resumed e below exhaust) s) =
      cueEnd v (setVoice v { vo with stack := below } s) := by
  unfold resumeWith cueEnd
  rw [hpick, voice_eq_of_getElem? (getElem?_setVoice h _)]
  exact resumeFrom_setVoice (a := vo.resumed e below exhaust) (b := { vo with stack := below })
    (List.getElem?_eq_some_iff.1 h).1 (fun _ _ _ => rfl) below

theorem phaseEnd_fading (h : s.sound.voices[v]? = some vo) (hf : vo.fading = true) : phaseEnd v s = idleVoice v s := by
  unfold phaseEnd
  rw [voice_eq_of_getElem? h]
  exact if_pos hf

theorem phaseEnd_playing (h : s.sound.voices[v]? = some vo) (hf : vo.fading = false) {c : Nat} {ph : CuePhase}
    (hc : vo.cue = some c) (hph : vo.phase = some ph) : phaseEnd v s =
      if vo.exhaust then cueEnd v s
      else match pickPhase s vo c none (ph.after.map (fun q => (q, 0))) with
        | some (q, cl, pos) => primeVoice v q cl pos s
        | none => cueEnd v s := by
  unfold phaseEnd
  rw [voice_eq_of_getElem? h]
  dsimp only
  rw [hf, if_neg (by decide), hc, hph] <;> rfl

end CueEnds

/-- The place of a phase in its cue (R115). -/
def CuePhase.rank : CuePhase → Nat
  | .attack => 0
  | .loop => 1
  | .release => 2

theorem CuePhase.mem_after (ph q : CuePhase) : q ∈ ph.after ↔ ph.rank < q.rank := by
  cases ph <;> cases q <;> decide

theorem CuePhase.rank_le (ph : CuePhase) : ph.rank ≤ 2 := by
  cases ph <;> decide

/-- With a clip for a later phase there is a first one. -/
theorem exists_next {s : State} {c : Nat} {ph q : CuePhase} {d : Clip} (hq : q ∈ ph.after) (hd : HasClip s c q d) :
    ∃ r cl, r ∈ ph.after ∧ HasClip s c r cl ∧ ∀ x, x ∈ ph.after → r ∈ x.after → ∀ y, ¬ HasClip s c x y := by
  by_cases hbefore : ∃ x, x ∈ ph.after ∧ q ∈ x.after ∧ ∃ y, HasClip s c x y
  · obtain ⟨x, hx, hqx, y, hy⟩ := hbefore
    refine ⟨x, y, hx, hy, fun z hz hxz => ?_⟩
    rw [CuePhase.mem_after] at hqx hz hxz
    have := q.rank_le
    omega
  · exact ⟨q, d, hq, hd, fun x hx hqx y hy => hbefore ⟨x, hx, hqx, y, hy⟩⟩

/-- Settles O42. -/
theorem cueEndsAndResumes : Obligations.CueEndsAndResumes := by
  unfold Obligations.CueEndsAndResumes
  intro s v vo h p hpart hp _ hlens next
  refine ⟨fun c ph hc hph => ⟨fun hfall => ?fades, fun hfall hnone => ?ends, fun hfall hex q cl hnext => ?goes⟩,
    fun hstack => ?empty, fun e below hstack => ?stacked⟩
  case fades =>
    have hfade : vo.fading = true := by
      unfold Voice.fading
      rw [hph, hfall]
      cases ph <;> rfl
    rw [phaseEnd_fading h hfade]
    exact idleVoice_becomes h
  case ends =>
    have hfade : vo.fading = false := by
      unfold Voice.fading
      rw [beq_false_of_ne hfall, Bool.and_false]
    rw [phaseEnd_playing h hfade hc (phase_of_state (.inl hph))]
    rcases hnone with hex | hnone
    · rw [hex, if_pos rfl]
    · have habsent : pickPhase s vo c none (ph.after.map (fun q => (q, 0))) = none := by
        refine pickPhase_none_of_absent fun x hx => phaseClip_eq_none.2 fun d hd => ?_
        obtain ⟨q, hq, rfl⟩ := List.mem_map.1 hx
        obtain ⟨r, cl, hr⟩ := exists_next hq hd
        exact hnone r cl hr
      rw [habsent]
      exact ite_self _
  case goes =>
    have hfade : vo.fading = false := by
      unfold Voice.fading
      rw [beq_false_of_ne hfall, Bool.and_false]
    obtain ⟨hq, hclip, hfirst⟩ := hnext
    rw [phaseEnd_playing h hfade hc (phase_of_state (.inl hph)), hex, if_neg (by decide),
      pickPhase_after hpart hp (hlens cl hclip.mem) hq hclip hfirst]
    exact ⟨primeVoice_goes h hfall q cl 0, primeVoice_only v q cl 0 s⟩
  case empty =>
    rw [cueEnd_empty h hstack]
    exact idleVoice_becomes h
  case stacked =>
    intro u x
    have hx : vo.resumed e below (exhaustCue s == some e.cue) = x := rfl
    have hu : u = resumeWith v e below x (resumedChoice e s).1 (setVoice v x (resumedChoice e s).2) :=
      cueEnd_stacked h hstack
    have hxpart : x.part = some p := hpart
    have hplain (hne : exhaustCue s ≠ some e.cue) : resumedChoice e s = (none, s) ∧ x.exhaust = false :=
      ⟨if_neg (by rw [beq_iff_eq]; exact hne), beq_false_of_ne hne⟩
    have hexhaust (he : exhaustCue s = some e.cue) : resumedChoice e s = chooseExhaust e.cue s ∧ x.exhaust = true :=
      ⟨if_pos (beq_iff_eq.2 he), beq_iff_eq.2 he⟩
    refine ⟨fun hne cl len lp hclip hsounds hpos => ?here, fun hne hgone q cl hnext => ?later,
      fun he cl rot len lp hchoice hsounds hattack hlen => ?exhaust, fun hnothing => ?nothing⟩
    case here =>
      obtain ⟨rfl, rfl⟩ := soundsIn_iff.1 hsounds
      obtain ⟨hchoice, hxe⟩ := hplain hne
      have hpick : resumedPick (setVoice v x s) x e none = some (e.phase, cl, e.pos) := by
        unfold resumedPick
        rw [hxe, if_neg (by decide)]
        exact pickPhase_present (s := setVoice v x s) (phaseClip_eq_some.2 hclip) (endsAtOnce_inside hxpart hpos) _
      rw [hu, hchoice]
      exact resumeWith_picked h hpick
    case later =>
      obtain ⟨hq, hclip, hfirst⟩ := hnext
      obtain ⟨hchoice, hxe⟩ := hplain hne
      have hpick : resumedPick (setVoice v x s) x e none = some (q, cl, 0) := by
        unfold resumedPick
        rw [hxe, if_neg (by decide), pickPhase_absent (s := setVoice v x s) (phaseClip_eq_none.2 hgone)]
        exact pickPhase_after (s := setVoice v x s) hxpart hp (hlens cl hclip.mem) hq hclip hfirst
      rw [hu, hchoice]
      exact resumeWith_picked h hpick
    case exhaust =>
      obtain ⟨rfl, rfl⟩ := soundsIn_iff.1 hsounds
      obtain ⟨hchosen, hxe⟩ := hexhaust he
      rw [chooseExhaust_of_choice hchoice] at hchosen
      have hinside : (if e.phase = .attack then e.pos else 0) < playLen p cl := by
        split
        · exact hattack ‹_›
        · exact hlen
      have hpick (t : State) : resumedPick t x e (some cl) =
          some (.attack, cl, if e.phase = .attack then e.pos else 0) := by
        unfold resumedPick
        rw [hxe, if_pos rfl]
        exact pickPhase_exhaust (endsAtOnce_inside hxpart hinside) []
      rw [hu, hchosen]
      obtain ⟨hgoes, hframe, hothers⟩ := resumeWith_picked
        (s := { s with sound := { s.sound with rotation := rot } }) (e := e) (below := below) h (hpick _)
      exact ⟨hgoes, hframe, hothers⟩
    case nothing =>
      rcases hnothing with ⟨hne, hgone⟩ | ⟨he, hgone⟩
      · obtain ⟨hchoice, hxe⟩ := hplain hne
        have hpick : resumedPick (setVoice v x s) x e none = none := by
          unfold resumedPick
          rw [hxe, if_neg (by decide)]
          refine pickPhase_none_of_absent fun y hy => phaseClip_eq_none.2 fun d => ?_
          rcases List.mem_cons.1 hy with rfl | hy
          · exact hgone _ d (.inl rfl)
          · obtain ⟨q, hq, rfl⟩ := List.mem_map.1 hy
            exact hgone q d (.inr hq)
        rw [hu, hchoice]
        exact resumeWith_nothing h hpick
      · obtain ⟨hchosen, hxe⟩ := hexhaust he
        rw [chooseExhaust_of_none hgone] at hchosen
        have hpick : resumedPick (setVoice v x s) x e none = none := by
          unfold resumedPick
          rw [hxe, if_pos rfl]
          exact pickPhase_exhaust_none ..
        rw [hu, hchosen]
        exact resumeWith_nothing h hpick

end Sys2Proof.Machine
end

section
/-! A voice moves on by one sample: the loop point, the clip's end, the halves of a double buffer (R115, R121, R122,
R127, R131); O43. -/

namespace Sys2Proof.Machine

theorem cueHeld_iff (s : State) (c : Nat) : cueHeld s c = true ↔
    asked s (9 + c) = true ∨ (s.sound.ambient = true ∧ set8 s 457 = c ∧ c ≤ 31) := by
  have hambient : (ambientCue s == some c) = true ↔ set8 s 457 = c ∧ c ≤ 31 := by
    unfold ambientCue namedCue
    rw [beq_iff_eq]
    split
    next h => exact ⟨fun he => ⟨Option.some.inj he, Option.some.inj he ▸ h⟩, fun he => congrArg some he.1⟩
    next h => exact iff_of_false nofun fun he => h (he.1.symm ▸ he.2)
  unfold cueHeld
  rw [Bool.or_eq_true, Bool.and_eq_true, hambient]
  rfl

theorem halfUsed_iff (vo : Voice) (pos : Nat) :
    halfUsed vo pos = true ↔ ∀ r, vo.half vo.playing = .full r → r.start + r.len ≤ pos := by
  unfold halfUsed
  cases vo.half vo.playing with
  | full r => exact decide_eq_true_iff.trans ⟨fun h _ he => Half.full.inj he ▸ h, fun h => h r rfl⟩
  | empty => exact iff_of_true rfl nofun
  | filling r => exact iff_of_true rfl nofun

section Advance

variable {s : State} {v : Nat} {vo : Voice} {p : Partition} {cl : Clip} {c : Nat}

/-- What a voice with a clip does when it has played a sample. -/
theorem advanceVoice_eq (h : s.sound.voices[v]? = some vo) (hpart : vo.part = some p) (hclip : vo.clip = some cl)
    (hcue : vo.cue = some c) : advanceVoice v s =
      if vo.state = .loop ∧ vo.pos + 1 = loopPoint p cl then
        if (cueHeld s c || decide (1 < vo.passes)) = true then
          if p.dbl = true then turnHalf v (setVoice v { vo with
            pos := wrapTarget p cl, passes := if cueHeld s c = true then vo.passes else vo.passes - 1 } s)
          else setVoice v { vo with
            pos := wrapTarget p cl, passes := if cueHeld s c = true then vo.passes else vo.passes - 1 } s
        else if playLen p cl ≤ loopPoint p cl then phaseEnd v s
        else if p.dbl = true then leaveLoop v (loopPoint p cl) s
        else setVoice v { vo with pos := vo.pos + 1 } s
      else if playLen p cl ≤ vo.pos + 1 then phaseEnd v s
      else if (p.dbl && halfUsed vo (vo.pos + 1)) = true then turnHalf v (setVoice v { vo with pos := vo.pos + 1 } s)
      else setVoice v { vo with pos := vo.pos + 1 } s := by
  unfold advanceVoice
  rw [voice_eq_of_getElem? h]
  dsimp only
  rw [hpart, hclip, hcue]

/-- A voice with its playing half used up, turned to the other one. -/
def Voice.other (vo : Voice) : Voice := { vo.setHalf vo.playing .empty with playing := !vo.playing }

/-- A half that is FULL. -/
def Half.isFull : Half → Bool
  | .full _ => true
  | _ => false

/-- The record of a voice whose playing half is used up, before it asks for a run. -/
def Voice.turned (vo : Voice) : Voice :=
  if (vo.other.half vo.other.playing).isFull then vo.other
  else if vo.other.fading then { vo.other with wait := .starved }
  else { vo.other with wait := .underrun, underruns := bump16 vo.other.underruns }

theorem other_fading (vo : Voice) : vo.other.fading = vo.fading := by
  unfold Voice.other Voice.setHalf
  cases vo.playing <;> rfl

theorem other_underruns (vo : Voice) : vo.other.underruns = vo.underruns := by
  unfold Voice.other Voice.setHalf
  cases vo.playing <;> rfl

theorem other_half (vo : Voice) : vo.other.half vo.other.playing = vo.half (!vo.playing) := by
  unfold Voice.other Voice.setHalf Voice.half
  cases vo.playing <;> rfl

theorem turnHalf_eq (h : s.sound.voices[v]? = some vo) : turnHalf v s = askRun v (setVoice v vo.turned s) := by
  have hturn : turnHalf v s = askRun v (setVoice v (voice s v).turned s) := by
    unfold turnHalf Voice.turned Half.isFull Voice.other
    rfl
  rw [hturn, voice_eq_of_getElem? h]

/-- A voice turns to a half that is FULL. -/
theorem turned_full {r : Run} (h : vo.half (!vo.playing) = .full r) : vo.turned = vo.other := by
  unfold Voice.turned
  rw [other_half, h]
  rfl

/-- A voice turns to a half that holds nothing to play. -/
theorem turned_short (h : ∀ r, vo.half (!vo.playing) ≠ .full r) : vo.turned =
    if vo.fading then { vo.other with wait := .starved }
    else { vo.other with wait := .underrun, underruns := bump16 vo.underruns } := by
  have hempty : (vo.half (!vo.playing)).isFull = false := by
    cases hh : vo.half (!vo.playing) with
    | full r => exact absurd hh (h r)
    | empty => rfl
    | filling r => rfl
  unfold Voice.turned
  rw [other_half, hempty, other_fading, other_underruns]
  rfl

/-- What is left of a voice's record when it turns to its other half. -/
theorem turned_keeps (vo : Voice) : vo.turned.pos = vo.pos ∧ vo.turned.playing = (!vo.playing) ∧
    vo.turned.state = vo.state ∧ vo.turned.cue = vo.cue := by
  have hother : vo.other.pos = vo.pos ∧ vo.other.playing = (!vo.playing) ∧ vo.other.state = vo.state ∧
      vo.other.cue = vo.cue := by
    unfold Voice.other Voice.setHalf
    cases vo.playing <;> exact ⟨rfl, rfl, rfl, rfl⟩
  unfold Voice.turned
  split
  · exact hother
  · split
    · exact hother
    · exact hother

end Advance

/-- The phase of a voice that plays. -/
theorem exists_phase {vo : Voice} (h : vo.state = .attack ∨ vo.state = .loop ∨ vo.state = .release) :
    ∃ ph : CuePhase, vo.state = ph.voiceState ∧ (ph = .loop ↔ vo.state = .loop) := by
  rcases h with h | h | h
  · exact ⟨.attack, h, by rw [h]; decide⟩
  · exact ⟨.loop, h, by rw [h]; decide⟩
  · exact ⟨.release, h, by rw [h]; decide⟩

/-- A double-buffered voice that has played the last sample of its half: the turn, the next run, the underrun (R122,
R131). -/
theorem turnHalf_turns {s : State} {v : Nat} {vo : Voice} {p : Partition} {cl : Clip} {ph : CuePhase}
    (h : s.sound.voices[v]? = some vo) (hpart : vo.part = some p) (hclip : vo.clip = some cl) (hdbl : p.dbl = true)
    (hph : vo.state = ph.voiceState) (a n : Nat) :
    ∃ x, (turnHalf v (setVoice v { vo with pos := a, passes := n } s)).sound.voices[v]? = some x ∧ x.pos = a ∧
      x.playing = !vo.playing ∧ x.state = vo.state ∧ x.cue = vo.cue ∧
      (∀ r, vo.half (!vo.playing) = .full r → x.half x.playing = .full r ∧ x.wait = vo.wait ∧ x.underruns = vo.underruns ∧
        ∀ b, vo.nextRun = some b → vo.envDir ≠ .falling → voiceOutstanding v s = false →
          x.half vo.playing = .filling (runFrom p cl ph b) ∧
          AsksFlash { who := .voice v, op := .read (cl.addr + 2 * b) (2 * (runFrom p cl ph b).len), entered := s.partTime }
            (turnHalf v (setVoice v { vo with pos := a, passes := n } s))) ∧
      ((∀ r, vo.half (!vo.playing) ≠ .full r) →
        (vo.envDir = .falling → x.wait = .starved ∧ x.underruns = vo.underruns) ∧
        (vo.envDir ≠ .falling → x.wait = .underrun ∧ x.underruns = min 65535 (vo.underruns + 1))) := by
  have hne : vo.state ≠ .idle := hph ▸ CuePhase.voiceState_ne_idle ph
  generalize hy : ({ vo with pos := a, passes := n } : Voice) = y
  have hyfade : y.fading = (vo.envDir == .falling) := by
    subst hy
    exact (congrArg (· && _) (bne_iff_ne.2 hne)).trans (Bool.true_and _)
  have hyget : (setVoice v y s).sound.voices[v]? = some y := getElem?_setVoice h y
  have hzget : (setVoice v y.turned s).sound.voices[v]? = some y.turned := getElem?_setVoice h y.turned
  rw [turnHalf_eq hyget, setVoice_setVoice]
  obtain ⟨hpos, hplaying, hstate, hcue⟩ := turned_keeps y
  obtain ⟨h0, h1, next, hrecord, hfull⟩ := askRun_keeps hzget
  refine ⟨_, hrecord, ?_, ?_, ?_, ?_, fun r hr => ?_, fun hshort => ?_⟩
  · subst hy
    exact hpos
  · subst hy
    exact hplaying
  · subst hy
    exact hstate
  · subst hy
    exact hcue
  · have hr' : y.half (!y.playing) = .full r := by
      subst hy
      exact hr
    have hplays : y.turned.half y.turned.playing = .full r := by
      rw [turned_full hr', other_half, hr']
    have hother : y.turned.wait = y.wait ∧ y.turned.underruns = y.underruns ∧ y.turned.part = y.part ∧
        y.turned.clip = y.clip ∧ y.turned.nextRun = y.nextRun ∧ y.turned.half y.playing = .empty := by
      rw [turned_full hr']
      unfold Voice.other Voice.setHalf Voice.half
      cases y.playing <;> exact ⟨rfl, rfl, rfl, rfl, rfl, rfl⟩
    obtain ⟨hwait, hund, hzpart, hzclip, hznext, hempty⟩ := hother
    refine ⟨hfull _ r hplays, ?_, ?_, fun b hb hfall hout => ?_⟩
    · subst hy
      exact hwait
    · subst hy
      exact hund
    · have hfree : freeHalf y.turned = some y.playing := by
        rw [freeHalf_eq, hplays, if_neg nofun, hplaying, Bool.not_not, hempty, if_pos rfl]
      have hfade : y.turned.fading = false := by
        rw [turned_full hr', other_fading, hyfade]
        exact beq_false_of_ne hfall
      have hphase : y.turned.phase = some ph := by
        refine phase_of_state (.inl ?_)
        rw [hstate]
        subst hy
        exact hph
      obtain ⟨hrec, hasks⟩ := askRun_asks hzget (by rw [hzpart]; subst hy; exact hpart) (by rw [hzclip]; subst hy; exact hclip)
        (by rw [hznext]; subst hy; exact hb) hphase hfree hdbl hout hfade
      refine ⟨?_, hasks⟩
      have hx := Option.some.inj (hrecord.symm.trans hrec)
      rw [hx]
      subst hy
      unfold Voice.setHalf Voice.half
      cases vo.playing <;> rfl
  · have hshort' : ∀ r, y.half (!y.playing) ≠ .full r := by
      subst hy
      exact hshort
    have hz := turned_short hshort'
    have hother : y.other.underruns = y.underruns := other_underruns y
    refine ⟨fun hfall => ?_, fun hfall => ?_⟩
    · rw [hyfade, hfall, if_pos (by decide)] at hz
      rw [hz]
      subst hy
      exact ⟨rfl, hother⟩
    · rw [hyfade, beq_false_of_ne hfall, if_neg (by decide)] at hz
      rw [hz]
      subst hy
      exact ⟨rfl, rfl⟩

/-- Leaving the loop of a double-buffered voice: a fresh run from the loop point (R122; log 60). -/
theorem leaveLoop_reads {s : State} {v : Nat} {vo : Voice} {p : Partition} {cl : Clip} {ph : CuePhase}
    (h : s.sound.voices[v]? = some vo) (hpart : vo.part = some p) (hclip : vo.clip = some cl) (hdbl : p.dbl = true)
    (hph : vo.state = ph.voiceState) (hfall : vo.envDir ≠ .falling) (lp : Nat) :
    ∃ x, (leaveLoop v lp s).sound.voices[v]? = some x ∧ x.pos = lp ∧ x.half0 = .filling (runFrom p cl ph lp) ∧
      x.half1 = .empty ∧ x.playing = false ∧ x.wait = .loopRead ∧ x.underruns = vo.underruns ∧
      AsksFlash { who := .voice v, op := .read (cl.addr + 2 * lp) (2 * (runFrom p cl ph lp).len), entered := s.partTime }
        (leaveLoop v lp s) := by
  have hfade : vo.fading = false := by
    unfold Voice.fading
    rw [beq_false_of_ne hfall, Bool.and_false]
  have hw : (withdrawVoice v s).sound.voices[v]? = some vo := h
  generalize hy : ({ vo with
    pos := lp, half0 := .empty, half1 := .empty, playing := false, nextRun := some lp, wait := .loopRead } : Voice) = y
  have hleave : leaveLoop v lp s = askRun v (setVoice v y (withdrawVoice v s)) := by
    unfold leaveLoop
    dsimp only
    rw [voice_eq_of_getElem? hw, hfade, ← hy]
    rfl
  rw [hleave]
  obtain ⟨hrec, hasks⟩ := askRun_asks (a := lp) (k := false) (ph := ph) (getElem?_setVoice hw y)
    (by subst hy; exact hpart) (by subst hy; exact hclip) (by subst hy; rfl)
    (phase_of_state (.inl (by subst hy; exact hph))) (by subst hy; rfl) hdbl (voiceOutstanding_withdrawVoice v s)
    (by subst hy; exact hfade)
  subst hy
  exact ⟨_, hrec, rfl, rfl, rfl, rfl, rfl, rfl, hasks⟩

/-- Settles O43. -/
theorem voicesStreamAndAdvance : Obligations.VoicesStreamAndAdvance := by
  unfold Obligations.VoicesStreamAndAdvance
  intro s v vo h p hpart cl hclip c hcue len lp hsounds hplays t pos held atLoop wraps wrap asksFor runFromThere turnsAt
    movesTo used
  obtain ⟨rfl, rfl⟩ := soundsIn_iff.1 hsounds
  obtain ⟨ph, hph, hloop⟩ := exists_phase hplays
  have ht : t = _ := advanceVoice_eq h hpart hclip hcue
  have hheld : cueHeld s c = true ↔ held := cueHeld_iff s c
  have hwraps : (cueHeld s c || decide (1 < vo.passes)) = true ↔ wraps := by
    rw [Bool.or_eq_true, hheld, decide_eq_true_eq]
  have hwrap : wrapTarget p cl = wrap := by
    unfold wrapTarget
    cases hl : cl.loop with
    | none => exact (congrArg (fun l : Option (Nat × Nat) => match l with
        | some (a, _) => if a < loopPoint p cl then a else 0
        | none => 0) hl).symm
    | some ab => exact (congrArg (fun l : Option (Nat × Nat) => match l with
        | some (a, _) => if a < loopPoint p cl then a else 0
        | none => 0) hl).symm
  have hrun (a : Nat) : runFrom p cl ph a = { start := a, len := runFromThere a } := by
    unfold runFrom runLimit
    rw [if_congr (and_congr_left fun _ => hloop) rfl rfl]
    rfl
  have hturns {n : Nat} {a : Nat} (hdbl : p.dbl = true)
      (hturn : t = turnHalf v (setVoice v { vo with pos := a, passes := n } s)) : turnsAt a ∧ sameButVoice v s t := by
    have hx := turnHalf_turns h hpart hclip hdbl hph a n
    simp only [hrun] at hx
    rw [← hturn] at hx
    refine ⟨hx, ?_⟩
    rw [hturn]
    exact sameButVoice_trans (setVoice_only v _ s) (turnHalf_only v _)
  have hused : halfUsed vo pos = true ↔ used := halfUsed_iff vo pos
  refine ⟨fun hat hh hsingle => ?_, fun hat hh hpass hsingle => ?_, fun hat hw hdbl => ?_, fun hat hw hend => ?_,
    fun hat hw hend hsingle => ?_, fun hat hw hend hdbl hfall _ => ?_, fun hat hend => ?_, fun hat hend hstays => ?_,
    fun hat hend hdbl hu => ?_⟩
  · rw [if_pos hat, if_pos (hwraps.2 (.inl hh)), if_neg (by rw [hsingle]; decide), if_pos (hheld.2 hh), hwrap] at ht
    exact ht
  · rw [if_pos hat, if_pos (hwraps.2 (.inr hpass)), if_neg (by rw [hsingle]; decide), if_neg (mt hheld.1 hh), hwrap] at ht
    exact ht
  · rw [if_pos hat, if_pos (hwraps.2 hw), if_pos hdbl, hwrap] at ht
    exact hturns hdbl ht
  · rw [if_pos hat, if_neg (mt hwraps.1 hw), if_pos hend] at ht
    exact ht
  · rw [if_pos hat, if_neg (mt hwraps.1 hw), if_neg (by omega), if_neg (by rw [hsingle]; decide)] at ht
    exact ht
  · rw [if_pos hat, if_neg (mt hwraps.1 hw), if_neg (by omega), if_pos hdbl] at ht
    have hfrom : runFrom p cl ph (loopPoint p cl) =
        { start := loopPoint p cl, len := min (p.size / 2 * 64) (playLen p cl - loopPoint p cl) } := by
      unfold runFrom runLimit
      rw [if_neg (fun hc => Nat.lt_irrefl _ hc.2)]
      rfl
    have hx := leaveLoop_reads h hpart hclip hdbl hph hfall (loopPoint p cl)
    rw [hfrom, ← ht] at hx
    refine ⟨hx, ?_⟩
    rw [ht]
    exact leaveLoop_only v _ s
  · rw [if_neg hat, if_pos hend] at ht
    exact ht
  · rw [if_neg hat, if_neg (by omega), if_neg] at ht
    · exact ht
    · rw [Bool.and_eq_true, hused]
      rintro ⟨hd, hu⟩
      rcases hstays with hs | hs
      · rw [hs] at hd
        cases hd
      · exact hs hu
  · rw [if_neg hat, if_neg (by omega), if_pos (by rw [Bool.and_eq_true, hused]; exact ⟨hdbl, hu⟩)] at ht
    exact hturns hdbl ht

end Sys2Proof.Machine
end

section
/-! QUIET and NORMAL: the fade of every voice and the ambient cue (R130 to R133); O44. -/

namespace Sys2Proof.Machine

/-! ### The ambient cue -/

theorem ambientCue_eq (s : State) : ambientCue s = if set8 s 457 ≤ 31 then some (set8 s 457) else none := rfl

theorem ambientBegin_eq (s : State) : ambientBegin s =
    if set8 s 457 ≤ 31 then startRequest (set8 s 457) true { s with sound := { s.sound with ambient := true } }
    else { s with sound := { s.sound with ambient := true } } := by
  have hcue : ambientCue { s with sound := { s.sound with ambient := true } } =
      if set8 s 457 ≤ 31 then some (set8 s 457) else none := rfl
  unfold ambientBegin
  dsimp only
  rw [hcue]
  by_cases h : set8 s 457 ≤ 31
  · rw [if_pos h, if_pos h]
  · rw [if_neg h, if_neg h]

theorem ambientAbsent_iff {s : State} (h : set8 s 457 ≤ 31) : ambientAbsent s = true ↔
    ∀ x ∈ s.sound.voices, ¬ (x.cue = some (set8 s 457) ∧ x.state ≠ .idle ∧ x.envDir ≠ .falling) ∧
      ∀ e ∈ x.stack, e.cue ≠ set8 s 457 := by
  unfold ambientAbsent stacked
  rw [ambientCue_eq, if_pos h]
  dsimp only
  rw [Bool.and_eq_true, Bool.not_eq_true', Bool.not_eq_true', List.any_eq_false, List.any_eq_false, ← forall₂_and]
  refine forall₂_congr fun x _ => and_congr (not_congr ?_) ?_
  · rw [plays_iff]
    exact ⟨fun ⟨hs, hf, hc⟩ => ⟨hc, hs, hf⟩, fun ⟨hc, hs, hf⟩ => ⟨hs, hf, hc⟩⟩
  · rw [Bool.not_eq_true, List.any_eq_false]
    exact forall₂_congr fun e _ => not_congr beq_iff_eq

/-! ### The fade of every voice (R131) -/

/-- A voice's record as it begins to fade. -/
def Voice.fadesAway (x : Voice) : Voice :=
  if x.state = .idle then { x with stack := [] }
  else if x.state = .prime then { resetVoice with resident := x.resident, underruns := x.underruns }
  else { x with
    stack := [], envDir := .falling, half0 := x.half0.faded, half1 := x.half1.faded
    wait := if x.wait = .none then .none else .starved }

section Fade

variable {s : State} {v w : Nat} {x : Voice}

theorem fadeVoice_only (v : Nat) (s : State) : sameButVoice v s (fadeVoice v s) := by
  unfold fadeVoice
  dsimp only
  split
  · exact setVoice_only v _ s
  · split
    · exact sameButVoice_trans (setVoice_only v _ s) (idleVoice_only v _)
    · exact sameButVoice_trans (withdrawVoice_only v s) (setVoice_only v _ _)

theorem fadeVoice_record (h : s.sound.voices[v]? = some x) : (fadeVoice v s).sound.voices[v]? = some x.fadesAway := by
  unfold fadeVoice Voice.fadesAway
  rw [voice_eq_of_getElem? h]
  dsimp only
  split
  · exact getElem?_setVoice h _
  · split
    · exact (idleVoice_becomes (getElem?_setVoice h _)).2.2
    · exact getElem?_setVoice (s := withdrawVoice v s) h _

theorem fadeVoice_withdraws (h : s.sound.voices[v]? = some x) (hs : x.state ≠ .idle) :
    voiceOutstanding v (fadeVoice v s) = false := by
  unfold fadeVoice
  rw [voice_eq_of_getElem? h]
  dsimp only
  rw [if_neg hs]
  split
  · exact voiceOutstanding_withdrawVoice v _
  · exact voiceOutstanding_withdrawVoice v _

theorem voiceOutstanding_withdraw_other (h : w ≠ v) (s : State) :
    voiceOutstanding v (withdrawVoice w s) = voiceOutstanding v s := by
  have hwaiting : (s.port.waiting.filter (fun r => r.who != .voice w)).any (fun r => r.who == .voice v) =
      s.port.waiting.any (fun r => r.who == .voice v) := by
    rw [List.any_filter]
    refine congrArg (fun f => s.port.waiting.any f) (funext fun r => ?_)
    cases hr : r.who == .voice v with
    | false => exact Bool.and_false _
    | true =>
      rw [beq_iff_eq.1 hr, Bool.and_true, bne_iff_ne]
      exact fun hc => h (Requester.voice.inj hc).symm
  unfold voiceOutstanding withdrawVoice
  dsimp only
  rw [hwaiting]
  refine congrArg _ ?_
  cases s.port.busy with
  | none => rfl
  | some b =>
    by_cases hb : b.1.who = .voice w
    · have hne : (b.1.who == Requester.voice v) = false := by
        rw [hb]
        exact beq_false_of_ne fun hc => h (Requester.voice.inj hc)
      simp [hb, hne]
      exact fun hc => absurd hc h
    · simp [hb]

theorem fadeVoice_outstanding_other (h : w ≠ v) (s : State) :
    voiceOutstanding v (fadeVoice w s) = voiceOutstanding v s := by
  unfold fadeVoice
  dsimp only
  split
  · rfl
  · split
    · exact voiceOutstanding_withdraw_other h (setVoice w _ s)
    · exact voiceOutstanding_withdraw_other h s

/-- Fading other voices leaves a voice's record and its request. -/
theorem foldl_fade_other {l : List Nat} (h : v ∉ l) (s : State) :
    (l.foldl (fun s v => fadeVoice v s) s).sound.voices[v]? = s.sound.voices[v]? ∧
      voiceOutstanding v (l.foldl (fun s v => fadeVoice v s) s) = voiceOutstanding v s := by
  induction l generalizing s with
  | nil => exact ⟨rfl, rfl⟩
  | cons w l ih =>
    have hw : w ≠ v := fun hc => h (hc ▸ List.mem_cons_self)
    obtain ⟨hrec, hout⟩ := ih (fun hc => h (List.mem_cons_of_mem _ hc)) (fadeVoice w s)
    exact ⟨hrec.trans ((fadeVoice_only w s).2 v hw.symm), hout.trans (fadeVoice_outstanding_other hw s)⟩

/-- Each voice of a list fades once. -/
theorem foldl_fade {l : List Nat} (hnodup : l.Nodup) (hv : v ∈ l) (h : s.sound.voices[v]? = some x) :
    (l.foldl (fun s v => fadeVoice v s) s).sound.voices[v]? = some x.fadesAway ∧
      (x.state ≠ .idle → voiceOutstanding v (l.foldl (fun s v => fadeVoice v s) s) = false) := by
  obtain ⟨a, b, rfl⟩ := List.append_of_mem hv
  obtain ⟨ha, hb⟩ : v ∉ a ∧ v ∉ b := by
    rw [List.nodup_append, List.nodup_cons] at hnodup
    exact ⟨fun hc => hnodup.2.2 v hc v List.mem_cons_self rfl, hnodup.2.1.1⟩
  rw [List.foldl_append, List.foldl_cons]
  obtain ⟨hbefore, _⟩ := foldl_fade_other ha s
  generalize a.foldl (fun s v => fadeVoice v s) s = t at *
  obtain ⟨hafter, hout⟩ := foldl_fade_other hb (fadeVoice v t)
  have ht := hbefore.trans h
  exact ⟨hafter.trans (fadeVoice_record ht), fun hs => hout.trans (fadeVoice_withdraws ht hs)⟩

end Fade

/-- Everything but the voices' records and the Flash Port is the same. -/
def RecordsOnly (s t : State) : Prop :=
  t = { s with port := t.port, sound := { s.sound with voices := t.sound.voices } }

theorem RecordsOnly.trans {a b c : State} (h : RecordsOnly a b) (k : RecordsOnly b c) : RecordsOnly a c := by
  unfold RecordsOnly at *
  rw [k, h]

theorem RecordsOnly.foldl_fade (l : List Nat) (s : State) : RecordsOnly s (l.foldl (fun s v => fadeVoice v s) s) := by
  induction l generalizing s with
  | nil => rfl
  | cons v l ih => exact RecordsOnly.trans (fadeVoice_only v s).1 (ih _)

theorem RecordsOnly.triggerEnd (c : Nat) (s : State) : RecordsOnly s (triggerEnd c s) := by
  unfold Machine.triggerEnd
  split <;> rfl

/-! ### QUIET begins -/

/-- The passes left of a voice once the ambient trigger has ended: 1 where it held the voice's cue and no feature holds
it still (R116, R133). -/
def ambientPasses (s : State) (x : Voice) : Nat :=
  if s.sound.ambient = true ∧ x.cue = some (set8 s 457) ∧ set8 s 457 ≤ 31 ∧ asked s (9 + set8 s 457) = false then 1
  else x.passes

/-- The engine in QUIET with the ambient trigger ended. -/
def ambientEnded (s : State) : State :=
  match (if s.sound.ambient then ambientCue s else none) with
  | some c => triggerEnd c { s with sound := { s.sound with mode := .quiet, ambient := false } }
  | none => { s with sound := { s.sound with mode := .quiet, ambient := false } }

theorem goQuiet_eq (s : State) : goQuiet s = (List.range 6).foldl (fun s v => fadeVoice v s) (ambientEnded s) := rfl

theorem ambientEnded_frame (s : State) :
    RecordsOnly { s with sound := { s.sound with mode := .quiet, ambient := false } } (ambientEnded s) := by
  unfold ambientEnded
  split
  · exact RecordsOnly.triggerEnd _ _
  · rfl

/-- The ambient trigger's end leaves a voice's record but for its passes and its stack. -/
theorem ambientEnded_record {s : State} {v : Nat} {x : Voice} (h : s.sound.voices[v]? = some x) :
    ∃ stack, (ambientEnded s).sound.voices[v]? = some { x with
      passes := if x.state = .idle then x.passes else ambientPasses s x, stack := stack } := by
  unfold ambientEnded ambientPasses
  have hsame {P : Prop} [Decidable P] (hP : ¬ P) :
      x = { x with passes := if x.state = .idle then x.passes else if P then 1 else x.passes } := by
    rw [if_neg hP, ite_self]
  cases ha : s.sound.ambient with
  | false =>
    refine ⟨x.stack, ?_⟩
    rw [if_neg (by decide)]
    exact h.trans (congrArg some (hsame (fun hc => Bool.false_ne_true hc.1)))
  | true =>
    rw [if_pos rfl, ambientCue_eq]
    by_cases hle : set8 s 457 ≤ 31
    · rw [if_pos hle]
      dsimp only
      generalize hq : ({ s with sound := { s.sound with mode := .quiet, ambient := false } } : State) = q
      have hheld : cueHeld q (set8 s 457) = asked s (9 + set8 s 457) := by
        subst hq
        exact (congrArg (asked s (9 + set8 s 457) || ·) (Bool.false_and _)).trans (Bool.or_false _)
      have hget : q.sound.voices[v]? = some x := by
        subst hq
        exact h
      unfold triggerEnd
      rw [hheld]
      cases hasked : asked s (9 + set8 s 457) with
      | true =>
        refine ⟨x.stack, ?_⟩
        rw [if_pos rfl]
        exact hget.trans (congrArg some (hsame (fun hc => Bool.false_ne_true hc.2.2.2.symm)))
      | false =>
        rw [if_neg (by decide)]
        dsimp only
        rw [List.getElem?_map, hget, Option.map_some]
        refine ⟨_, congrArg some (congrArg (fun n => ({ x with passes := n, stack := _ } : Voice)) ?_)⟩
        by_cases hi : x.state = .idle
        · rw [if_pos hi, if_neg (fun hc => hc.1 hi)]
        · rw [if_neg hi]
          exact if_congr ⟨fun hc => ⟨rfl, hc.2, hle, rfl⟩, fun hc => ⟨hi, hc.2.1⟩⟩ rfl rfl
    · rw [if_neg hle]
      exact ⟨x.stack, h.trans (congrArg some (hsame (fun hc => hle hc.2.2.1)))⟩

section Mode

variable {s : State}

theorem updateMode_begins (hm : s.sound.mode = .normal) (hc : quietCause s = true) : updateMode s = goQuiet s := by
  unfold updateMode
  rw [hm, hc]

theorem updateMode_returns (hm : s.sound.mode = .quiet) (hc : quietCause s = false) : updateMode s =
    if s.supply.state = .track then ambientBegin { s with sound := { s.sound with mode := .normal } }
    else { s with sound := { s.sound with mode := .normal } } := by
  unfold updateMode
  rw [hm, hc]

theorem updateMode_stays (h : s.sound.mode = .quiet ↔ quietCause s = true) : updateMode s = s := by
  unfold updateMode
  cases hm : s.sound.mode with
  | normal =>
    rw [hm] at h
    rw [Bool.eq_false_iff.2 fun hc => nomatch h.2 hc]
  | quiet => rw [h.1 hm]

end Mode

/-- Settles O44. -/
theorem quietComesAndGoes : Obligations.QuietComesAndGoes := by
  unfold Obligations.QuietComesAndGoes
  intro s hsix cause t ambient normal
  have hcause : quietCause s = true ↔ cause := quietCause_iff s
  have hambient (q : State) (hq : set8 q 457 = set8 s 457) : ambientBegin q = ambient q := by
    rw [ambientBegin_eq, hq]
  refine ⟨fun hm hc => ?begins, fun hm hc htrack => ?returns, fun hm hc htrack => ?silent, fun hm hc => ?stands,
    fun hm hc => updateMode_stays (iff_of_true hm (hcause.2 hc))⟩
  case begins =>
    have ht : t = goQuiet s := updateMode_begins hm (hcause.2 hc)
    rw [goQuiet_eq] at ht
    refine ⟨?_, fun v hv x hx => ?_⟩
    · have hframe := (ambientEnded_frame s).trans (RecordsOnly.foldl_fade (List.range 6) (ambientEnded s))
      rw [← ht] at hframe
      exact hframe
    · obtain ⟨stack, hended⟩ := ambientEnded_record hx
      obtain ⟨hrec, hout⟩ := foldl_fade List.nodup_range (List.mem_range.2 hv) hended
      rw [← ht] at hrec hout
      refine ⟨fun hidle => ?_, fun hprime => ?_, fun hni hnp => ⟨hout hni, ?_⟩⟩
      · rw [hrec, Voice.fadesAway, if_pos hidle, if_pos hidle]
      · have hni : x.state ≠ .idle := by
          rw [hprime]
          nofun
        refine ⟨hout hni, ?_⟩
        rw [hrec, Voice.fadesAway, if_neg hni, if_pos hprime]
      · rw [hrec, Voice.fadesAway, if_neg hni, if_neg hnp, if_neg hni]
        rfl
  case returns =>
    exact (updateMode_returns hm (Bool.eq_false_iff.2 (mt hcause.1 hc))).trans
      ((if_pos htrack).trans (hambient normal rfl))
  case silent => exact (updateMode_returns hm (Bool.eq_false_iff.2 (mt hcause.1 hc))).trans (if_neg htrack)
  case stands =>
    have ht : updateMode s = s := updateMode_stays (iff_of_false (by rw [hm]; nofun) (mt hcause.1 hc))
    refine ⟨ht, fun htrack hle => ?_⟩
    have hchange : soundSupplyChange s = if ambientAbsent s = true then ambientBegin s else s := by
      unfold soundSupplyChange
      dsimp only
      rw [ht, hm, htrack]
      rfl
    refine ⟨fun habsent => ?_, fun hthere => ?_⟩
    · rw [hchange, if_pos, hambient s rfl]
      refine (ambientAbsent_iff hle).2 fun x hx => ⟨fun ⟨hc, hi, hf⟩ => ?_, (habsent x hx).2⟩
      exact ((habsent x hx).1 hc).elim hi hf
    · rw [hchange, if_neg]
      intro habsent
      obtain ⟨x, hx, h⟩ := hthere
      obtain ⟨hplays, hstack⟩ := (ambientAbsent_iff hle).1 habsent x hx
      rcases h with h | ⟨e, he, hc⟩
      · exact hplays h
      · exact hstack e he hc

end Sys2Proof.Machine
end

section
/-! A voice's data arrives (R121, R175); O45. -/

namespace Sys2Proof.Machine

/-! ### The record of a double-buffered voice (R122) -/

/-- The half that was FILLING is FULL. -/
def Voice.filled (vo : Voice) : Voice :=
  match vo.half0, vo.half1 with
  | .filling r, _ => { vo with half0 := .full r }
  | _, .filling r => { vo with half1 := .full r }
  | _, _ => vo

/-- PRIME is over. -/
def Voice.outOfPrime (vo : Voice) : Voice :=
  match vo.state, vo.nextPhase with
  | .prime, some ph => { vo with state := ph.voiceState, nextPhase := none }
  | _, _ => vo

/-- A voice whose playing half is FULL waits no longer. -/
def Voice.waitOver (vo : Voice) : Voice :=
  match vo.half vo.playing with
  | .full _ => { vo with wait := .none }
  | _ => vo

section Arrives

variable {s : State} {v : Nat} {vo : Voice} {p : Partition} {cl : Clip}

theorem voiceDataArrived_double (h : s.sound.voices[v]? = some vo) (hpart : vo.part = some p) (hclip : vo.clip = some cl)
    (hdbl : p.dbl = true) : voiceDataArrived v s = askRun v (setVoice v vo.filled.outOfPrime.waitOver s) := by
  unfold voiceDataArrived
  rw [voice_eq_of_getElem? h]
  cases vo
  cases hpart
  cases hclip
  exact if_pos hdbl

theorem voiceDataArrived_single (h : s.sound.voices[v]? = some vo) (hpart : vo.part = some p) (hclip : vo.clip = some cl)
    (hdbl : p.dbl = false) {ph : CuePhase} (hs : vo.state = .prime) (hn : vo.nextPhase = some ph)
    (hpos : vo.pos < playLen p cl) : voiceDataArrived v s =
      setVoice v { vo with state := ph.voiceState, nextPhase := none, resident := some (cl.id, p) } s := by
  unfold voiceDataArrived
  rw [voice_eq_of_getElem? h]
  dsimp only
  rw [hpart, hclip]
  dsimp only
  rw [hdbl, if_neg (by decide), hs, hn]
  exact if_neg (by omega)

end Arrives

theorem VoicesOnly.voiceDataArrived (v : Nat) (s : State) : VoicesOnly s (voiceDataArrived v s) := by
  unfold Machine.voiceDataArrived
  dsimp only
  split
  · split
    · exact (of_same (setVoice_only v _ s)).trans (of_same (askRun_only v _))
    · split
      · split
        · exact (of_same (setVoice_only v _ s)).trans (phaseEnd v _)
        · exact of_same (setVoice_only v _ s)
      · exact refl s
  · exact refl s

/-- A run that ends PRIME, or that a voice waits for, plays at once from half 0 (R121, R122). -/
theorem arrived_first {vo : Voice} {r : Run} {ph : CuePhase} (h0 : vo.half0 = .filling r) (hp : vo.playing = false)
    (hs : vo.state = .prime ∧ vo.nextPhase = some ph ∨ vo.state = ph.voiceState) : ∃ next,
      vo.filled.outOfPrime.waitOver = { vo with
        half0 := .full r, state := ph.voiceState, nextPhase := next, wait := .none } := by
  have hfilled : vo.filled = { vo with half0 := .full r } := by
    unfold Voice.filled
    rw [h0]
  have hprime : ∃ next, vo.filled.outOfPrime =
      { vo with half0 := .full r, state := ph.voiceState, nextPhase := next } := by
    rw [hfilled]
    unfold Voice.outOfPrime
    dsimp only
    rcases hs with ⟨hs, hn⟩ | hs
    · rw [hs, hn]
      exact ⟨none, rfl⟩
    · rw [hs]
      refine ⟨vo.nextPhase, ?_⟩
      cases ph <;> simp [CuePhase.voiceState] at hs ⊢ <;> rw [← hs]
  obtain ⟨next, hprime⟩ := hprime
  refine ⟨next, ?_⟩
  rw [hprime]
  unfold Voice.waitOver Voice.half
  dsimp only
  rw [hp, if_neg (by decide)]

/-- The run of half 1 arrives. -/
theorem arrived_second {vo : Voice} {r : Run} (h0 : ∀ q, vo.half0 ≠ .filling q) (h1 : vo.half1 = .filling r) :
    vo.filled.outOfPrime.waitOver.half1 = .full r ∧
      (vo.playing = true → vo.filled.outOfPrime.waitOver.wait = .none) := by
  have hfilled : vo.filled = { vo with half1 := .full r } := by
    unfold Voice.filled
    rw [h1]
    cases hh : vo.half0 with
    | filling q => exact absurd hh (h0 q)
    | empty => rfl
    | full q => rfl
  have hprime : vo.filled.outOfPrime.half1 = .full r ∧ vo.filled.outOfPrime.playing = vo.playing := by
    rw [hfilled]
    unfold Voice.outOfPrime
    split <;> exact ⟨rfl, rfl⟩
  obtain ⟨hhalf, hplaying⟩ := hprime
  generalize vo.filled.outOfPrime = z at *
  unfold Voice.waitOver Voice.half
  refine ⟨?_, fun hp => ?_⟩
  · split <;> exact hhalf
  · rw [hplaying, hp, if_pos rfl, hhalf]

/-! ### The read's end -/

section ReadEnds

variable {s : State} {v a n : Nat} {at_ : Time}

theorem portFreed_running (h : s.phase = .running) : portFreed s = { s with port := { s.port with busy := none } } := by
  unfold portFreed
  rw [h]
  rfl

theorem exec_voiceReadComplete {d : Bool}
    (h : s.port.busy = some ({ who := .voice v, op := .read a n, entered := at_ }, d)) (ok : Bool) :
    exec (.voiceReadComplete ok) s = .next (voiceReadDone v a n d ok s) := by
  have hrow : exec (.voiceReadComplete ok) s = execVoiceReadComplete ok s := rfl
  rw [hrow, execVoiceReadComplete, h]

theorem voiceReadDone_running (hrun : s.phase = .running) (hin : a + n ≤ flashEnd) (d ok : Bool) :
    voiceReadDone v a n d ok s =
      if d = true then { s with port := { s.port with busy := none } }
      else if (!ok) = true then cueEnd v (reportFault .flashError false { s with port := { s.port with busy := none } })
      else voiceDataArrived v { s with
        port := { s.port with busy := none }
        voiceRam := Mem.writeBytes ramBlank s.voiceRam (fillAddr (voice s v)) (flashBytes s a n) } := by
  unfold voiceReadDone
  dsimp only
  rw [if_neg (by omega : ¬ flashEnd < a + n), portFreed_running hrun]
  rfl

/-- What the data written into the voice buffer RAM leaves there (R121). -/
theorem read_voiceData (hin : a + n ≤ flashEnd) (hcanon : Mem.wf ramBlank s.voiceRam = true) (base x : Nat) :
    Mem.read ramBlank (Mem.writeBytes ramBlank s.voiceRam base (flashBytes s a n)) x =
      if base ≤ x ∧ x < base + n then Mem.read flashBlank s.flash (a + (x - base)) else Mem.read ramBlank s.voiceRam x := by
  have hlen : (flashBytes s a n).length = n := (List.length_map _).trans List.length_range
  rw [Mem.read_writeBytes _ _ _ _ _ hcanon, hlen]
  refine if_ctx_congr Iff.rfl (fun hx => ?_) fun _ => rfl
  have hi : x - base < n := by omega
  have hflash : flashByte s (a + (x - base)) = Mem.read flashBlank s.flash (a + (x - base)) := if_pos (by omega)
  rw [← hflash]
  unfold flashBytes
  rw [List.getD_eq_getElem?_getD, List.getElem?_map, List.getElem?_range hi]
  rfl

theorem MemoriesCanonical.ram (h : MemoriesCanonical s) : Mem.wf ramBlank s.voiceRam = true := h.2

end ReadEnds

/-- Settles O45. -/
theorem voiceDataEntersItsPartition : Obligations.VoiceDataEntersItsPartition := by
  unfold Obligations.VoiceDataEntersItsPartition
  intro s v a n at_ hrun hin hcanon
  refine ⟨fun hbusy => ⟨⟨_, exec_voiceReadComplete hbusy true, ?_⟩, ⟨_, exec_voiceReadComplete hbusy false, ?failed⟩⟩,
    fun ok hbusy => ?discarded⟩
  case failed =>
    rw [voiceReadDone_running hrun hin, if_neg (by decide), if_pos (by decide : (!false) = true)]
    have hframe := VoicesOnly.cueEnd v (reportFault .flashError false { s with port := { s.port with busy := none } })
    exact hframe.sound
  case discarded =>
    rw [exec_voiceReadComplete hbusy, voiceReadDone_running hrun hin, if_pos rfl]
  rw [voiceReadDone_running hrun hin, if_neg (by decide), if_neg (by decide)]
  generalize hq : ({ s with
    port := { s.port with busy := none }
    voiceRam := Mem.writeBytes ramBlank s.voiceRam (fillAddr (voice s v)) (flashBytes s a n) } : State) = q
  have hframe := (VoicesOnly.voiceDataArrived v q).sound
  have hget {vo : Voice} (h : s.sound.voices[v]? = some vo) : q.sound.voices[v]? = some vo := by
    subst hq
    exact h
  refine ⟨?frame, fun x => ?ram, fun vo p cl ph h hpart hdbl hclip hs hn hpos => ?single,
    fun vo h p hpart hdbl cl hclip ph r h0 hplaying h1 hs => ?first, fun vo h p hpart hdbl cl hclip r h0 h1 => ?second⟩
  case frame =>
    generalize voiceDataArrived v q = t at *
    rw [hframe, ← hq]
  case ram =>
    have hram : (voiceDataArrived v q).voiceRam = q.voiceRam := (congrArg State.voiceRam hframe :)
    rw [hram, ← hq]
    exact read_voiceData hin hcanon.ram _ x
  case single =>
    rw [voiceDataArrived_single (hget h) hpart hclip hdbl hs hn hpos]
    exact getElem?_setVoice (hget h) _
  case first =>
    obtain ⟨next, harrived⟩ := arrived_first h0 hplaying hs
    rw [voiceDataArrived_double (hget h) hpart hclip hdbl, harrived]
    generalize hy : ({ vo with half0 := .full r, state := ph.voiceState, nextPhase := next, wait := .none } : Voice) = y
    have hyget := getElem?_setVoice (hget h) y
    obtain ⟨g0, g1, run, hrecord, hfull⟩ := askRun_keeps hyget
    have hkeeps : y.state = ph.voiceState ∧ y.half false = .full r ∧ y.playing = false ∧ y.wait = .none ∧ y.pos = vo.pos := by
      subst hy
      exact ⟨rfl, rfl, hplaying, rfl, rfl⟩
    obtain ⟨hstate, hhalf, hyplaying, hwait, hpos⟩ := hkeeps
    refine ⟨_, hrecord, hstate, hfull false r hhalf, hyplaying, hwait, hpos, fun b len lp hb hsounds hfall hwaiting => ?_⟩
    obtain ⟨rfl, rfl⟩ := soundsIn_iff.1 hsounds
    have hfree : freeHalf y = some true := by
      have hother : y.half true = .empty := by
        subst hy
        exact h1
      rw [freeHalf_eq, hyplaying, hhalf, if_neg nofun, Bool.not_false, hother, if_pos rfl]
    have hfade : y.fading = false := by
      subst hy
      unfold Voice.fading
      rw [beq_false_of_ne hfall, Bool.and_false]
    have hout : voiceOutstanding v (setVoice v y q) = false := by
      have hport : (setVoice v y q).port = { s.port with busy := none } := by
        subst hq
        rfl
      unfold voiceOutstanding
      rw [hport, Bool.or_false, List.any_eq_false]
      exact fun x hx hc => hwaiting x hx (beq_iff_eq.1 hc)
    obtain ⟨hrec, hasks⟩ := askRun_asks hyget (by subst hy; exact hpart) (by subst hy; exact hclip)
      (by subst hy; exact hb) (phase_of_state (.inl hstate)) hfree hdbl hout hfade
    rw [Option.some.inj (hrecord.symm.trans hrec)]
    refine ⟨rfl, ?_⟩
    subst hq
    exact hasks
  case second =>
    obtain ⟨hhalf, hwait⟩ := arrived_second h0 h1
    rw [voiceDataArrived_double (hget h) hpart hclip hdbl]
    obtain ⟨g0, g1, run, hrecord, hfull⟩ := askRun_keeps (getElem?_setVoice (hget h) vo.filled.outOfPrime.waitOver)
    exact ⟨_, hrecord, hfull true r hhalf, hwait⟩

end Sys2Proof.Machine
end

section
/-! The Flash Port's order of requests and the clip directory (R113, R175); O46. -/

namespace Sys2Proof.Machine

/-! ### The clip directory as it lies in flash (R113) -/

theorem halfAt_drop (bs : List Byte) (n k : Nat) : halfAt (bs.drop n) k = halfAt bs (n + k) := by
  unfold halfAt
  rw [byteAt_drop, byteAt_drop, Nat.add_assoc]

theorem wordAt_drop (bs : List Byte) (n k : Nat) : wordAt (bs.drop n) k = wordAt bs (n + k) := by
  unfold wordAt
  rw [halfAt_drop, halfAt_drop, Nat.add_assoc]

theorem halfAt_take {n k : Nat} (h : k + 1 < n) (bs : List Byte) : halfAt (bs.take n) k = halfAt bs k := by
  unfold halfAt
  rw [byteAt_take (by omega), byteAt_take h]

theorem wordAt_take {n k : Nat} (h : k + 3 < n) (bs : List Byte) : wordAt (bs.take n) k = wordAt bs k := by
  unfold wordAt
  rw [halfAt_take (by omega), halfAt_take (by omega)]

/-- The clip of entry `i` of the directory. -/
def storedClip (bs : List Byte) (i : Nat) : Clip :=
  { id := byteAt bs (4 + 20 * i), addr := wordAt bs (8 + 20 * i), len := wordAt bs (12 + 20 * i)
    gain := byteAt bs (6 + 20 * i)
    loop := if byteAt bs (7 + 20 * i) % 2 = 1 ∧ wordAt bs (20 + 20 * i) ≤ wordAt bs (12 + 20 * i) ∧
        wordAt bs (16 + 20 * i) < wordAt bs (20 + 20 * i) then some (wordAt bs (16 + 20 * i), wordAt bs (20 + 20 * i))
      else none
    variant := if byteAt bs (5 + 20 * i) ≤ 3 then byteAt bs (5 + 20 * i) else 0 }

theorem clipOfEntry_eq (bs : List Byte) {n i : Nat} (h : i < n) :
    clipOfEntry (((((bs.drop 4).take (20 * n)).drop (20 * i)).take 20)) = storedClip bs i := by
  have hbyte (k : Nat) (hk : k < 20) :
      byteAt ((((bs.drop 4).take (20 * n)).drop (20 * i)).take 20) k = byteAt bs (4 + k + 20 * i) := by
    rw [byteAt_take hk, byteAt_drop, byteAt_take (by omega), byteAt_drop]
    exact congrArg (byteAt bs) (by omega)
  have hword (k : Nat) (hk : k + 3 < 20) :
      wordAt ((((bs.drop 4).take (20 * n)).drop (20 * i)).take 20) k = wordAt bs (4 + k + 20 * i) := by
    rw [wordAt_take hk, wordAt_drop, wordAt_take (by omega), wordAt_drop]
    exact congrArg (wordAt bs) (by omega)
  unfold clipOfEntry storedClip
  dsimp only
  rw [hbyte 0 (by omega), hbyte 1 (by omega), hbyte 2 (by omega), hbyte 3 (by omega), hword 4 (by omega),
    hword 8 (by omega), hword 12 (by omega), hword 16 (by omega)]

/-- An entry that the copy takes: not unused, not empty, and its id not that of an earlier one that counts (log 52). -/
def EntryCounts (bs : List Byte) (i : Nat) : Bool :=
  decide ((storedClip bs i).id ≠ 255) && decide ((storedClip bs i).len ≠ 0) &&
    (List.range i).all (fun j => decide ((storedClip bs j).id ≠ (storedClip bs i).id) || decide ((storedClip bs j).len = 0))

theorem entryCounts_iff (bs : List Byte) (i : Nat) : EntryCounts bs i = true ↔
    (storedClip bs i).id ≠ 255 ∧ (storedClip bs i).len ≠ 0 ∧
      ∀ j, j < i → (storedClip bs j).id ≠ (storedClip bs i).id ∨ (storedClip bs j).len = 0 := by
  unfold EntryCounts
  rw [Bool.and_eq_true, Bool.and_eq_true, decide_eq_true_eq, decide_eq_true_eq, List.all_eq_true, and_assoc]
  refine and_congr_right fun _ => and_congr_right fun _ => forall_congr' fun j => ?_
  rw [List.mem_range, Bool.or_eq_true, decide_eq_true_eq, decide_eq_true_eq]

/-- With an earlier entry of an id that is not empty there is one that the copy has taken. -/
theorem exists_counting {bs : List Byte} {i j : Nat} (hj : j < i) (hid : (storedClip bs j).id = (storedClip bs i).id)
    (hlen : (storedClip bs j).len ≠ 0) (h255 : (storedClip bs i).id ≠ 255) :
    ∃ k, k < i ∧ EntryCounts bs k = true ∧ (storedClip bs k).id = (storedClip bs i).id := by
  have hex : ∃ k, k < i ∧ (storedClip bs k).id = (storedClip bs i).id ∧ (storedClip bs k).len ≠ 0 := ⟨j, hj, hid, hlen⟩
  obtain ⟨hk, hkid, hklen⟩ := Nat.find_spec hex
  refine ⟨Nat.find hex, hk, (entryCounts_iff bs _).2 ⟨hkid.symm ▸ h255, hklen, fun l hl => ?_⟩, hkid⟩
  by_contra hc
  rw [not_or, not_not] at hc
  exact Nat.find_min hex hl ⟨hl.trans hk, hc.1.trans hkid, hc.2⟩

/-- The copy of the first entries (R113). -/
theorem foldl_addClip (bs : List Byte) (m : Nat) : ((List.range m).map (storedClip bs)).foldl addClip [] =
    ((List.range m).filter (EntryCounts bs)).map (storedClip bs) := by
  induction m with
  | zero => rfl
  | succ m ih =>
    have htaken : ((((List.range m).filter (EntryCounts bs)).map (storedClip bs)).any
        (fun d => d.id == (storedClip bs m).id)) = true ↔
          ∃ k, k < m ∧ EntryCounts bs k = true ∧ (storedClip bs k).id = (storedClip bs m).id := by
      rw [List.any_eq_true]
      constructor
      · rintro ⟨d, hd, hid⟩
        obtain ⟨k, hk, rfl⟩ := List.mem_map.1 hd
        obtain ⟨hkm, hcounts⟩ := List.mem_filter.1 hk
        exact ⟨k, List.mem_range.1 hkm, hcounts, beq_iff_eq.1 hid⟩
      · rintro ⟨k, hk, hcounts, hid⟩
        exact ⟨_, List.mem_map_of_mem (List.mem_filter.2 ⟨List.mem_range.2 hk, hcounts⟩), beq_iff_eq.2 hid⟩
    rw [List.range_succ, List.map_append, List.foldl_append, ih, List.filter_append, List.map_append]
    show addClip _ (storedClip bs m) = _
    unfold addClip
    by_cases hc : EntryCounts bs m = true
    · obtain ⟨h255, hlen, hfirst⟩ := (entryCounts_iff bs m).1 hc
      rw [if_neg, List.filter_cons_of_pos hc]
      · rfl
      · rintro (h | h | h)
        · exact h255 h
        · exact hlen h
        · obtain ⟨k, hk, hcounts, hid⟩ := htaken.1 h
          exact (hfirst k hk).elim (fun hne => hne hid) ((entryCounts_iff bs k).1 hcounts).2.1
    · rw [if_pos, List.filter_cons_of_neg hc]
      · exact (List.append_nil _).symm
      · by_contra hall
        rw [not_or, not_or] at hall
        obtain ⟨h255, hlen, htake⟩ := hall
        refine hc ((entryCounts_iff bs m).2 ⟨h255, hlen, fun j hj => ?_⟩)
        by_contra hne
        rw [not_or, not_not] at hne
        exact htake (htaken.2 (exists_counting hj hne.1 hne.2 h255))

theorem parseDirectory_refused {bs : List Byte}
    (h : ¬ (halfAt bs 0 ≤ 64 ∧ crcBytes ((bs.drop 4).take (20 * halfAt bs 0)) = (bs.drop 2).take 2)) :
    parseDirectory bs = none := by
  unfold parseDirectory
  dsimp only
  by_cases hn : 64 < halfAt bs 0
  · exact if_pos hn
  · rw [if_neg hn, if_neg fun hc => h ⟨by omega, hc⟩]

theorem parseDirectory_taken {bs : List Byte} (hn : halfAt bs 0 ≤ 64)
    (hcrc : crcBytes ((bs.drop 4).take (20 * halfAt bs 0)) = (bs.drop 2).take 2) : parseDirectory bs =
      some (((List.range (halfAt bs 0)).filter (EntryCounts bs)).map (storedClip bs)) := by
  have hentries : (List.range (halfAt bs 0)).map
        (fun i => clipOfEntry ((((bs.drop 4).take (20 * halfAt bs 0)).drop (20 * i)).take 20)) =
      (List.range (halfAt bs 0)).map (storedClip bs) :=
    List.map_congr_left fun i hi => clipOfEntry_eq bs (List.mem_range.1 hi)
  unfold parseDirectory
  dsimp only
  rw [if_neg (by omega), if_pos hcrc, hentries, foldl_addClip]

/-! ### The arbiter (R175) -/

theorem arbiterChoice_ne_none {ws : List FlashRequest} (h : ws ≠ []) : ∃ r, arbiterChoice ws = some r := by
  unfold arbiterChoice
  split
  · exact ⟨_, rfl⟩
  · exact ⟨ws.head h, List.head?_eq_some_head h⟩

/-- The choice goes to the lowest-numbered voice that asks. -/
theorem arbiterChoice_voice {ws : List FlashRequest} {r : FlashRequest} (h : arbiterChoice ws = some r) {v : Nat}
    (hv : v < 6) (hasks : ∃ q ∈ ws, q.who = .voice v) : ∃ w, w ≤ v ∧ r.who = .voice w := by
  obtain ⟨q, hq, hwho⟩ := hasks
  have hsome : ∃ x, ws.find? (fun r => r.who == .voice v) = some x :=
    Option.isSome_iff_exists.1 (List.find?_isSome.2 ⟨q, hq, beq_iff_eq.2 hwho⟩)
  unfold arbiterChoice at h
  cases hfind : (List.range 6).findSome? (fun v => ws.find? (fun r => r.who == .voice v)) with
  | none =>
    obtain ⟨x, hx⟩ := hsome
    rw [List.findSome?_eq_none_iff] at hfind
    rw [hfind v (List.mem_range.2 hv)] at hx
    cases hx
  | some x =>
    rw [hfind] at h
    obtain rfl := Option.some.inj h
    obtain ⟨before, w, after, hrange, hw, hbefore⟩ := List.findSome?_eq_some_iff.1 hfind
    have hwho : x.who = .voice w := beq_iff_eq.1 (List.find?_some (p := fun r : FlashRequest => r.who == .voice w) hw)
    refine ⟨w, ?_, hwho⟩
    have hmem : v ∈ before ++ w :: after := hrange ▸ List.mem_range.2 hv
    rcases List.mem_append.1 hmem with hm | hm
    · obtain ⟨y, hy⟩ := hsome
      rw [hbefore v hm] at hy
      cases hy
    · rcases List.mem_cons.1 hm with rfl | hm
      · exact Nat.le_refl v
      · have hsorted : (before ++ w :: after).Pairwise (· < ·) := hrange ▸ List.pairwise_lt_range
        exact Nat.le_of_lt ((List.pairwise_cons.1 (List.pairwise_append.1 hsorted).2.1).1 v hm)

theorem arbiterChoice_oldest {ws : List FlashRequest} (h : ∀ q ∈ ws, ∀ v, v < 6 → q.who ≠ .voice v) :
    arbiterChoice ws = ws.head? := by
  have hnone : (List.range 6).findSome? (fun v => ws.find? (fun r => r.who == .voice v)) = none := by
    rw [List.findSome?_eq_none_iff]
    refine fun v hv => List.find?_eq_none.2 fun q hq hc => ?_
    exact h q hq v (List.mem_range.1 hv) (beq_iff_eq.1 hc)
  unfold arbiterChoice
  rw [hnone]

/-! ### The Sound Engine's moves leave the directory copy -/

/-- The copy of the clip directory is the same, and whether its read is pending. -/
def SameDirectory (s t : State) : Prop :=
  t.sound.directory = s.sound.directory ∧ t.sound.dirPending = s.sound.dirPending

namespace SameDirectory

theorem refl (s : State) : SameDirectory s s := ⟨rfl, rfl⟩

theorem trans {a b c : State} (h : SameDirectory a b) (k : SameDirectory b c) : SameDirectory a c :=
  ⟨k.1.trans h.1, k.2.trans h.2⟩

theorem of_voices {s t : State} (h : VoicesOnly s t) : SameDirectory s t :=
  ⟨(congrArg (fun u => u.sound.directory) h :), (congrArg (fun u => u.sound.dirPending) h :)⟩

theorem of_records {s t : State} (h : RecordsOnly s t) : SameDirectory s t :=
  ⟨(congrArg (fun u => u.sound.directory) h :), (congrArg (fun u => u.sound.dirPending) h :)⟩

theorem startOn (v c : Nat) (held : Bool) (ex : Option (Option Clip)) (s : State) :
    SameDirectory s (startOn v c held ex s) := by
  unfold Machine.startOn
  dsimp only
  split
  · exact of_voices ((VoicesOnly.of_same (setVoice_only v _ s)).trans (VoicesOnly.of_same (primeVoice_only v _ _ _ _)))
  · exact of_voices ((VoicesOnly.of_same (setVoice_only v _ s)).trans (VoicesOnly.cueEnd v _))

theorem freshOn (v c : Nat) (held : Bool) (ex : Option (Option Clip)) (stack : List StackEntry) (s : State) :
    SameDirectory s (freshOn v c held ex stack s) := by
  have hdrop : SameDirectory s (dropResidents v (voicePartition s v)
      { s with sound := { s.sound with startCounter := s.sound.startCounter + 1 } }) := ⟨rfl, rfl⟩
  unfold Machine.freshOn
  dsimp only
  refine hdrop.trans ?_
  generalize dropResidents v (voicePartition s v)
    { s with sound := { s.sound with startCounter := s.sound.startCounter + 1 } } = d
  exact (of_voices (VoicesOnly.of_same (setVoice_only v _ d))).trans (startOn v c held ex _)

theorem freshStart (c : Nat) (held : Bool) (ex : Option (Option Clip)) (s : State) :
    SameDirectory s (freshStart c held ex s) := by
  unfold Machine.freshStart
  split
  · exact freshOn ..
  · exact freshOn ..
  · exact refl s
  · exact refl s

theorem takeStart (c : Nat) (held : Bool) (ex : Option (Option Clip)) (s : State) :
    SameDirectory s (takeStart c held ex s) := by
  unfold Machine.takeStart
  split
  · exact startOn ..
  · exact freshStart c held ex (unstack c s)

theorem startRequest (c : Nat) (held : Bool) (s : State) : SameDirectory s (startRequest c held s) := by
  unfold Machine.startRequest
  split
  · exact refl s
  · split
    · dsimp only
      split
      · exact (of_voices (VoicesOnly.chooseExhaust c s)).trans (takeStart ..)
      · exact refl s
    · exact takeStart ..

theorem updateMode (s : State) : SameDirectory s (updateMode s) := by
  have hambient (q : State) : SameDirectory q (ambientBegin q) := by
    rw [ambientBegin_eq]
    split
    · exact startRequest _ true { q with sound := { q.sound with ambient := true } }
    · exact refl q
  have hquiet : SameDirectory s (goQuiet s) := by
    have h := of_records ((ambientEnded_frame s).trans (RecordsOnly.foldl_fade (List.range 6) (ambientEnded s)))
    rw [goQuiet_eq]
    generalize (List.range 6).foldl (fun s v => fadeVoice v s) (ambientEnded s) = t at *
    exact ⟨h.1, h.2⟩
  unfold Machine.updateMode
  dsimp only
  split
  · exact hquiet
  · split
    · exact hambient { s with sound := { s.sound with mode := .normal } }
    · exact refl s
  · exact refl s

end SameDirectory

/-- Settles O46. -/
theorem flashPortServesInOrder : Obligations.FlashPortServesInOrder := by
  unfold Obligations.FlashPortServesInOrder
  refine ⟨fun bs => ⟨parseDirectory_refused, fun ⟨hn, hcrc⟩ => parseDirectory_taken hn hcrc⟩, fun s =>
    ⟨fun ws hport hws => ?starts, fun hbusy => ?busy, fun op at_ ok hrun hbusy => ?directory⟩⟩
  case starts =>
    obtain ⟨r, hr⟩ := arbiterChoice_ne_none hws
    refine ⟨r, mem_of_arbiterChoice hr, ?_, fun v hv hasks => arbiterChoice_voice hr hv hasks,
      fun hnone => (arbiterChoice_oldest hnone).symm.trans hr⟩
    have hrow : exec .flashRequestStart s = .next (startFlashRequest s) := rfl
    rw [hrow]
    unfold startFlashRequest
    rw [hport]
    dsimp only
    rw [hr]
    rfl
  case busy =>
    have hrow : exec .flashRequestStart s = .next (startFlashRequest s) := rfl
    rw [hrow, startFlashRequest, if_pos (Option.isSome_iff_ne_none.2 hbusy)]
  case directory =>
    intro parsed
    have hrow : exec (.directoryReadComplete ok) s = .next (directoryReadDone ok s) := by
      have hrow : exec (.directoryReadComplete ok) s = execDirectoryReadComplete ok s := rfl
      rw [hrow, execDirectoryReadComplete, hbusy]
      rfl
    have hdone : directoryReadDone ok s = updateMode { s with
        port := { s.port with busy := none }
        faults := if parsed.isNone then updateAt s.faults 7 (fun r => r.report false s.partTime) else s.faults
        job := if s.job = .bankRead then .none else s.job
        sound := { s.sound with
          directory := parsed.getD [], rotation := [0, 0, 0], dirPending := false
          voices := s.sound.voices.map (fun vo => { vo with resident := none }) } } := by
      unfold directoryReadDone
      rw [portFreed_running hrun]
      dsimp only
      cases hp : parsed with
      | none =>
        rw [show (if ok = true then parseDirectory (flashBytes s 4096 1284) else none) = none from hp]
        rfl
      | some clips =>
        rw [show (if ok = true then parseDirectory (flashBytes s 4096 1284) else none) = some clips from hp]
        rfl
    refine ⟨_, hrow, ?_⟩
    rw [hdone]
    generalize hq : ({ s with
      port := { s.port with busy := none }
      faults := if parsed.isNone then updateAt s.faults 7 (fun r => r.report false s.partTime) else s.faults
      job := if s.job = .bankRead then .none else s.job
      sound := { s.sound with
        directory := parsed.getD [], rotation := [0, 0, 0], dirPending := false
        voices := s.sound.voices.map (fun vo => { vo with resident := none }) } } : State) = q
    have hframe := SoundFrame.updateMode q
    obtain ⟨hdir, hpending⟩ := SameDirectory.updateMode q
    have hfaults : (updateMode q).faults = q.faults := (congrArg State.faults hframe :)
    have hjob : (updateMode q).job = q.job := (congrArg State.job hframe :)
    refine ⟨fun clips hclips => ?_, fun hnone => ?_, ?_, ?_, ?_⟩
    · rw [hdir, hfaults, ← hq, hclips]
      exact ⟨rfl, rfl⟩
    · rw [hdir, hfaults, ← hq, hnone]
      exact ⟨rfl, rfl⟩
    · rw [hpending, ← hq]
    · rw [hjob, ← hq]
    · have hframe' : updateMode q = { q with sound := (updateMode q).sound, port := (updateMode q).port } := hframe
      generalize updateMode q = t at *
      rw [hframe', ← hq]

end Sys2Proof.Machine
end

section
/-! The smoke period (R135 to R143); O47. -/

namespace Sys2Proof.Machine

/-! ### The fan -/

/-- The level of a fan mode under the live settings (R141). -/
def fanLevelOf (s : State) : FanMode → Nat
  | .stopped => 0
  | .idle => set8 s 230
  | .puff => set8 s 229

/-- The fan in a mode, with its level. -/
def withFan (m : FanMode) (s : State) : State :=
  { s with smoke := { s.smoke with fan := m, puffEnd := none, fanLevel := fanLevelOf s m } }

/-- Where the idle level in use is the live one, a fan mode takes the level of the live settings. -/
theorem setFan_inUse {s : State} (h : s.smoke.inUse.idle = set8 s 230) (m : FanMode) : setFan m s = withFan m s := by
  have hidle : (if s.smoke.fan = .puff then set8 s 230 else s.smoke.inUse.idle) = set8 s 230 := by
    rw [h, ite_self]
  have hinUse : { s.smoke.inUse with idle := set8 s 230 } = s.smoke.inUse := by rw [← h]
  unfold setFan withFan
  dsimp only
  rw [hidle, hinUse]
  cases m <;> rfl

/-- The fan moved, or going on as it is. -/
def moveFan (m : Option FanMode) (s : State) : State := m.elim s (fun m => withFan m s)

/-- The fan mode of an entry to a smoke state at a temperature (R141). -/
def entryFan (st : SmokeState) (r : Int) : FanMode :=
  match st with
  | .heating | .ready | .fault => .idle
  | .off | .shed => if 100 ≤ r then .idle else .stopped

/-- The fan of the smoke period, or none where it goes on as it is (R141). -/
def fanMove (fan : FanMode) (st : SmokeState) (entry : Prop) [Decidable entry] (r : Int) : Option FanMode :=
  match st with
  | .heating | .fault => some .idle
  | .ready => if entry ∨ fan ≠ .puff then some .idle else none
  | .off | .shed => if entry ∨ fan = .idle then some (entryFan st r) else none

section Read

variable {s : State} {r : Int}

theorem chamberHot_read (h : s.smoke.temp = some r) : chamberHot s = decide (100 ≤ r) := by
  unfold chamberHot
  rw [h]

theorem fanOnEntry_read (h : s.smoke.temp = some r) (hlive : s.smoke.inUse.idle = set8 s 230) (st : SmokeState) :
    fanOnEntry st s = withFan (entryFan st r) s := by
  have hcold : (if chamberHot s then setFan .idle s else setFan .stopped s) =
      withFan (if 100 ≤ r then .idle else .stopped) s := by
    rw [chamberHot_read h, setFan_inUse hlive, setFan_inUse hlive, if_congr decide_eq_true_iff rfl rfl]
    split <;> rfl
  cases st with
  | off => exact hcold
  | shed => exact hcold
  | heating => exact setFan_inUse hlive .idle
  | ready => exact setFan_inUse hlive .idle
  | fault => exact setFan_inUse hlive .idle

theorem fanAtPeriod_read (h : s.smoke.temp = some r) (hlive : s.smoke.inUse.idle = set8 s 230)
    (hf : s.smoke.state ≠ .fault) : fanAtPeriod s = moveFan (fanMove s.smoke.fan s.smoke.state False r) s := by
  have hcold : (match s.smoke.fan with
      | .idle => if r < 100 then setFan .stopped s else setFan .idle s
      | _ => s) = moveFan (if False ∨ s.smoke.fan = .idle then some (if 100 ≤ r then .idle else .stopped) else none) s := by
    rw [setFan_inUse hlive, setFan_inUse hlive]
    simp only [false_or]
    cases s.smoke.fan with
    | idle =>
      dsimp only
      rw [if_pos rfl]
      by_cases hr : r < 100
      · rw [if_pos hr, if_neg (by omega)]
        rfl
      · rw [if_neg hr, if_pos (by omega)]
        rfl
    | stopped => rfl
    | puff => rfl
  unfold fanAtPeriod fanMove
  rw [h]
  cases hs : s.smoke.state with
  | heating => exact setFan_inUse hlive .idle
  | ready =>
    dsimp only
    rw [setFan_inUse hlive]
    simp only [false_or, ite_not]
    split <;> rfl
  | off => exact hcold
  | shed => exact hcold
  | fault => exact absurd hs hf

/-- The state, the demand and the duty of a smoke period (R137, R138). -/
def settled (st : SmokeState) (s : State) : State :=
  { s with smoke := { s.smoke with
      state := st, demand := heaterDemand s st, duty := min (heaterDemand s st) s.supply.grants.heaterCap } }

theorem enterSmoke_read (h : s.smoke.temp = some r) (hlive : s.smoke.inUse.idle = set8 s 230) (st : SmokeState) :
    enterSmoke st s = settled st (moveFan (if s.smoke.state = st then none else some (entryFan st r)) s) := by
  have hsettles {q : State} (hq : q.smoke.temp = some r) (hst : q.smoke.state = st) :
      applyHeater { q with
        smoke := { q.smoke with demand := heaterDemand q st }
        freeCount := if q.smoke.temp.isNone then q.freeCount + 1 else q.freeCount } = settled st q := by
    unfold settled applyHeater
    rw [hq, ← hst]
    rfl
  unfold enterSmoke
  dsimp only
  by_cases hst : s.smoke.state = st
  · rw [if_pos hst, if_pos hst]
    exact hsettles h hst
  · rw [if_neg hst, if_neg hst, fanOnEntry_read (s := { s with smoke := { s.smoke with state := st } }) h hlive]
    exact hsettles (q := withFan (entryFan st r) { s with smoke := { s.smoke with state := st } }) h rfl

end Read

/-- A smoke period's reading outside FAULT decides the state, the demand, the duty and the fan (R137, R138, R141). -/
theorem smokePeriod_decides {u : State} {r : Int} (h : u.smoke.temp = some r) (hlive : u.smoke.inUse.idle = set8 u 230)
    (hf : u.smoke.state ≠ .fault) {st : SmokeState} (hst : st ≠ .fault) :
    (if st = u.smoke.state then enterSmoke st (firstOffEntry (fanAtPeriod u)) else enterSmoke st u) =
      settled st (moveFan (fanMove u.smoke.fan st (st ≠ u.smoke.state ∨ (u.smoke.fresh = true ∧ st = .off)) r) u) := by
  have hmoved (m : Option FanMode) : (moveFan m u).smoke.temp = some r ∧
      (moveFan m u).smoke.inUse.idle = set8 (moveFan m u) 230 ∧ (moveFan m u).smoke.state = u.smoke.state ∧
        (moveFan m u).smoke.fresh = u.smoke.fresh := by
    cases m with
    | none => exact ⟨h, hlive, rfl, rfl⟩
    | some m => exact ⟨h, hlive, rfl, rfl⟩
  by_cases hsame : st = u.smoke.state
  · rw [if_pos hsame, fanAtPeriod_read h hlive hf, ← hsame]
    have hentry : (st ≠ st ∨ (u.smoke.fresh = true ∧ st = .off)) ↔ (u.smoke.fresh = true ∧ st = .off) :=
      or_iff_right fun hc => hc rfl
    obtain ⟨htemp, hidle, hstate, hfresh⟩ := hmoved (fanMove u.smoke.fan st False r)
    by_cases hfirst : u.smoke.fresh = true ∧ st = .off
    · obtain ⟨hfr, rfl⟩ := hfirst
      unfold firstOffEntry
      rw [if_pos ⟨hfresh.trans hfr, hstate.trans hsame.symm⟩, fanOnEntry_read htemp hidle,
        enterSmoke_read (s := withFan (entryFan .off r) (moveFan (fanMove u.smoke.fan .off False r) u)) htemp hidle,
        if_pos (show (withFan (entryFan .off r) (moveFan (fanMove u.smoke.fan .off False r) u)).smoke.state = .off from
          hstate.trans hsame.symm)]
      have hmove : fanMove u.smoke.fan .off (SmokeState.off ≠ .off ∨ (u.smoke.fresh = true ∧ SmokeState.off = .off)) r =
          some (entryFan .off r) := if_pos (.inl (.inr ⟨hfr, rfl⟩))
      rw [hmove]
      cases fanMove u.smoke.fan .off False r <;> rfl
    · unfold firstOffEntry
      rw [if_neg (fun hc => hfirst ⟨hfresh.symm.trans hc.1, hsame.trans (hstate.symm.trans hc.2)⟩),
        enterSmoke_read htemp hidle, if_pos (hstate.trans hsame.symm)]
      have hmove : fanMove u.smoke.fan st (st ≠ st ∨ (u.smoke.fresh = true ∧ st = .off)) r =
          fanMove u.smoke.fan st False r := by
        have hfalse : (st ≠ st ∨ (u.smoke.fresh = true ∧ st = .off)) ↔ False := hentry.trans (iff_of_false hfirst id)
        unfold fanMove
        simp only [hfalse]
      rw [hmove]
      rfl
  · rw [if_neg hsame, enterSmoke_read h hlive, if_neg (Ne.symm hsame)]
    have hmove : fanMove u.smoke.fan st (st ≠ u.smoke.state ∨ (u.smoke.fresh = true ∧ st = .off)) r =
        some (entryFan st r) := by
      cases st with
      | heating => rfl
      | ready => exact if_pos (.inl (.inl hsame))
      | off => exact if_pos (.inl (.inl hsame))
      | shed => exact if_pos (.inl (.inl hsame))
      | fault => exact absurd rfl hst
    rw [hmove]

theorem smokeStateOf_ne_fault (s : State) : smokeStateOf s ≠ .fault := by
  unfold smokeStateOf
  split
  · nofun
  · split
    · nofun
    · split
      · nofun
      · split
        · nofun
        · split <;> nofun

/-! ### The smoke period by its reading -/

/-- The state with the settings of the period in use. -/
def withSmokeSettings (s : State) : State := { s with smoke := { s.smoke with inUse := smokeSettings s } }

/-- The overtemp limit after a valid reading (R136). -/
def limitAfter (s : State) (r : Int) : Int :=
  if (set16 s 224 : Int) + 60 < s.smoke.limit ∧ r < (set16 s 224 : Int) + 60 then (set16 s 224 : Int) + 60
  else s.smoke.limit

/-- The state with a valid reading taken. -/
def withReading (r : Int) (s : State) : State :=
  { s with smoke := { s.smoke with inUse := smokeSettings s, temp := some r, limit := limitAfter s r } }

/-- The smoke period is over. -/
def periodOver (s : State) : State := { s with smoke := { s.smoke with fresh := false } }

section Period

variable {s : State} {r : Int}

theorem exec_smokePeriod (h : s.phase = .running) : exec (.smokePeriod r) s = .next (smokePeriod r s) := by
  have hrow : exec (.smokePeriod r) s = execSmokePeriod r s := rfl
  rw [hrow, execSmokePeriod, if_pos h]

theorem smokePeriod_invalid (h : ¬ (-40 ≤ r ∧ r ≤ 400)) : smokePeriod r s = periodOver
    (if (s.smoke.state == .fault) = true then fanInFault false (smokeSensorDetected (withSmokeSettings s))
      else smokeSensorDetected (withSmokeSettings s)) := by
  have hout : 400 < r ∨ r < -40 := by omega
  unfold smokePeriod
  dsimp only
  rw [if_pos hout]
  rfl

theorem smokePeriod_faulty (h : -40 ≤ r ∧ r ≤ 400) (hf : s.smoke.state = .fault) :
    smokePeriod r s = periodOver (fanInFault true (withReading r s)) := by
  have hin : ¬ (400 < r ∨ r < -40) := by omega
  have hstate : (takeReading r (takeSmokeSettings s)).smoke.state = .fault := hf
  unfold smokePeriod
  dsimp only
  rw [if_neg hin, if_pos hstate]
  rfl

theorem smokePeriod_overtemp (h : -40 ≤ r ∧ r ≤ 400) (hf : s.smoke.state ≠ .fault) (hr : limitAfter s r ≤ r) :
    smokePeriod r s = periodOver (smokeFaultEnter .overtemp .smokeOvertemp (withReading r s)) := by
  have hin : ¬ (400 < r ∨ r < -40) := by omega
  have hstate : ¬ (takeReading r (takeSmokeSettings s)).smoke.state = .fault := hf
  have hlimit : (takeReading r (takeSmokeSettings s)).smoke.limit ≤ r := hr
  unfold smokePeriod
  dsimp only
  rw [if_neg hin, if_neg hstate, if_pos hlimit]
  rfl

theorem smokePeriod_runs (h : -40 ≤ r ∧ r ≤ 400) (hf : s.smoke.state ≠ .fault) (hr : r < limitAfter s r) {st : SmokeState}
    (hst : smokeStateOf (withReading r s) = st) : smokePeriod r s = periodOver (settled st (moveFan
      (fanMove s.smoke.fan st (st ≠ s.smoke.state ∨ (s.smoke.fresh = true ∧ st = .off)) r) (withReading r s))) := by
  have hin : ¬ (400 < r ∨ r < -40) := by omega
  have hstate : ¬ (takeReading r (takeSmokeSettings s)).smoke.state = .fault := hf
  have hlimit : ¬ (takeReading r (takeSmokeSettings s)).smoke.limit ≤ r := Int.not_le.2 hr
  have hdecides := smokePeriod_decides (u := withReading r s) rfl rfl hf (hst ▸ smokeStateOf_ne_fault _)
  unfold smokePeriod
  dsimp only
  rw [if_neg hin, if_neg hstate, if_neg hlimit]
  refine congrArg periodOver (Eq.trans ?_ hdecides)
  rw [← hst]
  rfl

/-- A smoke fault is entered (R139): the heater is off, the fan idles, the fault is reported as latched. -/
theorem smokeFaultEnter_live (hlive : s.smoke.inUse.idle = set8 s 230) (f : SmokeFault) (k : FaultKind) :
    smokeFaultEnter f k s = { s with
      smoke := { s.smoke with
        state := .fault, demand := 0, duty := 0, fault := some f, fan := .idle, puffEnd := none, fanLevel := set8 s 230 }
      faults := updateAt s.faults k.index (fun x => x.report true s.partTime) } := by
  have hfan := setFan_inUse
    (s := { s with smoke := { s.smoke with state := .fault, demand := 0, duty := 0, fault := some f } }) hlive .idle
  unfold smokeFaultEnter
  rw [hfan]
  rfl

theorem smokeSensorDetected_enters (h : s.smoke.state ≠ .fault ∨ s.smoke.fault = some .overtemp) :
    smokeSensorDetected s = smokeFaultEnter (.sensor (s.partTime + 120000)) .smokeSensor s := by
  unfold smokeSensorDetected
  dsimp only
  by_cases hs : s.smoke.state = .fault
  · rw [if_pos hs, h.resolve_left (not_not.2 hs)]
    rfl
  · rw [if_neg hs]
    rfl

/-- The fan of a period in FAULT that does not stop (R139, R141). -/
theorem fanAtPeriod_fault (hs : s.smoke.state = .fault) (hlive : s.smoke.inUse.idle = set8 s 230)
    (hpuff : s.smoke.puffEnd = none) : fanAtPeriod s = { s with smoke := { s.smoke with
      fanLevel := if s.smoke.fan = .idle then set8 s 230 else s.smoke.fanLevel } } := by
  unfold fanAtPeriod
  rw [hs]
  dsimp only
  by_cases hfan : s.smoke.fan = .idle
  · rw [if_pos hfan, if_pos hfan, setFan_inUse hlive]
    unfold withFan
    rw [← hfan, ← hpuff, hfan]
    rfl
  · rw [if_neg hfan, if_neg hfan]

end Period

/-- In FAULT no puff runs (R142, R143). -/
theorem SmokeSound.no_puff {s : State} (h : SmokeSound s) (hs : s.smoke.state ≠ .ready) :
    s.smoke.fan ≠ .puff ∧ s.smoke.puffEnd = none := by
  have hfan : s.smoke.fan ≠ .puff := fun hp => hs (h.ready hp)
  exact ⟨hfan, Option.not_isSome_iff_eq_none.1 (mt h.puff.1 hfan)⟩

/-- What the fan, its level and its puff end come to in a smoke period that decides the state `st` (R141, R142). -/
def FanSettles (s : State) (st : SmokeState) (entry : Prop) [Decidable entry] (r : Int) (fan : FanMode) (level : Nat)
    (puffEnd : Option Time) : Prop :=
  (st = .heating → fan = .idle) ∧
  (st = .ready → fan = if entry ∨ s.smoke.fan ≠ .puff then .idle else .puff) ∧
  (st = .off ∨ st = .shed → fan = if (entry ∨ s.smoke.fan = .idle) ∧ 100 ≤ r then .idle else .stopped) ∧
  (fan = .idle → level = set8 s 230) ∧
  (fan ≠ .idle → fan = s.smoke.fan → s.smoke.fan = .puff ∨ ¬ entry → level = s.smoke.fanLevel) ∧
  (fan = .stopped → s.smoke.fan ≠ .stopped → level = 0) ∧
  puffEnd = (if fan = .puff then s.smoke.puffEnd else none)

section FanSettles

variable {s : State} {st : SmokeState} {entry : Prop} [Decidable entry] {r : Int}

theorem fanSettles_hot (hst : st = .heating ∨ st = .ready ∧ (entry ∨ s.smoke.fan ≠ .puff)) :
    FanSettles s st entry r .idle (set8 s 230) none := by
  refine ⟨fun _ => rfl, fun hr => ?_, fun hc => ?_, fun _ => rfl, fun h => absurd rfl h, nofun, rfl⟩
  · rcases hst with rfl | ⟨_, h⟩
    · cases hr
    · rw [if_pos h]
  · rcases hst with rfl | ⟨rfl, _⟩ <;> rcases hc with hc | hc <;> cases hc

theorem fanSettles_puff (hst : st = .ready) (h : ¬ (entry ∨ s.smoke.fan ≠ .puff)) :
    FanSettles s st entry r s.smoke.fan s.smoke.fanLevel s.smoke.puffEnd := by
  have hpuff : s.smoke.fan = .puff := not_not.1 fun hc => h (.inr hc)
  subst hst
  refine ⟨nofun, fun _ => ?_, fun hc => ?_, fun hi => ?_, fun _ _ _ => rfl, fun hs => ?_, ?_⟩
  · rw [if_neg h, hpuff]
  · rcases hc with hc | hc <;> cases hc
  · rw [hpuff] at hi
    cases hi
  · rw [hpuff] at hs
    cases hs
  · rw [if_pos hpuff]

theorem fanSettles_cold (hst : st = .off ∨ st = .shed) (h : entry ∨ s.smoke.fan = .idle) :
    FanSettles s st entry r (if 100 ≤ r then .idle else .stopped) (if 100 ≤ r then set8 s 230 else 0) none := by
  refine ⟨fun hc => ?_, fun hc => ?_, fun _ => ?_, fun hi => ?_, fun hi hsame hkept => ?_, fun hs _ => ?_, ?_⟩
  · rcases hst with rfl | rfl <;> cases hc
  · rcases hst with rfl | rfl <;> cases hc
  · exact if_congr (and_iff_right h).symm rfl rfl
  · by_cases hr : 100 ≤ r
    · rw [if_pos hr]
    · rw [if_neg hr] at hi
      cases hi
  · by_cases hr : 100 ≤ r
    · rw [if_pos hr] at hi
      exact absurd rfl hi
    · rw [if_neg hr] at hsame
      rcases hkept with hp | hne
      · rw [hp] at hsame
        cases hsame
      · rw [h.resolve_left hne] at hsame
        cases hsame
  · by_cases hr : 100 ≤ r
    · rw [if_pos hr] at hs
      cases hs
    · rw [if_neg hr]
  · by_cases hr : 100 ≤ r
    · rw [if_pos hr, if_neg (by decide)]
    · rw [if_neg hr, if_neg (by decide)]

theorem fanSettles_still (hsound : SmokeSound s) (hst : st = .off ∨ st = .shed) (hsame : ¬ entry → st = s.smoke.state)
    (h : ¬ (entry ∨ s.smoke.fan = .idle)) :
    FanSettles s st entry r s.smoke.fan s.smoke.fanLevel s.smoke.puffEnd := by
  have hnotready : s.smoke.state ≠ .ready := by
    rw [← hsame fun he => h (.inl he)]
    rcases hst with rfl | rfl <;> nofun
  obtain ⟨hpuff, hend⟩ := hsound.no_puff hnotready
  have hstopped : s.smoke.fan = .stopped := by
    cases hf : s.smoke.fan with
    | stopped => rfl
    | idle => exact absurd (.inr hf) h
    | puff => exact absurd hf hpuff
  refine ⟨fun hc => ?_, fun hc => ?_, fun _ => ?_, fun hi => ?_, fun _ _ _ => rfl, fun _ hn => absurd hstopped hn, ?_⟩
  · rcases hst with rfl | rfl <;> cases hc
  · rcases hst with rfl | rfl <;> cases hc
  · rw [if_neg (fun hc => h hc.1), hstopped]
  · exact absurd (.inr hi) h
  · rw [if_neg hpuff, hend]

/-- The fan of a smoke period settles as R141 and R142 give it. -/
theorem moveFan_settles (hsound : SmokeSound s) (hst : st ≠ .fault) (hsame : ¬ entry → st = s.smoke.state) :
    FanSettles s st entry r (moveFan (fanMove s.smoke.fan st entry r) (withReading r s)).smoke.fan
      (moveFan (fanMove s.smoke.fan st entry r) (withReading r s)).smoke.fanLevel
      (moveFan (fanMove s.smoke.fan st entry r) (withReading r s)).smoke.puffEnd := by
  have hcold (hc : st = .off ∨ st = .shed) (hmove : fanMove s.smoke.fan st entry r =
      if entry ∨ s.smoke.fan = .idle then some (if 100 ≤ r then .idle else .stopped) else none) :
      FanSettles s st entry r (moveFan (fanMove s.smoke.fan st entry r) (withReading r s)).smoke.fan
        (moveFan (fanMove s.smoke.fan st entry r) (withReading r s)).smoke.fanLevel
        (moveFan (fanMove s.smoke.fan st entry r) (withReading r s)).smoke.puffEnd := by
    rw [hmove]
    by_cases h : entry ∨ s.smoke.fan = .idle
    · rw [if_pos h]
      have hsettles := fanSettles_cold (r := r) hc h
      have hlevel : fanLevelOf (withReading r s) (if 100 ≤ r then .idle else .stopped) =
          if 100 ≤ r then set8 s 230 else 0 := by
        split <;> rfl
      rw [← hlevel] at hsettles
      exact hsettles
    · rw [if_neg h]
      exact fanSettles_still hsound hc hsame h
  cases st with
  | heating => exact fanSettles_hot (.inl rfl)
  | ready =>
    unfold fanMove
    by_cases h : entry ∨ s.smoke.fan ≠ .puff
    · rw [if_pos h]
      exact fanSettles_hot (.inr ⟨rfl, h⟩)
    · rw [if_neg h]
      exact fanSettles_puff rfl h
  | off => exact hcold (.inl rfl) rfl
  | shed => exact hcold (.inr rfl) rfl
  | fault => exact absurd rfl hst

end FanSettles

/-- The state of Table 8-3 after a reading. -/
theorem smokeStateOf_read (s : State) (r : Int) : smokeStateOf (withReading r s) =
    if asked s 41 = false ∨ s.supply.state = .parked then .off
    else if s.supply.state = .ride ∨ s.supply.state = .dark then .shed
    else if r < (set16 s 224 : Int) - 20 then .heating else .ready := by
  have hasked : asked (withReading r s) featSmoke = asked s 41 := rfl
  have htemp : (withReading r s).smoke.temp = some r := rfl
  have hsupply : (withReading r s).supply = s.supply := rfl
  unfold smokeStateOf
  rw [hasked, htemp, hsupply]
  cases asked s 41 with
  | false => exact (if_pos (by decide)).trans (if_pos (.inl rfl)).symm
  | true =>
    rw [Bool.not_true, if_neg Bool.false_ne_true, if_congr (or_iff_right (nofun : ¬ true = false)) rfl rfl]
    rfl

/-- Moving the fan leaves all but the fan. -/
theorem moveFan_keeps (m : Option FanMode) (s : State) : moveFan m s = { s with smoke := (moveFan m s).smoke } ∧
    (moveFan m s).smoke.temp = s.smoke.temp ∧ (moveFan m s).smoke.limit = s.smoke.limit ∧
    (moveFan m s).smoke.inUse = s.smoke.inUse ∧ (moveFan m s).smoke.fault = s.smoke.fault := by
  cases m with
  | none => exact ⟨rfl, rfl, rfl, rfl, rfl⟩
  | some m => exact ⟨rfl, rfl, rfl, rfl, rfl⟩

/-- Settles O47. -/
theorem smokePeriodDecides : Obligations.SmokePeriodDecides := by
  unfold Obligations.SmokePeriodDecides
  intro s r hrun hsound target limit live valid faulty entered
  have hlive : (withSmokeSettings s).smoke.inUse.idle = set8 (withSmokeSettings s) 230 := rfl
  have hlive' : (withReading r s).smoke.inUse.idle = set8 (withReading r s) 230 := rfl
  refine ⟨fun hv hf => ⟨_, exec_smokePeriod hrun, ?sensor⟩, fun hv hf x hx => ?sensorStands, fun hv hf f hx => ?inFault,
    fun hv hf hr => ⟨_, exec_smokePeriod hrun, ?overtemp⟩, fun hv hf hr => ⟨_, exec_smokePeriod hrun, ?runs⟩⟩
  case sensor =>
    have hdetected := (smokeSensorDetected_enters (s := withSmokeSettings s) hf).trans
      (smokeFaultEnter_live hlive (.sensor (s.partTime + 120000)) .smokeSensor)
    rw [smokePeriod_invalid hv, hdetected]
    split
    · unfold fanInFault
      dsimp only
      rw [fanAtPeriod_fault rfl rfl rfl]
      exact ⟨⟨rfl, rfl, rfl, rfl, rfl, rfl, rfl, rfl, rfl⟩, rfl⟩
    · exact ⟨⟨rfl, rfl, rfl, rfl, rfl, rfl, rfl, rfl, rfl⟩, rfl⟩
  case sensorStands =>
    have hdetected : smokeSensorDetected (withSmokeSettings s) = withSmokeSettings s := by
      have hfault : (withSmokeSettings s).smoke.fault = some (.sensor x) := hx
      have hstate : (withSmokeSettings s).smoke.state = .fault := hf
      unfold smokeSensorDetected
      dsimp only
      rw [if_pos hstate, hfault]
    have hfan : fanInFault false (withSmokeSettings s) = fanAtPeriod (withSmokeSettings s) := by
      have hfault : (withSmokeSettings s).smoke.fault = some (.sensor x) := hx
      unfold fanInFault
      rw [hfault]
    have hend : s.smoke.puffEnd = none := (hsound.no_puff (by rw [hf]; nofun)).2
    rw [exec_smokePeriod hrun, smokePeriod_invalid hv, if_pos (beq_iff_eq.2 hf), hdetected, hfan,
      fanAtPeriod_fault (s := withSmokeSettings s) hf hlive hend]
    rfl
  case inFault =>
    intro stops
    have hend : s.smoke.puffEnd = none := (hsound.no_puff (by rw [hf]; nofun)).2
    have hperiod := fanAtPeriod_fault (s := withReading r s) hf hlive' hend
    have hfault : (withReading r s).smoke.fault = some f := hx
    rw [exec_smokePeriod hrun, smokePeriod_faulty hv hf]
    unfold fanInFault
    rw [hfault]
    cases f with
    | sensor x =>
      dsimp only
      rw [hperiod, if_neg (fun hc : stops => nomatch hc.1), if_neg (fun hc : stops => nomatch hc.1)]
      rfl
    | overtemp =>
      dsimp only
      rw [chamberHot_read (r := r) rfl, Bool.true_and, ← decide_not]
      by_cases hr : r < 100
      · rw [if_pos (decide_eq_true (by omega)), if_pos (⟨rfl, hr⟩ : stops), if_pos (⟨rfl, hr⟩ : stops), setFan_inUse hlive']
        unfold withFan
        rw [← hend]
        rfl
      · rw [if_neg (fun hc => hr (by have := of_decide_eq_true hc; omega)), if_neg (fun hc : stops => hr hc.2),
          if_neg (fun hc : stops => hr hc.2), hperiod]
        rfl
  case overtemp =>
    rw [smokePeriod_overtemp hv hf hr, smokeFaultEnter_live hlive']
    exact ⟨⟨rfl, rfl, rfl, rfl, rfl, rfl, rfl, rfl, rfl⟩, rfl⟩
  case runs =>
    rw [smokePeriod_runs hv hf hr (smokeStateOf_read s r)]
    generalize hst : (if asked s 41 = false ∨ s.supply.state = .parked then SmokeState.off
      else if s.supply.state = .ride ∨ s.supply.state = .dark then .shed
      else if r < (set16 s 224 : Int) - 20 then .heating else .ready) = st
    have hnofault : st ≠ .fault := by
      rw [← hst, ← smokeStateOf_read]
      exact smokeStateOf_ne_fault _
    have hfan := moveFan_settles (r := r) (entry := st ≠ s.smoke.state ∨ (s.smoke.fresh = true ∧ st = .off)) hsound hnofault
      fun hn => not_not.1 fun hc => hn (.inl hc)
    generalize fanMove s.smoke.fan st (st ≠ s.smoke.state ∨ (s.smoke.fresh = true ∧ st = .off)) r = m at hfan ⊢
    have hdemand : heaterDemand (moveFan m (withReading r s)) st = if st = .heating ∨ st = .ready
        then (clamp 0 (set16 s 226) (((set16 s 224 : Int) - r) * 16)).toNat else 0 := by
      have hread : heaterDemand (moveFan m (withReading r s)) st = heaterDemand (withReading r s) st := by
        cases m <;> rfl
      rw [hread]
      cases st <;> rfl
    obtain ⟨hframe, htemp, hlimit, hinUse, hfault⟩ := moveFan_keeps m (withReading r s)
    generalize moveFan m (withReading r s) = w at *
    have hsupply : w.supply = s.supply := (congrArg State.supply hframe :)
    refine ⟨?_, htemp, hlimit, hinUse, rfl, hfault, rfl, hdemand, ?_, hfan⟩
    · rw [hframe]
      rfl
    · rw [← hsupply]
      rfl

end Sys2Proof.Machine
end

section
/-! The budget period's decisions (R145, R147 to R152): what a change of the supply state comes to; O49. -/

namespace Sys2Proof.Machine

/-! ### A change of the supply state -/

/-- Everything but the supply, the loads, the hold list and the Fault List is the same. -/
def LoadsFrame (s t : State) : Prop :=
  t = { s with
    supply := t.supply, sound := t.sound, port := t.port, smoke := t.smoke, motor := t.motor, holds := t.holds
    faults := t.faults, freeCount := t.freeCount }

theorem LoadsFrame.trans {a b c : State} (h : LoadsFrame a b) (k : LoadsFrame b c) : LoadsFrame a c := by
  unfold LoadsFrame at *
  rw [k, h]

theorem SoundFrame.soundSupplyChange (s : State) : SoundFrame s (soundSupplyChange s) := by
  unfold Machine.soundSupplyChange
  dsimp only
  split
  · exact (updateMode s).trans (ambientBegin _)
  · exact updateMode s

/-- What the loads' reaction leaves of everything beside the sound, the smoke and the motor. -/
theorem loadsReact_comes (old : SupplyState) (s : State) :
    (loadsReact old s).supply = s.supply ∧ (loadsReact old s).holds = s.holds ∧ (loadsReact old s).faults = s.faults ∧
      (loadsReact old s).motor = (motorReacts old s).motor ∧ LoadsFrame s (loadsReact old s) := by
  have hmotor : motorReacts old s = { s with motor := (motorReacts old s).motor } := by
    unfold motorReacts abandonCheck
    dsimp only
    split
    · split
      · split <;> rfl
      · split <;> rfl
    · split <;> rfl
  have hsmoke := smokeDecide_frame (motorReacts old s)
  have hsound := SoundFrame.soundSupplyChange (smokeDecide (motorReacts old s))
  obtain ⟨so, po, hsound⟩ := SoundFrame.exists_eq hsound
  rw [loadsReact_eq, hsound]
  generalize smokeDecide (motorReacts old s) = u at hsmoke ⊢
  generalize motorReacts old s = w at hmotor hsmoke ⊢
  rw [hsmoke, hmotor]
  exact ⟨rfl, rfl, rfl, rfl, rfl⟩

/-- The motor of a locomotive that leaves TRACK: a check that runs or is accepted is abandoned (R21; log 15). -/
def checkAbandoned (s : State) : Motor :=
  if s.motor.state = .check ∨ s.motor.checkAccepted = true then { s.motor with
    checkRecord := { result := .abandoned, estimate := none, time := s.partTime }, checkProgress := none
    checkC := [], checkAccepted := false, Da := 0, state := .stopped }
  else s.motor

theorem abandonCheck_motor (s : State) : (abandonCheck s).motor = checkAbandoned s := by
  unfold abandonCheck checkAbandoned Motor.checking
  by_cases h : s.motor.state = .check ∨ s.motor.checkAccepted = true
  · rw [if_pos h, if_pos (by rwa [Bool.or_eq_true, beq_iff_eq])]
    rfl
  · rw [if_neg h, if_neg (by rwa [Bool.or_eq_true, beq_iff_eq])]

/-- A motor that leaves TRACK for PARKED or RIDE (R21). -/
theorem motorReacts_leaves {s : State} (h : s.supply.state ≠ .track) (hd : s.supply.state ≠ .dark) :
    (motorReacts .track s).motor = checkAbandoned s := by
  have hu : (if SupplyState.track = .track ∧ s.supply.state ≠ .track then abandonCheck s else s) = abandonCheck s :=
    if_pos ⟨rfl, h⟩
  unfold motorReacts
  rw [hu]
  dsimp only
  rw [abandonCheck_supply, if_neg hd, abandonCheck_motor]

/-- A motor that comes from elsewhere, or stays in TRACK, is left alone outside DARK (R147). -/
theorem motorReacts_rests {old : SupplyState} {s : State} (h : old = .track → s.supply.state = .track)
    (hd : s.supply.state ≠ .dark) : (motorReacts old s).motor = s.motor := by
  have hu : (if old = .track ∧ s.supply.state ≠ .track then abandonCheck s else s) = s := if_neg fun hc => hc.2 (h hc.1)
  unfold motorReacts
  rw [hu]
  dsimp only
  rw [if_neg hd]

/-- A motor that goes dark (R11). -/
theorem motorReacts_dark {old : SupplyState} {s : State} (h : old ≠ .track) (hd : s.supply.state = .dark) :
    (motorReacts old s).motor = { s.motor with R := 0, rising := 0, falling := 0, Da := 0, I := 0 } := by
  have hu : (if old = .track ∧ s.supply.state ≠ .track then abandonCheck s else s) = s := if_neg fun hc => h hc.1
  unfold motorReacts
  rw [hu]
  dsimp only
  rw [if_pos hd]
  rfl

/-- The state `t` has come from `s` with this supply, but for the grants, these holds, this Fault List and this motor. -/
structure SupplyComes (s t : State) (su : Supply) (holds : List Hold) (faults : List FaultRecord) (motor : Motor) : Prop where
  supply : t.supply = { su with grants := t.supply.grants }
  holds : t.holds = holds
  faults : t.faults = faults
  motor : t.motor = motor
  frame : LoadsFrame s t

section Change

variable {s : State}

theorem changeSupply_eq {new : SupplyState} (h : s.supply.state ≠ new) :
    changeSupply new s = loadsReact s.supply.state (supplyEntry s.supply.state new s) := if_neg h

/-- Leaving TRACK or PARKED for RIDE (R147). -/
theorem enters_ride (h : s.supply.state = .track ∨ s.supply.state = .parked) : SupplyComes s (changeSupply .ride s)
    { s.supply with state := .ride, rideStart := some s.partTime, restoreStart := none } s.holds s.faults
    (if s.supply.state = .track then checkAbandoned s else s.motor) := by
  have hne : s.supply.state ≠ .ride := by rcases h with h | h <;> rw [h] <;> nofun
  have hentry : supplyEntry s.supply.state .ride s = { s with supply := { s.supply with
      state := .ride, rideStart := some s.partTime, restoreStart := none } } := rfl
  rw [changeSupply_eq hne, hentry]
  obtain ⟨hsu, hho, hfa, hmo, hfr⟩ := loadsReact_comes s.supply.state { s with supply := { s.supply with
      state := .ride, rideStart := some s.partTime, restoreStart := none } }
  refine ⟨by rw [hsu], hho, hfa, hmo.trans ?_, hfr⟩
  rcases h with h | h
  · rw [h, if_pos rfl]
    exact motorReacts_leaves (nofun : SupplyState.ride ≠ .track) (nofun : SupplyState.ride ≠ .dark)
  · rw [h, if_neg (by decide)]
    exact motorReacts_rests nofun (nofun : SupplyState.ride ≠ .dark)

/-- Leaving TRACK for PARKED (R152). -/
theorem enters_parked (h : s.supply.state = .track) : SupplyComes s (changeSupply .parked s)
    { s.supply with state := .parked } s.holds s.faults (checkAbandoned s) := by
  have hentry : supplyEntry .track .parked s = { s with supply := { s.supply with state := .parked } } := rfl
  rw [changeSupply_eq (by rw [h]; nofun), h, hentry]
  obtain ⟨hsu, hho, hfa, hmo, hfr⟩ := loadsReact_comes .track { s with supply := { s.supply with state := .parked } }
  exact ⟨by rw [hsu], hho, hfa,
    hmo.trans (motorReacts_leaves (nofun : SupplyState.parked ≠ .track) (nofun : SupplyState.parked ≠ .dark)), hfr⟩

/-- The motor at a return to TRACK is as it was. -/
theorem motorReacts_track {old : SupplyState} (h : s.supply.state = .track) : (motorReacts old s).motor = s.motor :=
  motorReacts_rests (fun _ => h) (by rw [h]; nofun)

/-- A parked part wakes (R152). -/
theorem enters_track_awake (h : s.supply.state = .parked) : SupplyComes s (changeSupply .track s)
    { s.supply with state := .track, lastActivity := s.partTime } s.holds s.faults s.motor := by
  have hentry : supplyEntry .parked .track s =
      { s with supply := { s.supply with state := .track, lastActivity := s.partTime } } := by
    unfold supplyEntry
    exact if_pos rfl
  rw [changeSupply_eq (by rw [h]; nofun), h, hentry]
  obtain ⟨hsu, hho, hfa, hmo, hfr⟩ := loadsReact_comes .parked
    { s with supply := { s.supply with state := .track, lastActivity := s.partTime } }
  exact ⟨by rw [hsu], hho, hfa, hmo.trans (motorReacts_track rfl), hfr⟩

/-- The restore completes (R148, R149). -/
theorem enters_track_restored (h : s.supply.state = .ride ∨ s.supply.state = .dark) : SupplyComes s (changeSupply .track s)
    { s.supply with
      state := .track, holdFlag := false, restoreStart := none, rideStart := none, lastActivity := s.partTime }
    (s.holds.filter (fun h => h.source != .supply)) s.faults s.motor := by
  have hne : s.supply.state ≠ .track := by rcases h with h | h <;> rw [h] <;> nofun
  have hnp : s.supply.state ≠ .parked := by rcases h with h | h <;> rw [h] <;> nofun
  have hentry : supplyEntry s.supply.state .track s = { s with
      supply := { s.supply with
        state := .track, holdFlag := false, restoreStart := none, rideStart := none, lastActivity := s.partTime }
      holds := s.holds.filter (fun h => h.source != .supply) } := if_neg hnp
  rw [changeSupply_eq hne, hentry]
  generalize hq : ({ s with
    supply := { s.supply with
      state := .track, holdFlag := false, restoreStart := none, rideStart := none, lastActivity := s.partTime }
    holds := s.holds.filter (fun h => h.source != .supply) } : State) = q
  obtain ⟨hsu, hho, hfa, hmo, hfr⟩ := loadsReact_comes s.supply.state q
  have htrack : q.supply.state = .track := by
    subst hq
    rfl
  have hframe : LoadsFrame s q := by
    subst hq
    rfl
  refine ⟨?_, hho.trans ?_, hfa.trans ?_, hmo.trans ((motorReacts_track htrack).trans ?_), hframe.trans hfr⟩
  · rw [hsu, ← hq]
  · rw [← hq]
  · rw [← hq]
  · rw [← hq]

/-- The holds with the SUPPLY hold installed (R150, R151). -/
def supplyHeld (s : State) : List Hold := insertHold { plainStop .supply .normal with created := s.partTime } s.holds

/-- Leaving RIDE for DARK (R11, R151). -/
theorem enters_dark (h : s.supply.state = .ride) : SupplyComes s (changeSupply .dark s)
    { s.supply with state := .dark, rideStart := none, holdFlag := true }
    (if s.supply.holdFlag = true then s.holds else supplyHeld s)
    (updateAt s.faults 6 (fun r => r.report false s.partTime))
    { s.motor with R := 0, rising := 0, falling := 0, Da := 0, I := 0 } := by
  have hentry : supplyEntry .ride .dark s = { s with
      supply := { s.supply with state := .dark, rideStart := none, holdFlag := true }
      holds := if s.supply.holdFlag = true then s.holds else supplyHeld s
      faults := updateAt s.faults 6 (fun r => r.report false s.partTime) } := by
    cases hflag : s.supply.holdFlag with
    | true =>
      rw [if_pos rfl, ← hflag]
      exact if_pos hflag
    | false =>
      rw [if_neg (by decide)]
      exact if_neg (by rw [show (reportFault .storeLow false { s with supply :=
        { s.supply with state := .dark, rideStart := none } }).supply.holdFlag = false from hflag]; decide)
  rw [changeSupply_eq (by rw [h]; nofun), h, hentry]
  generalize hq : ({ s with
    supply := { s.supply with state := .dark, rideStart := none, holdFlag := true }
    holds := if s.supply.holdFlag = true then s.holds else supplyHeld s
    faults := updateAt s.faults 6 (fun r => r.report false s.partTime) } : State) = q
  obtain ⟨hsu, hho, hfa, hmo, hfr⟩ := loadsReact_comes .ride q
  have hframe : LoadsFrame s q := by
    subst hq
    rfl
  have hmotor : (motorReacts .ride q).motor = { q.motor with R := 0, rising := 0, falling := 0, Da := 0, I := 0 } := by
    have hdark : q.supply.state = .dark := by
      subst hq
      rfl
    exact motorReacts_dark nofun hdark
  refine ⟨?_, hho.trans ?_, hfa.trans ?_, hmo.trans (hmotor.trans ?_), hframe.trans hfr⟩
  · rw [hsu, ← hq]
  · rw [← hq]
  · rw [← hq]
  · rw [← hq]

end Change

/-! ### The hold decision and the grants -/

/-- The SUPPLY hold is asked for in RIDE (R150). -/
def AsksSupplyHold (s : State) : Prop :=
  s.supply.holdFlag = false ∧ (s.supply.vs < set16 s 234 ∨ rideLimitReached s = true)

theorem decideHold_elsewhere {s : State} (h : s.supply.state ≠ .ride) : decideHold s = s := if_neg fun hc => h hc.1

theorem decideHold_asks {s : State} (h : s.supply.state = .ride) (ha : AsksSupplyHold s) : decideHold s =
    { s with supply := { s.supply with holdFlag := true }, holds := supplyHeld s } := if_pos ⟨h, ha.1, ha.2⟩

theorem decideHold_rests {s : State} (ha : ¬ AsksSupplyHold s) : decideHold s = s := if_neg fun hc => ha hc.2

theorem publishGrants_eq (s : State) : publishGrants s = { s with
    supply := { s.supply with grants := computeGrants s }
    smoke := { s.smoke with duty := min s.smoke.demand (computeGrants s).heaterCap } } := rfl

theorem rideLimitReached_iff (s : State) : rideLimitReached s = true ↔ ∃ r, s.supply.rideStart = some r ∧
    0 < set8 s 242 ∧ reached s.partTime (r + BitVec.ofNat 32 (set8 s 242 * 100)) = true := by
  unfold rideLimitReached later
  cases s.supply.rideStart with
  | none => exact iff_of_false nofun nofun
  | some r =>
    dsimp only
    rw [Bool.and_eq_true, bne_iff_ne, ← Nat.pos_iff_ne_zero]
    exact ⟨fun h => ⟨r, rfl, h⟩, fun ⟨_, hr, h⟩ => Option.some.inj hr ▸ h⟩

theorem restoreDone_iff (s : State) : restoreDone s = true ↔
    ∃ r, s.supply.restoreStart = some r ∧ reached s.partTime (r + 100) = true := by
  unfold restoreDone later
  cases s.supply.restoreStart with
  | none => exact iff_of_false nofun nofun
  | some r => exact ⟨fun h => ⟨r, rfl, h⟩, fun ⟨_, hr, h⟩ => Option.some.inj hr ▸ h⟩

end Sys2Proof.Machine
end

section
/-! The budget period (R145, R147, R148, R150, R151, R153, R154); O48. -/

namespace Sys2Proof.Machine

/-- The state after the senses of a budget period. -/
def supplySensed (vt vs : Nat) (s : State) : State := { s with supply := { s.supply with vt := vt, vs := vs } }

section Senses

variable {s : State} {vt vs : Nat}

theorem exec_budgetPeriod (h : s.phase = .running) :
    exec (.budgetPeriod vt vs) s = .next (budgetPeriod vt vs s) := by
  have hrow : exec (.budgetPeriod vt vs) s = execBudgetPeriod vt vs s := rfl
  rw [hrow, execBudgetPeriod, if_pos h]

theorem budgetPeriod_eq (hvt : vt ≤ 30000) (hvs : vs ≤ 20000) :
    budgetPeriod vt vs s = publishGrants (decideHold (decideSupply (supplySensed vt vs s))) := by
  unfold budgetPeriod senseSupply
  rw [Nat.min_eq_right hvt, Nat.min_eq_right hvs]
  rfl

theorem SupplyComes.published {t : State} {su : Supply} {holds : List Hold} {faults : List FaultRecord} {motor : Motor}
    (h : SupplyComes s t su holds faults motor) : SupplyComes s (publishGrants t) su holds faults motor := by
  obtain ⟨hsu, hho, hfa, hmo, hfr⟩ := h
  refine ⟨?_, hho, hfa, hmo, hfr.trans rfl⟩
  rw [publishGrants_eq]
  dsimp only
  rw [hsu]

/-- A state that has only sensed, or timed its restore, comes to the same. -/
theorem SupplyComes.of_sensed {q t : State} {su : Supply} {holds : List Hold} {faults : List FaultRecord} {motor : Motor}
    (h : SupplyComes q t su holds faults motor) (hq : q = { s with supply := q.supply }) :
    SupplyComes s t su holds faults motor := by
  obtain ⟨hsu, hho, hfa, hmo, hfr⟩ := h
  have hframe : LoadsFrame s q := by
    generalize q.supply = x at hq
    subst hq
    rfl
  exact ⟨hsu, hho, hfa, hmo, hframe.trans hfr⟩

/-- The hold decision outside RIDE (R150). -/
theorem SupplyComes.unheld {t : State} {su : Supply} {holds : List Hold} {faults : List FaultRecord} {motor : Motor}
    (h : SupplyComes s t su holds faults motor) (hs : su.state ≠ .ride) :
    SupplyComes s (decideHold t) su holds faults motor := by
  have hstate : t.supply.state = su.state := (congrArg Supply.state h.supply :)
  rw [decideHold_elsewhere (by rwa [hstate])]
  exact h

/-- RIDE asks for the SUPPLY hold: the flag is not set, and the store is low or the ride limit has been reached (R150). -/
def RideAsks (s : State) (vs : Nat) (flag : Bool) (started : Option Time) : Prop :=
  flag = false ∧ (vs < set16 s 234 ∨ ∃ r, started = some r ∧ 0 < set8 s 242 ∧
    reached s.partTime (r + BitVec.ofNat 32 (set8 s 242 * 100)) = true)

/-- The hold decision in RIDE (R150). -/
theorem SupplyComes.held {t : State} {su : Supply} {faults : List FaultRecord} {motor : Motor}
    (h : SupplyComes s t su s.holds faults motor) (hs : su.state = .ride) :
    (RideAsks s su.vs su.holdFlag su.rideStart →
      SupplyComes s (decideHold t) { su with holdFlag := true } (supplyHeld s) faults motor) ∧
    (¬ RideAsks s su.vs su.holdFlag su.rideStart → SupplyComes s (decideHold t) su s.holds faults motor) := by
  obtain ⟨hsu, hho, hfa, hmo, hfr⟩ := h
  have hstate : t.supply.state = .ride := by
    rw [hsu]
    exact hs
  have htime : t.partTime = s.partTime := (congrArg State.partTime hfr :)
  have hset : t.settings = s.settings := (congrArg State.settings hfr :)
  have hasks : AsksSupplyHold t ↔ RideAsks s su.vs su.holdFlag su.rideStart := by
    unfold AsksSupplyHold RideAsks
    rw [rideLimitReached_iff]
    unfold set8 set16
    rw [hset, htime, hsu]
  refine ⟨fun ha => ?_, fun ha => ?_⟩
  · rw [decideHold_asks hstate (hasks.2 ha)]
    refine ⟨?_, ?_, hfa, hmo, hfr.trans rfl⟩
    · dsimp only
      rw [hsu]
    · unfold supplyHeld
      dsimp only
      rw [htime, hho]
  · rw [decideHold_rests (mt hasks.1 ha)]
    exact ⟨hsu, hho, hfa, hmo, hfr⟩

end Senses

/-! ### The tests of Table 9-3 -/

section Tests

variable {s : State} {vt vs : Nat}

theorem trackGood_iff : trackGood (supplySensed vt vs s) = true ↔ set16 s 232 ≤ vt := decide_eq_true_iff

theorem parkTest_iff (s : State) : parkTest s = true ↔ set8 s 14 ≠ 0 ∧ s.pub.phase = .stopped ∧ sEff s = 0 ∧
    reached s.partTime (s.supply.lastActivity + BitVec.ofNat 32 (set8 s 14 * 10000)) = true := by
  unfold parkTest later
  rw [Bool.and_eq_true, Bool.and_eq_true, Bool.and_eq_true, bne_iff_ne, beq_iff_eq, beq_iff_eq, and_assoc, and_assoc]

theorem wakeTest_iff (s : State) : wakeTest s = true ↔ set8 s 14 = 0 ∨ sEff s ≠ 0 ∨ s.pub.phase ≠ .stopped := by
  unfold wakeTest
  rw [Bool.or_eq_true, Bool.or_eq_true, beq_iff_eq, bne_iff_ne, bne_iff_ne, or_assoc]

/-- The restore's timing at a budget period in RIDE or DARK (R148). -/
def restoreTimed (s : State) (vt : Nat) : Option Time :=
  if set16 s 232 ≤ vt then some (s.supply.restoreStart.getD s.partTime) else none

/-- The state after the senses and the restore's timing. -/
def supplyTimed (vt vs : Nat) (s : State) : State :=
  { s with supply := { s.supply with vt := vt, vs := vs, restoreStart := restoreTimed s vt } }

theorem timeRestore_sensed : timeRestore (supplySensed vt vs s) = supplyTimed vt vs s := by
  unfold timeRestore supplyTimed restoreTimed
  by_cases hg : set16 s 232 ≤ vt
  · rw [if_neg (by rw [Bool.not_eq_true', Bool.not_eq_false, trackGood_iff]; exact hg), if_pos hg]
    by_cases hn : s.supply.restoreStart = none
    · rw [if_pos (show (supplySensed vt vs s).supply.restoreStart.isNone = true from Option.isNone_iff_eq_none.2 hn), hn]
      rfl
    · have hkeeps : some (s.supply.restoreStart.getD s.partTime) = s.supply.restoreStart := by
        obtain ⟨r, hr⟩ := Option.ne_none_iff_exists'.1 hn
        rw [hr]
        rfl
      rw [if_neg (show ¬ (supplySensed vt vs s).supply.restoreStart.isNone = true from mt Option.isNone_iff_eq_none.1 hn),
        hkeeps]
      rfl
  · rw [if_pos (by rw [Bool.not_eq_true', Bool.eq_false_iff, ne_eq, trackGood_iff]; exact hg), if_neg hg]
    rfl

/-- The restore is complete: the track is good, and has been for 100 ms since the timing began (R148). -/
def Restored (s : State) (vt : Nat) : Prop :=
  set16 s 232 ≤ vt ∧ ∃ r, s.supply.restoreStart = some r ∧ reached s.partTime (r + 100) = true

theorem not_reached_later (t : Time) : reached t (t + 100) = false := by
  unfold reached
  rw [show t - (t + 100) = -100 by ring]
  decide

theorem restoreDone_timed : restoreDone (supplyTimed vt vs s) = true ↔ Restored s vt := by
  rw [restoreDone_iff]
  unfold supplyTimed restoreTimed Restored
  dsimp only
  by_cases hg : set16 s 232 ≤ vt
  · rw [if_pos hg, and_iff_right hg]
    cases s.supply.restoreStart with
    | some r => exact Iff.rfl
    | none =>
      refine iff_of_false ?_ nofun
      rintro ⟨r, hr, hreached⟩
      rw [← Option.some.inj hr, Option.getD_none, not_reached_later] at hreached
      cases hreached
  · rw [if_neg hg]
    exact iff_of_false nofun fun hc => hg hc.1

end Tests

/-! ### What a budget period comes to, by the state it finds -/

section Comes

variable {s : State} {vt vs : Nat}

/-- The track fails (R147, R150). -/
theorem budget_rides (hvt : vt ≤ 30000) (hvs : vs ≤ 20000) (h : s.supply.state = .track ∨ s.supply.state = .parked)
    (hbad : ¬ set16 s 232 ≤ vt) :
    let su : Supply := { s.supply with
      vt := vt, vs := vs, state := .ride, rideStart := some s.partTime, restoreStart := none }
    let motor := if s.supply.state = .track then checkAbandoned s else s.motor
    (RideAsks s vs s.supply.holdFlag (some s.partTime) →
      SupplyComes s (budgetPeriod vt vs s) { su with holdFlag := true } (supplyHeld s) s.faults motor) ∧
    (¬ RideAsks s vs s.supply.holdFlag (some s.partTime) →
      SupplyComes s (budgetPeriod vt vs s) su s.holds s.faults motor) := by
  intro su motor
  have hgood : ¬ trackGood (supplySensed vt vs s) = true := mt trackGood_iff.1 hbad
  have hdecides : decideSupply (supplySensed vt vs s) = changeSupply .ride (supplySensed vt vs s) := by
    have hstate : (supplySensed vt vs s).supply.state = s.supply.state := rfl
    unfold decideSupply
    rw [hstate]
    rcases h with h | h <;> rw [h]
    · exact if_pos (by rw [Bool.not_eq_true', Bool.eq_false_iff]; exact hgood)
    · exact if_pos (by rw [Bool.not_eq_true', Bool.eq_false_iff]; exact hgood)
  have hmotor : (if (supplySensed vt vs s).supply.state = .track then checkAbandoned (supplySensed vt vs s)
      else (supplySensed vt vs s).motor) = motor := rfl
  have hcomes := SupplyComes.of_sensed (s := s) (enters_ride (s := supplySensed vt vs s) h) rfl
  rw [hmotor] at hcomes
  obtain ⟨hasks, hrests⟩ := SupplyComes.held (su := su) hcomes rfl
  rw [budgetPeriod_eq hvt hvs, hdecides]
  exact ⟨fun ha => (hasks ha).published, fun ha => (hrests ha).published⟩

/-- A standing, idle locomotive is parked (R152). -/
theorem budget_parks (hvt : vt ≤ 30000) (hvs : vs ≤ 20000) (h : s.supply.state = .track) (hgood : set16 s 232 ≤ vt)
    (hpark : parkTest s = true) : SupplyComes s (budgetPeriod vt vs s)
      { s.supply with vt := vt, vs := vs, state := .parked } s.holds s.faults (checkAbandoned s) := by
  have hdecides : decideSupply (supplySensed vt vs s) = changeSupply .parked (supplySensed vt vs s) := by
    have hstate : (supplySensed vt vs s).supply.state = s.supply.state := rfl
    have htest : parkTest (supplySensed vt vs s) = parkTest s := rfl
    unfold decideSupply
    rw [hstate, h]
    dsimp only
    rw [trackGood_iff.2 hgood, Bool.not_true, if_neg Bool.false_ne_true, htest, if_pos hpark]
  rw [budgetPeriod_eq hvt hvs, hdecides]
  exact ((SupplyComes.of_sensed (enters_parked (s := supplySensed vt vs s) h) rfl).unheld nofun).published

/-- A parked part wakes (R152). -/
theorem budget_wakes (hvt : vt ≤ 30000) (hvs : vs ≤ 20000) (h : s.supply.state = .parked) (hgood : set16 s 232 ≤ vt)
    (hwake : wakeTest s = true) : SupplyComes s (budgetPeriod vt vs s)
      { s.supply with vt := vt, vs := vs, state := .track, lastActivity := s.partTime } s.holds s.faults s.motor := by
  have hdecides : decideSupply (supplySensed vt vs s) = changeSupply .track (supplySensed vt vs s) := by
    have hstate : (supplySensed vt vs s).supply.state = s.supply.state := rfl
    have htest : wakeTest (supplySensed vt vs s) = wakeTest s := rfl
    unfold decideSupply
    rw [hstate, h]
    dsimp only
    rw [trackGood_iff.2 hgood, Bool.not_true, if_neg Bool.false_ne_true, htest, if_pos hwake]
  rw [budgetPeriod_eq hvt hvs, hdecides]
  exact ((SupplyComes.of_sensed (enters_track_awake (s := supplySensed vt vs s) h) rfl).unheld nofun).published

/-- The state stands in TRACK and in PARKED (R147). -/
theorem budget_stands (hvt : vt ≤ 30000) (hvs : vs ≤ 20000) (hgood : set16 s 232 ≤ vt)
    (h : s.supply.state = .track ∧ parkTest s = false ∨ s.supply.state = .parked ∧ wakeTest s = false) :
    SupplyComes s (budgetPeriod vt vs s) { s.supply with vt := vt, vs := vs } s.holds s.faults s.motor := by
  have hne : s.supply.state ≠ .ride := by rcases h with ⟨h, _⟩ | ⟨h, _⟩ <;> rw [h] <;> nofun
  have hdecides : decideSupply (supplySensed vt vs s) = supplySensed vt vs s := by
    have hstate : (supplySensed vt vs s).supply.state = s.supply.state := rfl
    have hpark : parkTest (supplySensed vt vs s) = parkTest s := rfl
    have hwake : wakeTest (supplySensed vt vs s) = wakeTest s := rfl
    unfold decideSupply
    rw [hstate]
    rcases h with ⟨h, ht⟩ | ⟨h, ht⟩ <;> rw [h] <;> dsimp only
    · rw [trackGood_iff.2 hgood, Bool.not_true, if_neg Bool.false_ne_true, hpark, ht, if_neg Bool.false_ne_true]
    · rw [trackGood_iff.2 hgood, Bool.not_true, if_neg Bool.false_ne_true, hwake, ht, if_neg Bool.false_ne_true]
  have hcomes : SupplyComes s (supplySensed vt vs s) { s.supply with vt := vt, vs := vs } s.holds s.faults s.motor :=
    ⟨rfl, rfl, rfl, rfl, rfl⟩
  rw [budgetPeriod_eq hvt hvs, hdecides]
  exact (hcomes.unheld hne).published

/-- The restore completes (R148, R149). -/
theorem budget_restores (hvt : vt ≤ 30000) (hvs : vs ≤ 20000) (h : s.supply.state = .ride ∨ s.supply.state = .dark)
    (hdone : Restored s vt) : SupplyComes s (budgetPeriod vt vs s)
      { s.supply with
        vt := vt, vs := vs, state := .track, holdFlag := false, restoreStart := none, rideStart := none
        lastActivity := s.partTime }
      (s.holds.filter (fun h => h.source != .supply)) s.faults s.motor := by
  have hdecides : decideSupply (supplySensed vt vs s) = changeSupply .track (supplyTimed vt vs s) := by
    have hstate : (supplySensed vt vs s).supply.state = s.supply.state := rfl
    unfold decideSupply
    rw [hstate]
    rcases h with h | h <;> rw [h] <;> dsimp only <;> rw [timeRestore_sensed, if_pos (restoreDone_timed.2 hdone)]
  rw [budgetPeriod_eq hvt hvs, hdecides]
  exact ((SupplyComes.of_sensed (enters_track_restored (s := supplyTimed vt vs s) h) rfl).unheld nofun).published

/-- The store is spent (R151). -/
theorem budget_darkens (hvt : vt ≤ 30000) (hvs : vs ≤ 20000) (h : s.supply.state = .ride) (hdone : ¬ Restored s vt)
    (hlow : vs < set16 s 236) : SupplyComes s (budgetPeriod vt vs s)
      { s.supply with
        vt := vt, vs := vs, restoreStart := restoreTimed s vt, state := .dark, rideStart := none, holdFlag := true }
      (if s.supply.holdFlag = true then s.holds else supplyHeld s)
      (updateAt s.faults 6 (fun r => r.report false s.partTime))
      { s.motor with R := 0, rising := 0, falling := 0, Da := 0, I := 0 } := by
  have hdecides : decideSupply (supplySensed vt vs s) = changeSupply .dark (supplyTimed vt vs s) := by
    have hstate : (supplySensed vt vs s).supply.state = s.supply.state := rfl
    unfold decideSupply
    rw [hstate, h]
    dsimp only
    rw [timeRestore_sensed, if_neg (mt restoreDone_timed.1 hdone)]
    exact if_pos hlow
  rw [budgetPeriod_eq hvt hvs, hdecides]
  exact ((SupplyComes.of_sensed (enters_dark (s := supplyTimed vt vs s) h) rfl).unheld nofun).published

/-- The ride goes on (R148, R150). -/
theorem budget_ridesOn (hvt : vt ≤ 30000) (hvs : vs ≤ 20000) (h : s.supply.state = .ride) (hdone : ¬ Restored s vt)
    (hstore : set16 s 236 ≤ vs) :
    let su : Supply := { s.supply with vt := vt, vs := vs, restoreStart := restoreTimed s vt }
    (RideAsks s vs s.supply.holdFlag s.supply.rideStart →
      SupplyComes s (budgetPeriod vt vs s) { su with holdFlag := true } (supplyHeld s) s.faults s.motor) ∧
    (¬ RideAsks s vs s.supply.holdFlag s.supply.rideStart →
      SupplyComes s (budgetPeriod vt vs s) su s.holds s.faults s.motor) := by
  intro su
  have hdecides : decideSupply (supplySensed vt vs s) = supplyTimed vt vs s := by
    have hstate : (supplySensed vt vs s).supply.state = s.supply.state := rfl
    unfold decideSupply
    rw [hstate, h]
    dsimp only
    rw [timeRestore_sensed, if_neg (mt restoreDone_timed.1 hdone)]
    exact if_neg (Nat.not_lt.2 hstore)
  have hcomes : SupplyComes s (supplyTimed vt vs s) su s.holds s.faults s.motor := ⟨rfl, rfl, rfl, rfl, rfl⟩
  obtain ⟨hasks, hrests⟩ := hcomes.held h
  rw [budgetPeriod_eq hvt hvs, hdecides]
  exact ⟨fun ha => (hasks ha).published, fun ha => (hrests ha).published⟩

/-- DARK goes on (R148). -/
theorem budget_darkOn (hvt : vt ≤ 30000) (hvs : vs ≤ 20000) (h : s.supply.state = .dark) (hdone : ¬ Restored s vt) :
    SupplyComes s (budgetPeriod vt vs s) { s.supply with vt := vt, vs := vs, restoreStart := restoreTimed s vt } s.holds
      s.faults s.motor := by
  have hdecides : decideSupply (supplySensed vt vs s) = supplyTimed vt vs s := by
    have hstate : (supplySensed vt vs s).supply.state = s.supply.state := rfl
    unfold decideSupply
    rw [hstate, h]
    dsimp only
    rw [timeRestore_sensed, if_neg (mt restoreDone_timed.1 hdone)]
  have hcomes : SupplyComes s (supplyTimed vt vs s) { s.supply with
      vt := vt, vs := vs, restoreStart := restoreTimed s vt } s.holds s.faults s.motor := ⟨rfl, rfl, rfl, rfl, rfl⟩
  rw [budgetPeriod_eq hvt hvs, hdecides]
  exact (hcomes.unheld (by rw [h]; nofun)).published

end Comes

end Sys2Proof.Machine
end

section
/-! What a budget period decides and grants (R145, R147, R148, R150, R151, R153, R154); O48 and O49. -/

namespace Sys2Proof.Machine

/-! ### The grants (R153, R154) -/

/-- The grants `g` fit the state `t` that a budget period leaves, by the settings and demands of `s`. -/
def GrantsFit (s t : State) (vs : Nat) (g : Grants) : Prop :=
  let most := match t.supply.state with
    | .track | .parked => set16 s 238
    | .ride => set16 s 240
    | .dark => 0
  let dark : Prop := t.supply.state = .dark
  let ride : Prop := t.supply.state = .ride
  let light := s.lightDemand
  let sound := 300 * (if t.sound.mode = .normal ∧ asked s 45 = false then set8 s 448 else 0) / 255
  let heater := 10 * set8 s 228 * t.smoke.demand / 1023
  let charging := if vs < set16 s 245 then set16 s 243 else 0
  let left1 := most - s.pub.C - g.lights
  let left2 := left1 - g.sound
  let left3 := left2 - g.heater
  let dim := if light ≤ most - s.pub.C then 256 else (most - s.pub.C) * 256 / light
  let volume := if sound ≤ left1 then 255 else min 255 (left1 * 255 / 300)
  g.lights + g.sound + g.heater + g.charging ≤ most - s.pub.C ∧ g.charge = g.charging ∧
  (dark → g = { lights := 0, sound := 0, heater := 0, charging := 0, dim := 0, volumeCap := 0, heaterCap := 0, charge := 0 }) ∧
  (¬ dark → g.lights = min light (most - s.pub.C) ∧ g.sound = min sound left1 ∧
    g.dim = (if t.supply.state = .ride then min dim 128 else dim) ∧
    g.volumeCap = if t.supply.state = .ride then min volume 128 else volume) ∧
  (ride → g.heater = 0 ∧ g.charging = 0 ∧ g.heaterCap = 0) ∧
  (¬ dark → ¬ ride → g.heater = min heater left2 ∧ g.charging = min charging left3 ∧
    g.heaterCap = if heater ≤ left2 then 1023 else min 1023 (left2 * 1023 / (10 * set8 s 228)))

theorem computeGrants_fit (t : State) : GrantsFit t t t.supply.vs (computeGrants t) := by
  have hsound : soundClaim t =
      300 * (if t.sound.mode = .normal ∧ asked t 45 = false then set8 t 448 else 0) / 255 := by
    unfold soundClaim volumeAsked
    rw [if_congr (by rw [Bool.and_eq_true, decide_eq_true_eq, Bool.not_eq_true']) rfl rfl]
    rfl
  unfold GrantsFit computeGrants available budget heaterClaim chargeClaim
  rw [hsound]
  cases hs : t.supply.state with
  | dark => exact ⟨Nat.zero_le _, rfl, fun _ => rfl, fun h => absurd rfl h, nofun, fun h => absurd rfl h⟩
  | ride =>
    refine ⟨?_, rfl, nofun, fun _ => ⟨rfl, rfl, rfl, rfl⟩, fun _ => ⟨rfl, rfl, rfl⟩, fun _ h => absurd rfl h⟩
    dsimp only
    omega
  | track =>
    refine ⟨?_, rfl, nofun, fun _ => ⟨rfl, rfl, rfl, rfl⟩, nofun, fun _ _ => ⟨rfl, rfl, rfl⟩⟩
    dsimp only
    omega
  | parked =>
    refine ⟨?_, rfl, nofun, fun _ => ⟨rfl, rfl, rfl, rfl⟩, nofun, fun _ _ => ⟨rfl, rfl, rfl⟩⟩
    dsimp only
    omega

theorem publishGrants_grants (s : State) : (publishGrants s).supply.grants = computeGrants (publishGrants s) := rfl

/-- The grants of a budget period. -/
theorem SupplyComes.grants {s : State} {vt vs : Nat} {su : Supply} {holds : List Hold} {faults : List FaultRecord}
    {motor : Motor} (h : SupplyComes s (budgetPeriod vt vs s) su holds faults motor) (hvs : su.vs = vs) :
    GrantsFit s (budgetPeriod vt vs s) vs (budgetPeriod vt vs s).supply.grants := by
  have hgrants : (budgetPeriod vt vs s).supply.grants = computeGrants (budgetPeriod vt vs s) :=
    publishGrants_grants _
  have hfit := computeGrants_fit (budgetPeriod vt vs s)
  rw [← hgrants] at hfit
  generalize budgetPeriod vt vs s = t at h hfit
  have hvs' : t.supply.vs = vs := (congrArg Supply.vs h.supply :).trans hvs
  have hset : t.settings = s.settings := (congrArg State.settings h.frame :)
  have hpub : t.pub = s.pub := (congrArg State.pub h.frame :)
  have hlight : t.lightDemand = s.lightDemand := (congrArg State.lightDemand h.frame :)
  have hasked : asked t 45 = asked s 45 := by
    rw [h.frame]
    rfl
  have hset8 (n : Nat) : set8 t n = set8 s n := by
    unfold set8
    rw [hset]
  have hset16 (n : Nat) : set16 t n = set16 s n := by
    unfold set16
    rw [hset]
  unfold GrantsFit at *
  simp only [hset8, hset16, hpub, hlight, hasked, hvs'] at hfit
  exact hfit

theorem budgetPeriod_duty (vt vs : Nat) (s : State) : (budgetPeriod vt vs s).smoke.duty =
    min (budgetPeriod vt vs s).smoke.demand (budgetPeriod vt vs s).supply.grants.heaterCap := rfl

/-- A budget period's decisions, with what `timed` says of the restore. -/
def BudgetDecides (s t : State) (vt vs : Nat) : Prop :=
  let good : Prop := set16 s 232 ≤ vt
  let restored : Prop := Restored s vt
  let parks : Prop := parkTest s = true
  let wakes : Prop := wakeTest s = true
  let started := if s.supply.state = .ride then s.supply.rideStart else some s.partTime
  let asksHold : Prop := RideAsks s vs s.supply.holdFlag started
  t.supply.vt = vt ∧ t.supply.vs = vs ∧
  (s.supply.state = .track → (¬ good → t.supply.state = .ride ∧ t.supply.rideStart = some s.partTime) ∧
    (good → parks → t.supply.state = .parked) ∧ (good → ¬ parks → t.supply.state = .track)) ∧
  (s.supply.state = .parked → (¬ good → t.supply.state = .ride ∧ t.supply.rideStart = some s.partTime) ∧
    (good → wakes → t.supply.state = .track) ∧ (good → ¬ wakes → t.supply.state = .parked)) ∧
  (s.supply.state = .ride → (restored → t.supply.state = .track) ∧
    (¬ restored → vs < set16 s 236 → t.supply.state = .dark) ∧
    (¬ restored → set16 s 236 ≤ vs → t.supply.state = .ride ∧ t.supply.rideStart = s.supply.rideStart)) ∧
  (s.supply.state = .dark → (restored → t.supply.state = .track) ∧ (¬ restored → t.supply.state = .dark)) ∧
  (s.supply.state = .ride ∨ s.supply.state = .dark → ¬ restored → t.supply.restoreStart = restoreTimed s vt) ∧
  (t.supply.state = .ride →
    (asksHold → t.supply.holdFlag = true ∧ t.holds = supplyHeld s) ∧
    (¬ asksHold → t.supply.holdFlag = s.supply.holdFlag ∧ t.holds = s.holds)) ∧
  (t.supply.state = .dark → s.supply.state ≠ .dark → t.supply.holdFlag = true ∧ t.supply.rideStart = none ∧
    (s.supply.holdFlag = true → t.holds = s.holds) ∧ (s.supply.holdFlag = false → t.holds = supplyHeld s) ∧
    t.motor = { s.motor with R := 0, rising := 0, falling := 0, Da := 0, I := 0 }) ∧
  (s.supply.state = .ride ∨ s.supply.state = .dark → restored → t.supply.holdFlag = false ∧
    t.holds = s.holds.filter (fun h => h.source != .supply) ∧ t.supply.restoreStart = none ∧
    t.supply.rideStart = none ∧ t.supply.lastActivity = s.partTime) ∧
  (s.supply.state = .track ∨ s.supply.state = .parked → t.supply.state ≠ .ride →
    t.supply.holdFlag = s.supply.holdFlag ∧ t.holds = s.holds ∧ t.supply.lastActivity =
      if s.supply.state = .parked ∧ t.supply.state = .track then s.partTime else s.supply.lastActivity) ∧
  t.faults = (if t.supply.state = .dark ∧ s.supply.state ≠ .dark
    then updateAt s.faults 6 (fun r => r.report false s.partTime) else s.faults) ∧
  (t.supply.state = .dark → s.supply.state = .dark → t.motor = s.motor ∧ t.holds = s.holds) ∧
  (t.supply.state ≠ .dark →
    t.motor = if s.supply.state = .track ∧ t.supply.state ≠ .track then checkAbandoned s else s.motor)

section Decides

variable {s t : State} {vt vs : Nat}

theorem decides_parked (hs : s.supply.state = .track) (hg : set16 s 232 ≤ vt) (hp : parkTest s = true)
    (h : SupplyComes s t { s.supply with vt := vt, vs := vs, state := .parked } s.holds s.faults (checkAbandoned s)) :
    BudgetDecides s t vt vs := by
  obtain ⟨hsu, hho, hfa, hmo, -⟩ := h
  generalize t.supply.grants = g at hsu
  simp [BudgetDecides, hsu, hho, hfa, hmo, hs, hg, hp]

theorem decides_awake (hs : s.supply.state = .parked) (hg : set16 s 232 ≤ vt) (hw : wakeTest s = true)
    (h : SupplyComes s t { s.supply with vt := vt, vs := vs, state := .track, lastActivity := s.partTime } s.holds s.faults
      s.motor) : BudgetDecides s t vt vs := by
  obtain ⟨hsu, hho, hfa, hmo, -⟩ := h
  generalize t.supply.grants = g at hsu
  simp [BudgetDecides, hsu, hho, hfa, hmo, hs, hg, hw]

theorem decides_standing (hg : set16 s 232 ≤ vt)
    (hs : s.supply.state = .track ∧ parkTest s = false ∨ s.supply.state = .parked ∧ wakeTest s = false)
    (h : SupplyComes s t { s.supply with vt := vt, vs := vs } s.holds s.faults s.motor) : BudgetDecides s t vt vs := by
  obtain ⟨hsu, hho, hfa, hmo, -⟩ := h
  generalize t.supply.grants = g at hsu
  rcases hs with ⟨hs, htest⟩ | ⟨hs, htest⟩
  · simp [BudgetDecides, hsu, hho, hfa, hmo, hs, hg, htest]
  · simp [BudgetDecides, hsu, hho, hfa, hmo, hs, hg, htest]

theorem decides_riding (hs : s.supply.state = .track ∨ s.supply.state = .parked) (hg : ¬ set16 s 232 ≤ vt) {asks : Prop}
    [Decidable asks] (hasks : asks ↔ RideAsks s vs s.supply.holdFlag (some s.partTime))
    (h : SupplyComes s t { s.supply with
        vt := vt, vs := vs, state := .ride, rideStart := some s.partTime, restoreStart := none
        holdFlag := if asks then true else s.supply.holdFlag }
      (if asks then supplyHeld s else s.holds) s.faults (if s.supply.state = .track then checkAbandoned s else s.motor)) :
    BudgetDecides s t vt vs := by
  obtain ⟨hsu, hho, hfa, hmo, -⟩ := h
  generalize t.supply.grants = g at hsu
  rcases hs with hs | hs <;> by_cases ha : asks
  · simp [BudgetDecides, hsu, hho, hfa, hmo, hs, hg, ha, ← hasks]
  · simp [BudgetDecides, hsu, hho, hfa, hmo, hs, hg, ha, ← hasks]
  · simp [BudgetDecides, hsu, hho, hfa, hmo, hs, hg, ha, ← hasks]
  · simp [BudgetDecides, hsu, hho, hfa, hmo, hs, hg, ha, ← hasks]

theorem decides_restored (hs : s.supply.state = .ride ∨ s.supply.state = .dark) (hr : Restored s vt)
    (h : SupplyComes s t { s.supply with
        vt := vt, vs := vs, state := .track, holdFlag := false, restoreStart := none, rideStart := none
        lastActivity := s.partTime }
      (s.holds.filter (fun h => h.source != .supply)) s.faults s.motor) : BudgetDecides s t vt vs := by
  obtain ⟨hsu, hho, hfa, hmo, -⟩ := h
  generalize t.supply.grants = g at hsu
  rcases hs with hs | hs
  · simp [BudgetDecides, hsu, hho, hfa, hmo, hs, hr]
  · simp [BudgetDecides, hsu, hho, hfa, hmo, hs, hr]

theorem decides_dark (hs : s.supply.state = .ride) (hr : ¬ Restored s vt) (hlow : vs < set16 s 236)
    (h : SupplyComes s t { s.supply with
        vt := vt, vs := vs, restoreStart := restoreTimed s vt, state := .dark, rideStart := none, holdFlag := true }
      (if s.supply.holdFlag = true then s.holds else supplyHeld s)
      (updateAt s.faults 6 (fun r => r.report false s.partTime))
      { s.motor with R := 0, rising := 0, falling := 0, Da := 0, I := 0 }) : BudgetDecides s t vt vs := by
  obtain ⟨hsu, hho, hfa, hmo, -⟩ := h
  generalize t.supply.grants = g at hsu
  have hstore : ¬ set16 s 236 ≤ vs := Nat.not_le.2 hlow
  cases hflag : s.supply.holdFlag with
  | true => simp [BudgetDecides, hsu, hho, hfa, hmo, hs, hr, hflag, hstore]
  | false => simp [BudgetDecides, hsu, hho, hfa, hmo, hs, hr, hflag, hstore]

theorem decides_ridingOn (hs : s.supply.state = .ride) (hr : ¬ Restored s vt) (hstore : set16 s 236 ≤ vs) {asks : Prop}
    [Decidable asks] (hasks : asks ↔ RideAsks s vs s.supply.holdFlag s.supply.rideStart)
    (h : SupplyComes s t { s.supply with
        vt := vt, vs := vs, restoreStart := restoreTimed s vt, holdFlag := if asks then true else s.supply.holdFlag }
      (if asks then supplyHeld s else s.holds) s.faults s.motor) : BudgetDecides s t vt vs := by
  obtain ⟨hsu, hho, hfa, hmo, -⟩ := h
  generalize t.supply.grants = g at hsu
  have hlow : ¬ vs < set16 s 236 := Nat.not_lt.2 hstore
  by_cases ha : asks
  · simp [BudgetDecides, hsu, hho, hfa, hmo, hs, hr, hlow, ha, ← hasks]
  · simp [BudgetDecides, hsu, hho, hfa, hmo, hs, hr, hlow, ha, ← hasks]

theorem decides_darkOn (hs : s.supply.state = .dark) (hr : ¬ Restored s vt)
    (h : SupplyComes s t { s.supply with vt := vt, vs := vs, restoreStart := restoreTimed s vt } s.holds s.faults s.motor) :
    BudgetDecides s t vt vs := by
  obtain ⟨hsu, hho, hfa, hmo, -⟩ := h
  generalize t.supply.grants = g at hsu
  simp [BudgetDecides, hsu, hho, hfa, hmo, hs, hr]

end Decides

/-- What every budget period does: its decisions, its grants, and what it leaves alone. -/
theorem budgetPeriod_decides {s : State} {vt vs : Nat} (hvt : vt ≤ 30000) (hvs : vs ≤ 20000) :
    BudgetDecides s (budgetPeriod vt vs s) vt vs ∧
      GrantsFit s (budgetPeriod vt vs s) vs (budgetPeriod vt vs s).supply.grants ∧ LoadsFrame s (budgetPeriod vt vs s) := by
  classical
  have hholds {started : Option Time} {su : Supply} {motor : Motor} (h : (RideAsks s vs s.supply.holdFlag started →
          SupplyComes s (budgetPeriod vt vs s) { su with holdFlag := true } (supplyHeld s) s.faults motor) ∧
        (¬ RideAsks s vs s.supply.holdFlag started → SupplyComes s (budgetPeriod vt vs s) su s.holds s.faults motor))
      (hflag : su.holdFlag = s.supply.holdFlag) : SupplyComes s (budgetPeriod vt vs s)
        { su with holdFlag := if RideAsks s vs s.supply.holdFlag started then true else s.supply.holdFlag }
        (if RideAsks s vs s.supply.holdFlag started then supplyHeld s else s.holds) s.faults motor := by
    by_cases ha : RideAsks s vs s.supply.holdFlag started
    · rw [if_pos ha, if_pos ha]
      exact h.1 ha
    · rw [if_neg ha, if_neg ha, ← hflag]
      exact h.2 ha
  have hrides (h : s.supply.state = .track ∨ s.supply.state = .parked) (hg : ¬ set16 s 232 ≤ vt) :=
    have hcomes := hholds (budget_rides hvt hvs h hg) rfl
    And.intro (decides_riding h hg Iff.rfl hcomes) (And.intro (hcomes.grants rfl) hcomes.frame)
  have hrestores (h : s.supply.state = .ride ∨ s.supply.state = .dark) (hr : Restored s vt) :=
    have hcomes := budget_restores hvt hvs h hr
    And.intro (decides_restored h hr hcomes) (And.intro (hcomes.grants rfl) hcomes.frame)
  have hstands (h : s.supply.state = .track ∧ parkTest s = false ∨ s.supply.state = .parked ∧ wakeTest s = false)
      (hg : set16 s 232 ≤ vt) :=
    have hcomes := budget_stands hvt hvs hg h
    And.intro (decides_standing hg h hcomes) (And.intro (hcomes.grants rfl) hcomes.frame)
  cases hs : s.supply.state with
  | track =>
    by_cases hg : set16 s 232 ≤ vt
    · cases hp : parkTest s with
      | true =>
        have hcomes := budget_parks hvt hvs hs hg hp
        exact ⟨decides_parked hs hg hp hcomes, hcomes.grants rfl, hcomes.frame⟩
      | false => exact hstands (.inl ⟨hs, hp⟩) hg
    · exact hrides (.inl hs) hg
  | parked =>
    by_cases hg : set16 s 232 ≤ vt
    · cases hw : wakeTest s with
      | true =>
        have hcomes := budget_wakes hvt hvs hs hg hw
        exact ⟨decides_awake hs hg hw hcomes, hcomes.grants rfl, hcomes.frame⟩
      | false => exact hstands (.inr ⟨hs, hw⟩) hg
    · exact hrides (.inr hs) hg
  | ride =>
    by_cases hr : Restored s vt
    · exact hrestores (.inl hs) hr
    · by_cases hlow : vs < set16 s 236
      · have hcomes := budget_darkens hvt hvs hs hr hlow
        exact ⟨decides_dark hs hr hlow hcomes, hcomes.grants rfl, hcomes.frame⟩
      · have hcomes := hholds (budget_ridesOn hvt hvs hs hr (Nat.not_lt.1 hlow)) rfl
        exact ⟨decides_ridingOn hs hr (Nat.not_lt.1 hlow) Iff.rfl hcomes, hcomes.grants rfl, hcomes.frame⟩
  | dark =>
    by_cases hr : Restored s vt
    · exact hrestores (.inr hs) hr
    · have hcomes := budget_darkOn hvt hvs hs hr
      exact ⟨decides_darkOn hs hr hcomes, hcomes.grants rfl, hcomes.frame⟩

/-- Settles O48. -/
theorem budgetPeriodDecidesAndGrants : Obligations.BudgetPeriodDecidesAndGrants := by
  unfold Obligations.BudgetPeriodDecidesAndGrants
  intro s vt vs hrun hvt hvs good restored parks wakes started asksHold held timed
  obtain ⟨hdecides, hgrants, hframe⟩ := budgetPeriod_decides (s := s) hvt hvs
  have hduty := budgetPeriod_duty vt vs s
  refine ⟨_, exec_budgetPeriod hrun, ?_⟩
  generalize budgetPeriod vt vs s = t at *
  have htimed : timed = some (s.supply.restoreStart.getD s.partTime) := by
    show (match s.supply.restoreStart with | some r => some r | none => some s.partTime) = _
    cases s.supply.restoreStart <;> rfl
  unfold BudgetDecides at hdecides
  rw [parkTest_iff, wakeTest_iff] at hdecides
  obtain ⟨hvt', hvs', htrack, hparked, hride, hdark, htiming, hheld, hentry, hrestored, hkeeps, hfaults, hdarkOn, hmotor⟩ :=
    hdecides
  refine ⟨hvt', hvs', htrack, hparked, hride, hdark, fun h hr => ⟨fun hg => ?_, fun hg => ?_⟩, hheld, hentry, hrestored,
    hkeeps, hfaults, hdarkOn, fun hn => (hmotor hn).trans ?_, ?_, hframe⟩
  · rw [htiming h hr, restoreTimed, if_pos hg, htimed]
  · rw [htiming h hr, restoreTimed, if_neg hg]
  · by_cases hleaves : s.supply.state = .track ∧ t.supply.state ≠ .track
    · rw [if_pos hleaves, checkAbandoned]
      exact if_congr ⟨fun hc => ⟨hleaves.1, hleaves.2, hc⟩, fun hc => hc.2.2⟩ rfl rfl
    · rw [if_neg hleaves, if_neg fun hc => hleaves ⟨hc.1, hc.2.1⟩]
  · unfold GrantsFit at hgrants
    obtain ⟨hsum, hcharge, hg1, hg2, hg3, hg4⟩ := hgrants
    exact ⟨hsum, hcharge, hg1, hg2, hg3, hg4, hduty⟩

/-! ### The rows named by their outcome (R148, R150, R152) -/

section Outcomes

variable {s : State} {vt vs : Nat}

theorem exec_rideLimit (s : State) (vt vs : Nat) : exec (.rideLimit vt vs) s = .next
    (if s.phase = .running ∧ s.supply.holdFlag = false ∧ (budgetPeriod vt vs s).supply.holdFlag = true ∧
        (budgetPeriod vt vs s).supply.state = .ride ∧ rideLimitReached (budgetPeriod vt vs s) = true
      then budgetPeriod vt vs s else s) := rfl

theorem exec_restore (s : State) (vt vs : Nat) : exec (.restore vt vs) s = .next
    (if s.phase = .running ∧ (s.supply.state = .ride ∨ s.supply.state = .dark) ∧
        (budgetPeriod vt vs s).supply.state = .track then budgetPeriod vt vs s else s) := rfl

theorem exec_park (s : State) (vt vs : Nat) : exec (.park vt vs) s = .next
    (if s.phase = .running ∧ s.supply.state = .track ∧ (budgetPeriod vt vs s).supply.state = .parked
      then budgetPeriod vt vs s else s) := rfl

/-- Readings beyond the senses' ranges count as their bounds (log 40). -/
theorem budgetPeriod_frame (s : State) (vt vs : Nat) : LoadsFrame s (budgetPeriod vt vs s) := by
  have hsenses : budgetPeriod vt vs s = budgetPeriod (min 30000 vt) (min 20000 vs) s := by
    unfold budgetPeriod senseSupply
    rw [Nat.min_eq_right (Nat.min_le_left 30000 vt), Nat.min_eq_right (Nat.min_le_left 20000 vs)]
  rw [hsenses]
  exact (budgetPeriod_decides (Nat.min_le_left _ _) (Nat.min_le_left _ _)).2.2

theorem rideLimitReached_of_frame {t : State} (h : LoadsFrame s t) : rideLimitReached t = true ↔
    ∃ r, t.supply.rideStart = some r ∧ 0 < set8 s 242 ∧
      reached s.partTime (r + BitVec.ofNat 32 (set8 s 242 * 100)) = true := by
  have hset : t.settings = s.settings := (congrArg State.settings h :)
  have htime : t.partTime = s.partTime := (congrArg State.partTime h :)
  rw [rideLimitReached_iff]
  unfold set8
  rw [hset, htime]

end Outcomes

theorem activity_frame_parked {s : State} (h : s.supply.state = .parked) : activity s = { s with
    supply := { s.supply with state := .track, lastActivity := s.partTime }
    sound := (activity s).sound, port := (activity s).port, smoke := (activity s).smoke
    freeCount := (activity s).freeCount } := by
  rw [activity_parked h]
  generalize hq : ({ s with supply := { s.supply with state := .track, lastActivity := s.partTime } } : State) = q
  have hsmoke := smokeDecide_frame q
  have hsound := SoundFrame.soundSupplyChange (smokeDecide q)
  obtain ⟨so, po, hsound⟩ := SoundFrame.exists_eq hsound
  rw [hsound]
  generalize smokeDecide q = u at *
  rw [hsmoke, ← hq]

/-- Settles O49. -/
theorem activityAndSupplyOutcomes : Obligations.ActivityAndSupplyOutcomes := by
  unfold Obligations.ActivityAndSupplyOutcomes
  refine ⟨fun s => ⟨activity_awake, activity_frame_parked⟩, fun s vt vs hrun hvt hvs => ⟨?rideLimit, ?restore, ?park⟩,
    fun s t vt vs hrun ht => ?undue⟩
  case rideLimit =>
    intro r hs hflag hstore hnot hstarted hset hreached
    have hr : ¬ Restored s vt := fun ⟨hg, q, hq, hdone⟩ => Bool.false_ne_true ((hnot hg q hq).symm.trans hdone)
    have hlimit : ∃ q, s.supply.rideStart = some q ∧ 0 < set8 s 242 ∧
        reached s.partTime (q + BitVec.ofNat 32 (set8 s 242 * 100)) = true := ⟨r, hstarted, hset, hreached⟩
    obtain ⟨hsu, hho, -, hmo, hfr⟩ := (budget_ridesOn hvt hvs hs hr hstore).1 ⟨hflag, .inr hlimit⟩
    rw [exec_rideLimit]
    generalize budgetPeriod vt vs s = t at *
    have hnew : t.supply.state = .ride := (congrArg Supply.state hsu :).trans hs
    have hheld : t.supply.holdFlag = true := (congrArg Supply.holdFlag hsu :)
    have hstart : t.supply.rideStart = s.supply.rideStart := (congrArg Supply.rideStart hsu :)
    have hdue : rideLimitReached t = true := (rideLimitReached_of_frame hfr).2 (hstart.symm ▸ hlimit)
    exact ⟨t, by rw [if_pos ⟨hrun, hflag, hheld, hnew, hdue⟩], hnew, hheld, hho, hmo⟩
  case restore =>
    intro r hs hgood hstarted hreached
    obtain ⟨hsu, hho, -, hmo, -⟩ := budget_restores hvt hvs hs ⟨hgood, r, hstarted, hreached⟩
    rw [exec_restore]
    generalize budgetPeriod vt vs s = t at *
    have hnew : t.supply.state = .track := (congrArg Supply.state hsu :)
    refine ⟨t, by rw [if_pos ⟨hrun, hs, hnew⟩], hnew, ?_, ?_, ?_, ?_, hho, hmo⟩
    · rw [hsu]
    · rw [hsu]
    · rw [hsu]
    · rw [hsu]
  case park =>
    intro hs hgood hset hphase heff hreached
    obtain ⟨hsu, hho, -, -, hfr⟩ := budget_parks hvt hvs hs hgood ((parkTest_iff s).2 ⟨hset, hphase, heff, hreached⟩)
    rw [exec_park]
    generalize budgetPeriod vt vs s = t at *
    have hnew : t.supply.state = .parked := (congrArg Supply.state hsu :)
    refine ⟨t, by rw [if_pos ⟨hrun, hs, hnew⟩], hnew, ?_, hho, (congrArg State.demand hfr :)⟩
    rw [hsu]
  case undue =>
    obtain rfl : budgetPeriod vt vs s = t := Host.Outcome.next.inj ((exec_budgetPeriod hrun).symm.trans ht)
    have hframe := budgetPeriod_frame s vt vs
    rw [exec_park, exec_restore, exec_rideLimit]
    generalize budgetPeriod vt vs s = t at *
    refine ⟨fun h => ?_, fun h => ?_, fun h => ?_⟩
    · rw [if_neg fun hc => h.elim (fun hn => hn hc.2.1) (fun hn => hn hc.2.2)]
    · refine congrArg _ (if_neg fun ⟨_, hs, hnew⟩ => ?_)
      rcases h with h | h | h
      · rcases hs with hs | hs <;> cases h.symm.trans hs
      · rcases hs with hs | hs <;> cases h.symm.trans hs
      · exact h hnew
    · refine congrArg _ (if_neg fun ⟨_, hflag, _, hnew, hdue⟩ => ?_)
      obtain ⟨r, hr, hset, hreached⟩ := (rideLimitReached_of_frame hframe).1 hdue
      rcases h with h | h | h | h
      · cases h.symm.trans hflag
      · exact h hnew
      · omega
      · exact Bool.false_ne_true ((h r hr).symm.trans hreached)

end Sys2Proof.Machine
end

section
/-! The sampled envelope line: what makes a run longer, what ends it, and the closing quiet of a burst (R156, R157);
O50. -/

namespace Sys2Proof.Machine

/-- The line is sampled in the running phase, by each of the four rows alike (log 10). -/
theorem exec_runFinished {s : State} (h : s.phase = .running) (line : List Level) :
    exec (.runFinished line) s = .next (sampleEighths line s) := congrArg Host.Outcome.next (if_pos h)

theorem exec_burstEnd (line : List Level) (s : State) : exec (.burstEnd line) s = exec (.runFinished line) s := rfl

theorem exec_burstBegin (line : List Level) (s : State) : exec (.burstBegin line) s = exec (.runFinished line) s := rfl

theorem exec_captureQuiet (line : List Level) (s : State) : exec (.captureQuiet line) s = exec (.runFinished line) s := rfl

/-- The Beacon Receiver never touches the start-up phase. -/
theorem sampleEighths_running {s : State} (h : s.phase = .running) (line : List Level) :
    (sampleEighths line s).phase = .running := (DeskStep.coreLaws.lineLaws.sampleEighths line s h).2

theorem exec_runFinished_append {s t : State} {xs : List Level} (h : exec (.runFinished xs) s = .next t)
    (ys : List Level) : exec (.runFinished (xs ++ ys)) s = exec (.runFinished ys) t := by
  by_cases hp : s.phase = .running
  · rw [exec_runFinished hp] at h
    obtain rfl := Host.Outcome.next.inj h
    rw [exec_runFinished hp, exec_runFinished (sampleEighths_running hp xs), sampleEighths_append]
  · have hstill (zs : List Level) : exec (.runFinished zs) s = .next s := congrArg Host.Outcome.next (if_neg hp)
    obtain rfl := Host.Outcome.next.inj ((hstill xs).symm.trans h)
    rw [hstill, hstill]

/-! ### A run that goes on (R156) -/

/-- A burst is in progress or closing. -/
def InBurst (s : State) : Prop := s.beacon.state = .capture ∨ s.beacon.state = .learnCapture

/-- A run that is `k` eighths longer brings nothing about: no burst is in progress, or a carrier is held past the end of
one, or the sample limit is not reached. -/
def GoesOn (s : State) (k : Nat) : Prop :=
  ¬ InBurst s ∨ s.beacon.closed = true ∧ s.beacon.runLevel = .high ∨ min 65535 (s.beacon.runLen + k) < set16 s 707 * 8

/-- The state with the run in progress `k` eighths longer. -/
def grown (k : Nat) (s : State) : State :=
  { s with beacon := { s.beacon with runLen := min 65535 (s.beacon.runLen + k) } }

/-- The state with one eighth of the other level waiting. -/
def unsettledRun (s : State) : State := { s with beacon := { s.beacon with unsettled := true } }

theorem capturing_iff (s : State) : capturing s = true ↔ InBurst s := by simp [capturing, InBurst]

theorem limitReached_iff (s : State) : limitReached s = true ↔ set16 s 707 * 8 ≤ s.beacon.runLen := decide_eq_true_iff

theorem GoesOn.shorter {s : State} {k j : Nat} (h : GoesOn s k) (hj : j ≤ k) : GoesOn s j :=
  h.imp_right (Or.imp_right fun h => by omega)

theorem judgeRun_grown {s : State} {k : Nat} (h : GoesOn s k) : judgeRun (grown k s) = grown k s := by
  rcases h with h | ⟨hclosed, hhigh⟩ | h
  · exact judgeRun_quiet (.inl (Bool.eq_false_iff.2 fun hc => h ((capturing_iff _).1 hc)))
  · have hlevel : (grown k s).beacon.runLevel = .high := hhigh
    refine (if_pos hclosed).trans (if_neg ?_)
    simp [hlevel]
  · refine judgeRun_quiet (.inr (Bool.eq_false_iff.2 fun hc => ?_))
    have hreached : set16 s 707 * 8 ≤ min 65535 (s.beacon.runLen + k) := (limitReached_iff _).1 hc
    omega

/-- Sampling makes a settled run longer by the eighths of its own level. -/
theorem advanceRun_grown {s : State} (hu : s.beacon.unsettled = false) (k j : Nat) :
    advanceRun j (grown k s) = grown (k + j) s := by
  have hlen : min 65535 (min 65535 (s.beacon.runLen + k) + j) = min 65535 (s.beacon.runLen + (k + j)) := by omega
  unfold advanceRun grown
  dsimp only
  rw [hlen, hu]

theorem sampleLine_grown {s : State} (hu : s.beacon.unsettled = false) (k : Nat) :
    sampleLine (grown k s) s.beacon.runLevel = judgeRun (grown (k + 1) s) := by
  have hsettled : (grown k s).beacon.unsettled = false := hu
  refine (sampleLine_same (s := grown k s) rfl).trans ?_
  rw [hsettled, if_neg Bool.false_ne_true, advanceRun_grown hu]

theorem grown_zero {s : State} (h : s.beacon.runLen ≤ 65535) : grown 0 s = s := by
  unfold grown
  rw [Nat.add_zero, Nat.min_eq_right h]

theorem sampleEighths_goesOn {s : State} (hu : s.beacon.unsettled = false) (hlen : s.beacon.runLen ≤ 65535) :
    ∀ {n : Nat}, GoesOn s n → sampleEighths (List.replicate n s.beacon.runLevel) s = grown n s
  | 0, _ => (grown_zero hlen).symm
  | n + 1, h => by
    rw [List.replicate_succ', sampleEighths_append, sampleEighths_goesOn hu hlen (h.shorter (Nat.le_succ n)),
      sampleEighths_cons, sampleLine_grown hu, judgeRun_grown h]
    rfl

theorem otherLevel_ne (l : Level) : otherLevel l ≠ l := by cases l <;> decide

/-- A first eighth of the other level waits. -/
theorem sampleLine_other {s : State} (hu : s.beacon.unsettled = false) (k : Nat) :
    sampleLine (grown k s) (otherLevel s.beacon.runLevel) = unsettledRun (grown k s) :=
  sampleLine_waits (s := grown k s) (otherLevel_ne _) hu

/-- A single eighth of the other level is absorbed in the run. -/
theorem sampleEighths_absorbs {s : State} (hu : s.beacon.unsettled = false) (hlen : s.beacon.runLen ≤ 65535) {n : Nat}
    (h : GoesOn s (n + 2)) :
    sampleEighths (List.replicate n s.beacon.runLevel ++ [otherLevel s.beacon.runLevel, s.beacon.runLevel]) s =
      grown (n + 2) s := by
  have hlong : advanceRun 2 (unsettledRun (grown n s)) = grown (n + 2) s := advanceRun_grown hu n 2
  rw [sampleEighths_append, sampleEighths_goesOn hu hlen (h.shorter (Nat.le_add_right n 2)), sampleEighths_cons,
    sampleLine_other hu, sampleEighths_cons]
  refine (sampleLine_same (s := unsettledRun (grown n s)) rfl).trans ?_
  exact (congrArg judgeRun hlong).trans (judgeRun_grown h)

/-- Two eighths of the other level end the run. -/
theorem sampleEighths_ends {s : State} (hu : s.beacon.unsettled = false) (hlen : s.beacon.runLen ≤ 65535) {n : Nat}
    (h : GoesOn s n) :
    sampleEighths (List.replicate n s.beacon.runLevel ++
      [otherLevel s.beacon.runLevel, otherLevel s.beacon.runLevel]) s = finishRun (unsettledRun (grown n s)) := by
  rw [sampleEighths_append, sampleEighths_goesOn hu hlen h, sampleEighths_cons, sampleLine_other hu, sampleEighths_cons]
  exact sampleLine_ends (s := unsettledRun (grown n s)) (otherLevel_ne _) rfl

/-! ### A run that has ended (R156, R157) -/

/-- The state with a run of the other level begun at a change that has lasted two eighths. -/
def levelTurned (s : State) : State :=
  { s with beacon := { s.beacon with runLevel := otherLevel s.beacon.runLevel, runLen := 2, unsettled := false } }

/-- The entry that a finished run of `len` eighths makes. -/
def runEntry (s : State) (len : Nat) : CaptureEntry := { level := s.beacon.runLevel, width := entryWidth len }

theorem finishRun_outside {s : State} (h : ¬ InBurst s) :
    finishRun s = if otherLevel s.beacon.runLevel = .high then beginBurst (levelTurned s) else levelTurned s :=
  if_neg fun hc => h ((capturing_iff (levelTurned s)).1 hc)

theorem finishRun_closed {s : State} (h : InBurst s) (hc : s.beacon.closed = true) : finishRun s = levelTurned s :=
  (if_pos ((capturing_iff (levelTurned s)).2 h)).trans (if_pos hc)

theorem finishRun_open {s : State} (h : InBurst s) (hc : s.beacon.closed = false) :
    finishRun s = appendEntry (runEntry s s.beacon.runLen) (levelTurned s) :=
  (if_pos ((capturing_iff (levelTurned s)).2 h)).trans (if_neg (ne_true_of_eq_false hc))

/-- The state with an entry more in the capture list. -/
def appended (e : CaptureEntry) (s : State) : State :=
  { s with beacon := { s.beacon with capture := s.beacon.capture ++ [e] } }

theorem appendEntry_fits {s : State} (h : s.beacon.capture.length < 31) (e : CaptureEntry) :
    appendEntry e s = appended e s :=
  if_neg (by simp only [List.length_append, List.length_singleton]; omega)

theorem appendEntry_full {s : State} (h : s.beacon.capture.length = 31) (e : CaptureEntry) :
    appendEntry e s = endBurst false (appended e s) :=
  if_pos (by simp only [List.length_append, List.length_singleton]; omega)

/-- The closing quiet of a burst is complete. -/
theorem captureQuiet_due {s : State} (hb : InBurst s) (hc : s.beacon.closed = true) (hl : s.beacon.runLevel = .low)
    (hr : set16 s 707 * 8 ≤ s.beacon.runLen) :
    captureQuiet s = { s with beacon := { s.beacon with
      capture := [], closed := false
      state := if s.beacon.state = .learnCapture ∧ s.beacon.learn.state = .armed then .learnArmed else .idle } } :=
  if_pos (by rw [(capturing_iff s).2 hb, hc, hl, (limitReached_iff s).2 hr]; rfl)

/-- The last of the eighths that bring a run to the sample limit. -/
theorem sampleEighths_toLimit {s : State} (hu : s.beacon.unsettled = false) {n : Nat} (hn : 0 < n)
    (hlimit : s.beacon.runLen + n = set16 s 707 * 8) (hle : s.beacon.runLen + n ≤ 65535) :
    sampleEighths (List.replicate n s.beacon.runLevel) s = judgeRun (grown n s) := by
  obtain ⟨m, rfl⟩ : ∃ m, n = m + 1 := ⟨n - 1, by omega⟩
  rw [List.replicate_succ', sampleEighths_append, sampleEighths_goesOn hu (by omega) (.inr (.inr (by omega))),
    sampleEighths_cons, sampleLine_grown hu]
  rfl

/-- Settles O50. -/
theorem runsBuildTheCapture : Obligations.RunsBuildTheCapture := by
  unfold Obligations.RunsBuildTheCapture
  refine ⟨fun s t xs ys => ⟨exec_burstBegin ys s, exec_burstEnd ys s, exec_captureQuiet ys s,
    fun h => exec_runFinished_append h ys⟩, ?_⟩
  intro s n hrun hu hlen b lvl other inBurst goesOn ends len
  have hends (h : GoesOn s n) : ends = .next (finishRun (unsettledRun (grown n s))) :=
    (exec_runFinished hrun _).trans (congrArg _ (sampleEighths_ends hu hlen h))
  have hlevelTurned : levelTurned (unsettledRun (grown n s)) = { s with beacon := { s.beacon with
      runLevel := otherLevel s.beacon.runLevel, runLen := 2 } } := by
    unfold levelTurned unsettledRun grown
    dsimp only
    rw [hu]
  refine ⟨fun h => ?goes, fun h => ?absorbs, fun hout hlow => ?begins, fun hout hhigh => ?lasts,
    fun hin hgoes hopen hfew => ?appends, fun hin hgoes hclosed => ?stays, fun hin hclosed hlow hn hlimit hle => ?quiet⟩
  case goes => exact (exec_runFinished hrun _).trans (congrArg _ (sampleEighths_goesOn hu hlen h))
  case absorbs => exact (exec_runFinished hrun _).trans (congrArg _ (sampleEighths_absorbs hu hlen h))
  case begins =>
    have hother : otherLevel s.beacon.runLevel = .high := by rw [show s.beacon.runLevel = .low from hlow]; rfl
    refine (hends (.inl hout)).trans (congrArg _ ?_)
    rw [finishRun_outside (s := unsettledRun (grown n s)) hout]
    refine (if_pos hother).trans ?_
    rw [hlevelTurned]
    rfl
  case lasts =>
    have hother : otherLevel s.beacon.runLevel ≠ .high := by rw [show s.beacon.runLevel = .high from hhigh]; decide
    refine (hends (.inl hout)).trans (congrArg _ ?_)
    rw [finishRun_outside (s := unsettledRun (grown n s)) hout]
    exact (if_neg hother).trans hlevelTurned
  case appends =>
    refine (hends hgoes).trans (congrArg _ ?_)
    rw [finishRun_open (s := unsettledRun (grown n s)) hin hopen, hlevelTurned]
    exact appendEntry_fits (s := { s with beacon := { s.beacon with
      runLevel := otherLevel s.beacon.runLevel, runLen := 2 } }) hfew _
  case stays =>
    refine (hends hgoes).trans (congrArg _ ?_)
    rw [finishRun_closed (s := unsettledRun (grown n s)) hin hclosed, hlevelTurned]
  case quiet =>
    have hgrown : min 65535 (s.beacon.runLen + n) = s.beacon.runLen + n := Nat.min_eq_right hle
    have hreach : set16 s 707 * 8 ≤ min 65535 (s.beacon.runLen + n) := by rw [hgrown]; exact hlimit.ge
    refine (exec_runFinished hrun _).trans (congrArg _ ((sampleEighths_toLimit hu hn hlimit hle).trans ?_))
    refine (if_pos hclosed).trans ((captureQuiet_due (s := grown n s) hin hclosed hlow hreach).trans ?_)
    unfold grown
    dsimp only
    rw [hgrown]

end Sys2Proof.Machine
end

section
/-! A burst that ends: held, short, learned, unmatched, repeated or taken (R157, R159, R160, R165); O51. -/

namespace Sys2Proof.Machine

/-! ### The end of a burst (R157) -/

/-- The state with the burst's list closed and the run's length restarted. -/
def burstClosed (s : State) : State := { s with beacon := { s.beacon with closed := true, runLen := 0 } }

theorem endBurst_held (s : State) : endBurst true s = burstClosed s := rfl

theorem endBurst_ended (s : State) :
    endBurst false s =
      if s.beacon.capture.length < set8 s 709 then
        (if s.beacon.state = .learnCapture then countShort (burstClosed s) else burstClosed s)
      else if s.beacon.state = .learnCapture then learnBurst (burstClosed s) else matchBurst (burstClosed s) := by
  simp only [endBurst, Bool.false_eq_true, if_false, beq_iff_eq]
  rfl

theorem endBurst_short {s : State} (h : s.beacon.capture.length < set8 s 709) :
    endBurst false s = if s.beacon.state = .learnCapture then countShort (burstClosed s) else burstClosed s :=
  (endBurst_ended s).trans (if_pos h)

theorem endBurst_learns {s : State} (hlong : ¬ s.beacon.capture.length < set8 s 709)
    (hlearn : s.beacon.state = .learnCapture) : endBurst false s = learnBurst (burstClosed s) :=
  (endBurst_ended s).trans ((if_neg hlong).trans (if_pos hlearn))

theorem endBurst_matches {s : State} (hlong : ¬ s.beacon.capture.length < set8 s 709)
    (hcapture : s.beacon.state = .capture) : endBurst false s = matchBurst (burstClosed s) :=
  (endBurst_ended s).trans ((if_neg hlong).trans (if_neg fun h => by cases hcapture.symm.trans h))

/-- A run that reaches the sample limit ends an open burst, held if the run is HIGH. -/
theorem sampleEighths_ends_burst {s : State} (hu : s.beacon.unsettled = false) (hb : InBurst s)
    (hopen : s.beacon.closed = false) {n : Nat} (hn : 0 < n) (hlimit : s.beacon.runLen + n = set16 s 707 * 8)
    (hle : s.beacon.runLen + n ≤ 65535) :
    sampleEighths (List.replicate n s.beacon.runLevel) s = endBurst (s.beacon.runLevel == .high) (grown n s) := by
  have hreach : limitReached (grown n s) = true :=
    (limitReached_iff _).2 (hlimit.symm.le.trans (Nat.min_eq_right hle).ge)
  have hcap : capturing (grown n s) = true := (capturing_iff (grown n s)).2 hb
  refine (sampleEighths_toLimit hu hn hlimit hle).trans ((if_neg (ne_true_of_eq_false hopen)).trans ?_)
  refine if_pos ?_
  rw [hcap, hreach, show (grown n s).beacon.closed = false from hopen]
  rfl

/-- The 32nd entry ends an open burst. -/
theorem sampleEighths_fills_burst {s : State} (hu : s.beacon.unsettled = false) (hb : InBurst s)
    (hopen : s.beacon.closed = false) {n : Nat} (hless : s.beacon.runLen + n < set16 s 707 * 8)
    (hle : s.beacon.runLen + n ≤ 65535) (hfull : s.beacon.capture.length = 31) :
    sampleEighths (List.replicate n s.beacon.runLevel ++
        [otherLevel s.beacon.runLevel, otherLevel s.beacon.runLevel]) s =
      endBurst false (appended (runEntry s (s.beacon.runLen + n)) (levelTurned s)) := by
  have hgrown : min 65535 (s.beacon.runLen + n) = s.beacon.runLen + n := Nat.min_eq_right hle
  have hgoes : GoesOn s n := .inr (.inr (by omega))
  have hentry : runEntry (unsettledRun (grown n s)) (unsettledRun (grown n s)).beacon.runLen =
      runEntry s (s.beacon.runLen + n) := congrArg (runEntry s) hgrown
  rw [sampleEighths_ends hu (by omega) hgoes, finishRun_open (s := unsettledRun (grown n s)) hb hopen, hentry]
  exact appendEntry_full (s := levelTurned s) hfull _

/-! ### Learning (R165) -/

theorem learnBurst_settings (s : State) :
    (learnBurst s).settings = overlay s.settings (480 + 29 * s.beacon.learn.slot)
      ([BitVec.ofNat 8 (min s.beacon.capture.length (slotLimit s.beacon.learn.slot)), 2, 0, 0, 0] ++
        (s.beacon.capture.take (min s.beacon.capture.length (slotLimit s.beacon.learn.slot))).map
          CaptureEntry.toByte) := rfl

/-- What a learned burst leaves in the settings: the slot's count, its tolerance 2, no ignored place, the entries, and
every other byte as it stood. -/
theorem learnBurst_slot {s : State} (hslot : s.beacon.learn.slot ≤ 7) (hlen : s.settings.length = 776) :
    let slot := s.beacon.learn.slot
    let k := min s.beacon.capture.length (slotLimit slot)
    let t := learnBurst s
    slotByte t slot 0 = k ∧ slotByte t slot 1 = 2 ∧ (∀ j, j < 3 → slotByte t slot (2 + j) = 0) ∧
    (∀ i x, i < k → s.beacon.capture[i]? = some x → x.width ≤ 127 →
      slotByte t slot (5 + i) = (if x.level = .high then 128 else 0) + x.width) ∧
    (∀ j, j < 480 + 29 * slot ∨ 480 + 29 * slot + 5 + k ≤ j → set8 t j = set8 s j) := by
  intro slot k t
  have hk : k ≤ slotLimit slot := Nat.min_le_right _ _
  have hkl : k ≤ s.beacon.capture.length := Nat.min_le_left _ _
  have hlimit : slotLimit slot = if slot = 7 then 18 else 24 := rfl
  have hroom : slotLimit slot ≤ 24 ∧ 480 + 29 * slot + 5 + slotLimit slot ≤ 776 := by
    rw [hlimit]
    have : slot ≤ 7 := hslot
    split <;> omega
  let entries := (s.beacon.capture.take k).map CaptureEntry.toByte
  have hcount : entries.length = k := by simp [entries, hkl]
  let bytes := [BitVec.ofNat 8 k, (2 : Byte), 0, 0, 0] ++ entries
  have hbytes : bytes.length = 5 + k := by simp [bytes, hcount]; omega
  have hset (j : Nat) : set8 t j =
      if 480 + 29 * slot ≤ j ∧ j < 480 + 29 * slot + bytes.length then byteAt bytes (j - (480 + 29 * slot))
      else set8 s j := byteAt_overlay (base := s.settings) (bs := bytes) (by omega) j
  have hat {i : Nat} (hi : i < 5 + k) : slotByte t slot i = byteAt bytes i := by
    rw [slotByte, hset, if_pos (by omega), Nat.add_sub_cancel_left]
  refine ⟨?_, hat (by omega), fun j hj => ?_, fun i x hi hx hwidth => ?_, fun j hj => ?_⟩
  · rw [hat (by omega)]
    exact (BitVec.toNat_ofNat k 8).trans (Nat.mod_eq_of_lt (by omega))
  · rw [hat (by omega)]
    rcases (by omega : j = 0 ∨ j = 1 ∨ j = 2) with rfl | rfl | rfl <;> rfl
  · have hget : bytes[5 + i]? = some (CaptureEntry.toByte x) := by
      simp only [bytes, entries]
      rw [List.getElem?_append_right (Nat.le_add_right 5 i), List.length_cons, List.getElem?_map]
      simp [List.getElem?_take, hi, hx]
    rw [hat (by omega)]
    exact byteAt_of_get hget (by split <;> omega)
  · rw [hset, if_neg (by omega)]

/-! ### Matching (R159, R160) -/

/-- The captured entries agree with a slot, an entry of width 0 with none. -/
def SlotAgrees (s : State) (slot : Nat) : Prop :=
  0 < slotByte s slot 0 ∧ slotByte s slot 0 ≤ s.beacon.capture.length ∧ ∀ i x, i < slotByte s slot 0 →
    s.beacon.capture[i]? = some x → slotByte s slot (2 + i / 8) / 2 ^ (i % 8) % 2 = 0 →
    (x.level = .high ↔ 128 ≤ slotByte s slot (5 + i)) ∧ x.width ≠ 0 ∧ slotByte s slot (5 + i) % 128 ≠ 0 ∧
    x.width ≤ slotByte s slot (5 + i) % 128 + slotByte s slot 1 ∧
    slotByte s slot (5 + i) % 128 ≤ x.width + slotByte s slot 1

theorem eq_entryLevel_iff (l : Level) (b : Nat) : l = entryLevel b ↔ (l = .high ↔ 128 ≤ b) := by
  unfold entryLevel
  cases l <;> split <;> simp_all

theorem entryMatches_iff (s : State) (slot i : Nat) (x : CaptureEntry) :
    entryMatches s slot i x = true ↔ (slotByte s slot (2 + i / 8) / 2 ^ (i % 8) % 2 = 0 →
      (x.level = .high ↔ 128 ≤ slotByte s slot (5 + i)) ∧ x.width ≠ 0 ∧ slotByte s slot (5 + i) % 128 ≠ 0 ∧
      x.width ≤ slotByte s slot (5 + i) % 128 + slotByte s slot 1 ∧
      slotByte s slot (5 + i) % 128 ≤ x.width + slotByte s slot 1) := by
  rw [← eq_entryLevel_iff]
  have hbit : slotIgnores s slot i = true ↔ ¬ slotByte s slot (2 + i / 8) / 2 ^ (i % 8) % 2 = 0 := by
    rw [slotIgnores, beq_iff_eq]
    omega
  simp only [entryMatches, Bool.or_eq_true, hbit, Bool.and_eq_true, beq_iff_eq, decide_eq_true_eq, bne_iff_ne]
  tauto

theorem slotMatches_iff (s : State) (slot : Nat) : slotMatches s slot = true ↔ SlotAgrees s slot := by
  have hplace {i : Nat} (hi : i < s.beacon.capture.length) (p : CaptureEntry → Bool) :
      (match s.beacon.capture[i]? with | some e => p e | none => false) = p s.beacon.capture[i] := by
    rw [List.getElem?_eq_getElem hi]
  simp only [slotMatches, Bool.and_eq_true, bne_iff_ne, decide_eq_true_eq, List.all_eq_true, List.mem_range, SlotAgrees,
    Nat.pos_iff_ne_zero, and_assoc]
  refine and_congr_right fun _ => and_congr_right fun hle => forall_congr' fun i => ?_
  constructor
  · intro h x hi hx
    have hm := h hi
    rw [hx] at hm
    exact (entryMatches_iff s slot i x).1 hm
  · intro h hi
    have hx := List.getElem?_eq_getElem (Nat.lt_of_lt_of_le hi hle)
    rw [hx]
    exact (entryMatches_iff s slot i _).2 (h _ hi hx)

theorem matchBurst_unmatched {s : State} (h : ∀ slot, slot < 8 → ¬ SlotAgrees s slot) : matchBurst s = s := by
  have hnone : matchedSlot s = none := List.find?_eq_none.2 fun slot hslot hm =>
    h slot (List.mem_range.1 hslot) ((slotMatches_iff s slot).1 hm)
  rw [matchBurst, hnone]

theorem matchBurst_matched {s : State} {slot : Nat} (hslot : slot < 8) (hagrees : SlotAgrees s slot)
    (hfirst : ∀ j, j < slot → ¬ SlotAgrees s j) :
    matchBurst s = if repeatedMatch s slot then s else takeMatch slot s := by
  have hsome : matchedSlot s = some slot := List.find?_range_eq_some.2
    ⟨(slotMatches_iff s slot).2 hagrees, List.mem_range.2 hslot, fun j hj => by
      rw [Bool.not_eq_true', Bool.eq_false_iff]
      exact fun hm => hfirst j hj ((slotMatches_iff s j).1 hm)⟩
  rw [matchBurst, hsome]

/-- A match is repeated where its slot was the last one, and the odometer has moved on by less than the distance of
R160. -/
theorem repeatedMatch_iff (s : State) (slot : Nat) :
    repeatedMatch s slot = true ↔
      ∃ odo, s.beacon.lastMatch = some (slot, odo) ∧ (s.pub.odometer - odo).toNat < set16 s 710 := by
  unfold repeatedMatch
  split
  · rename_i last odo hlast
    simp only [hlast, Bool.and_eq_true, beq_iff_eq, decide_eq_true_eq, Option.some.injEq, Prod.mk.injEq]
    exact ⟨fun ⟨h, hd⟩ => ⟨odo, ⟨h, rfl⟩, hd⟩, fun ⟨_, ⟨h, ho⟩, hd⟩ => ⟨h, ho ▸ hd⟩⟩
  · rename_i hlast
    simp [hlast]

/-- Settles O51. -/
theorem burstEndsOnce : Obligations.BurstEndsOnce := by
  unfold Obligations.BurstEndsOnce
  intro s e line n held hrun hopen hburst hu hle hcases
  obtain ⟨u, hend, rfl⟩ : ∃ u : Beacon, exec (.burstEnd line) s = .next (endBurst held { s with beacon := u }) ∧
      { s with beacon := { u with closed := true, runLen := 0 } } = e := by
    rcases hcases with ⟨hn, hlimit, rfl, rfl, rfl⟩ | ⟨hless, hfull, rfl, rfl, rfl⟩
    · exact ⟨(grown n s).beacon, (exec_runFinished hrun _).trans
        (congrArg _ (sampleEighths_ends_burst hu hburst hopen hn hlimit hle)), rfl⟩
    · refine ⟨(appended (runEntry s (s.beacon.runLen + n)) (levelTurned s)).beacon, (exec_runFinished hrun _).trans
        (congrArg _ (sampleEighths_fills_burst hu hburst hopen hless hle hfull)), ?_⟩
      unfold levelTurned appended
      dsimp only
      rw [← hu] <;> rfl
  rw [hend]
  intro c short
  refine ⟨?held, ?short, ?counted, ?learned, ?matched⟩
  case held => rintro rfl; exact congrArg _ (endBurst_held _)
  case short =>
    intro hshort hstate
    cases held with
    | true => exact congrArg _ (endBurst_held _)
    | false =>
      refine congrArg _ ((endBurst_short (s := { s with beacon := u }) hshort).trans (if_neg ?_))
      rw [show u.state = .capture from hstate]
      decide
  case counted =>
    rintro rfl hshort hstate
    exact congrArg _ ((endBurst_short (s := { s with beacon := u }) hshort).trans (if_pos hstate))
  case learned =>
    rintro rfl hlong hstate hslot hlen
    exact ⟨_, congrArg _ (endBurst_learns (s := { s with beacon := u }) hlong hstate), rfl,
      learnBurst_slot (s := burstClosed { s with beacon := u }) hslot hlen⟩
  case matched =>
    rintro rfl hlong hstate
    rw [endBurst_matches (s := { s with beacon := u }) hlong hstate]
    refine ⟨fun hnone => congrArg _ (matchBurst_unmatched (s := burstClosed { s with beacon := u }) hnone),
      fun slot hslot hagrees hfirst => ?_⟩
    rw [matchBurst_matched (s := burstClosed { s with beacon := u }) hslot hagrees hfirst]
    have hagain := repeatedMatch_iff (burstClosed { s with beacon := u }) slot
    exact ⟨fun h => congrArg _ (if_pos (hagain.2 h)), fun h => congrArg _ (if_neg fun hr => h (hagain.1 hr))⟩

end Sys2Proof.Machine
end

section
/-! What a taken match does: the targeted stop, the cap, the lead's CONSIST_HOLD, the start request and the function
(R38 to R40, R94, R99, R161 to R163); O52. -/

namespace Sys2Proof.Machine

/-! ### Which action is carried out (R161) -/

/-- The applied direction satisfies the qualifier of a slot's action. -/
def ActionFits (s : State) (slot : Nat) : Prop :=
  (actionByte s slot 0 / 64 = 1 → s.demand.applied = .fwd) ∧ (actionByte s slot 0 / 64 = 2 → s.demand.applied = .rev)

theorem actionFits_iff (s : State) (slot : Nat) :
    qualifies (actionByte s slot 0 / 64) s.demand.applied = true ↔ ActionFits s slot := by
  unfold ActionFits qualifies
  split
  · rename_i h1
    simp [h1]
  · rename_i h1
    split
    · rename_i h2
      simp [h2]
    · rename_i h2
      simp [h1, h2]

theorem ownMotion_iff (s : State) : ownMotion s = true ↔ ¬ IsMember s := by
  unfold ownMotion IsMember
  cases consistPosition s <;> decide

theorem carryOut_unfit {s : State} {slot : Nat} (h : ¬ ActionFits s slot) : carryOut slot s = s :=
  if_pos (by rw [Bool.eq_false_iff.2 fun hq => h ((actionFits_iff s slot).1 hq)]; rfl)

section Carried

variable {s : State} {slot : Nat} (h : ActionFits s slot)
include h

/-- The action of a slot that fits, by its kind. -/
theorem carryOut_fits : carryOut slot s =
    if actionByte s slot 0 % 8 = 1 then (if ownMotion s then stopAt slot s else s)
    else if actionByte s slot 0 % 8 = 2 then (if ownMotion s then slowTo slot s else s)
    else if actionByte s slot 0 % 8 = 3 then momentaryStart (some (min 31 (actionByte s slot 1))) s
    else if actionByte s slot 0 % 8 = 4 then beaconFunction (min 31 (actionByte s slot 1)) (actionByte s slot 2) s
    else s :=
  if_neg (by rw [(actionFits_iff s slot).2 h]; decide)

theorem carryOut_nothing (hk : actionByte s slot 0 % 8 = 0 ∨ 4 < actionByte s slot 0 % 8) : carryOut slot s = s := by
  rw [carryOut_fits h, if_neg (by omega), if_neg (by omega), if_neg (by omega), if_neg (by omega)]

theorem carryOut_member (hk : actionByte s slot 0 % 8 = 1 ∨ actionByte s slot 0 % 8 = 2) (hm : IsMember s) :
    carryOut slot s = s := by
  have hown : ownMotion s = false := Bool.eq_false_iff.2 fun ho => (ownMotion_iff s).1 ho hm
  rw [carryOut_fits h, hown]
  rcases hk with hk | hk <;> rw [hk] <;> rfl

theorem carryOut_stop (hk : actionByte s slot 0 % 8 = 1) (hm : ¬ IsMember s) : carryOut slot s = stopAt slot s := by
  rw [carryOut_fits h, if_pos hk, if_pos ((ownMotion_iff s).2 hm)]

theorem carryOut_slow (hk : actionByte s slot 0 % 8 = 2) (hm : ¬ IsMember s) : carryOut slot s = slowTo slot s := by
  rw [carryOut_fits h, if_neg (by omega), if_pos hk, if_pos ((ownMotion_iff s).2 hm)]

theorem carryOut_sound (hk : actionByte s slot 0 % 8 = 3) :
    carryOut slot s = startRequest (min 31 (actionByte s slot 1)) false s := by
  rw [carryOut_fits h, if_neg (by omega), if_neg (by omega), if_pos hk]
  rfl

theorem carryOut_function (hk : actionByte s slot 0 % 8 = 4) :
    carryOut slot s = beaconFunction (min 31 (actionByte s slot 1)) (actionByte s slot 2) s := by
  rw [carryOut_fits h, if_neg (by omega), if_neg (by omega), if_neg (by omega), if_pos hk]

end Carried

theorem not_member_of_own {s : State} (h : consistPosition s = .none ∨ consistPosition s = .lead) : ¬ IsMember s := by
  unfold IsMember
  rcases h with h | h <;> rw [h] <;> decide

/-! ### The lead tells its consist (R94, R163) -/

/-- A state in which a motion action has changed the hold list, and a lead has told its consist. -/
def consistToldBy (p : List Byte) (s t : State) : State :=
  if consistPosition s = .lead then sendConsistHold p (spendFree t) else t

/-- The CONSIST_HOLD frame that a lead queues, with a payload. -/
def consistHoldFrame (s : State) (p : List Byte) : OutFrame :=
  { port := .radio, body := consistHoldBody s p, isReset := false }

/-- What a lead's CONSIST_HOLD leaves: the frame in the reply queue, or a dropped one counted, the hold sequence and the
free-value counter one further. -/
theorem sendConsistHold_effect (p : List Byte) (l : List Hold) (s : State) :
    let t := sendConsistHold p (spendFree { s with holds := l })
    t.holds = l ∧
      (s.replies.length < 4 → t.replies = s.replies ++ [consistHoldFrame s p] ∧ t.radio = s.radio) ∧
      (4 ≤ s.replies.length → t.replies = s.replies ∧ t.radio = { s.radio with
        counters := { s.radio.counters with dropped := min 65535 (s.radio.counters.dropped + 1) } }) ∧
      t = { s with holds := t.holds, holdSeq := s.holdSeq + 1, replies := t.replies, radio := t.radio,
                   freeCount := s.freeCount + 1 } := by
  intro t
  by_cases hroom : s.replies.length < 4
  · have ht : t = { s with holds := l, holdSeq := s.holdSeq + 1, replies := s.replies ++ [consistHoldFrame s p],
                           freeCount := s.freeCount + 1 } :=
      queueReply_enters (s := { spendFree { s with holds := l } with holdSeq := s.holdSeq + 1 }) hroom
    rw [ht]
    exact ⟨rfl, fun _ => ⟨rfl, rfl⟩, fun h => absurd h (by omega), rfl⟩
  · have ht : t = { s with
        holds := l, holdSeq := s.holdSeq + 1, freeCount := s.freeCount + 1
        radio := { s.radio with
          counters := { s.radio.counters with dropped := min 65535 (s.radio.counters.dropped + 1) } } } :=
      queueReply_drops (s := { spendFree { s with holds := l } with holdSeq := s.holdSeq + 1 }) (Nat.le_of_not_lt hroom)
    rw [ht]
    exact ⟨rfl, fun h => absurd h hroom, fun _ => ⟨rfl, rfl⟩, rfl⟩

/-! ### STOP_AT and SLOW_TO (R162) -/

/-- The dwell of a slot's STOP_AT, none where it does not resume. -/
def actionDwell (s : State) (slot : Nat) : Option Nat :=
  if actionByte s slot 4 % 2 = 1 then some (actionByte s slot 3) else none

/-- The reverse-at-end flag of a slot's STOP_AT. -/
def actionReverse (s : State) (slot : Nat) : Bool :=
  decide (actionByte s slot 4 % 2 = 1) && actionByte s slot 4 / 2 % 2 == 1

/-- The distance of a slot's STOP_AT in du. -/
def actionDistance (s : State) (slot : Nat) : Nat := (actionByte s slot 1 + 256 * actionByte s slot 2) * 100

/-- The STOP that a slot's STOP_AT installs. -/
def actionStopped (s : State) (slot : Nat) : State :=
  installStop (stopDecel s.pub.R (actionDistance s slot)) (actionDwell s slot) (actionReverse s slot) .own s

theorem stopAt_eq (s : State) (slot : Nat) :
    stopAt slot s = consistToldBy (stopPayload (actionStopped s slot) (stopDecel s.pub.R (actionDistance s slot))
      (actionDwell s slot) (actionReverse s slot)) s (actionStopped s slot) := rfl

theorem slowTo_eq (s : State) (slot : Nat) :
    let limit := actionByte s slot 2 + 256 * actionByte s slot 3
    slowTo slot s = consistToldBy (capPayload (installCap (slowCap s (actionByte s slot 1)) (limit * 100) .own s)
      (slowCap s (actionByte s slot 1)) limit) s (installCap (slowCap s (actionByte s slot 1)) (limit * 100) .own s) := rfl

/-- The bytes of a lead's STOP, the dwell byte of a halt and the limit bytes free (log 20). -/
theorem stopPayload_bytes (s t : State) (slot : Nat) (d : Decel) : ∃ w x y,
    stopPayload t d (actionDwell s slot) (actionReverse s slot) = [0] ++ le2 d.wire ++
      [if actionByte s slot 4 % 2 = 1 then BitVec.ofNat 8 (actionByte s slot 3) else w,
        BitVec.ofNat 8 ((if actionReverse s slot = true then 1 else 0) +
          (if actionByte s slot 4 % 2 = 1 then 0 else 2)), x, y] := by
  refine ⟨Config.unusedHoldByte t.freeCount 3, Config.unusedHoldByte t.freeCount 5,
    Config.unusedHoldByte t.freeCount 6, ?_⟩
  unfold stopPayload actionDwell
  by_cases h : actionByte s slot 4 % 2 = 1
  · simp only [if_pos h]; rfl
  · simp only [if_neg h]; rfl

/-- A distance by a rate covers the braking distance, and one rate less does not (R39). -/
theorem ceilDiv_covers (n : Nat) {d : Nat} (hd : 0 < d) (hn : 0 < n) :
    n ≤ (n + d - 1) / d * d ∧ ((n + d - 1) / d - 1) * d < n := by
  have hdiv := Nat.div_add_mod (n + d - 1) d
  have hmod := Nat.mod_lt (n + d - 1) hd
  have hone : 1 ≤ (n + d - 1) / d := (Nat.one_le_div_iff hd).2 (by omega)
  have hback := Nat.sub_one_mul ((n + d - 1) / d) d
  rw [Nat.mul_comm d] at hdiv
  omega

/-! ### A targeted stop whose dwell is 0, at a standstill (R39) -/

theorem filter_insertHold {h : Hold} {src : HoldSource} (hs : h.source = src) (l : List Hold) :
    (insertHold h l).filter (fun x => x.source != src) = l.filter (fun x => x.source != src) := by
  have hgoes (l : List Hold) : (h :: l).filter (fun x => x.source != src) = l.filter (fun x => x.source != src) :=
    List.filter_cons_of_neg (by simp [hs])
  induction l with
  | nil => exact hgoes []
  | cons x l ih =>
    unfold insertHold
    split
    · rename_i hx
      rw [hgoes, List.filter_cons_of_neg (by simp [hx, hs])]
    · rw [List.filter_cons, List.filter_cons, ih]

/-- A STOP of dwell 0 at a standstill has gone again, with the commanded direction inverted where it says so. -/
theorem installStop_over {s : State} {o : Origin} (rev : Bool) (d : Decel) (ho : originTaken s o = true)
    (hr : s.pub.R = 0) :
    let t := installStop d (some 0) rev o s
    findHold t .beacon = none ∧
      t.demand.commanded = (if rev = true then s.demand.commanded.flip else s.demand.commanded) ∧
      (rev = false → t = { s with holds := s.holds.filter (fun h => h.source != .beacon) }) := by
  intro t
  let h := stopEntry d (some 0) rev o s.partTime
  let u : State := { s with holds := insertHold h s.holds }
  have hfound : findHold u .beacon = some h := find_insertHold h s.holds
  have ht : t = if rev = true then reconcile (dirAgrees u) (dwellReversed u) else removeHold .beacon u :=
    ((if_pos ho).trans (if_pos hr)).trans (enterDwell_over hfound rfl)
  have hothers : removeHold .beacon u = { s with holds := s.holds.filter (fun h => h.source != .beacon) } :=
    (congrArg (fun l => { s with holds := l }) (filter_insertHold (h := h) rfl s.holds) :)
  cases rev with
  | true =>
    have hrec := reconcile_reconciled (dirAgrees u) (dwellReversed u)
    rw [if_pos rfl] at ht
    refine ⟨?_, ?_, nofun⟩
    · rw [ht]
      refine (congrArg (List.find? (fun x => x.source == .beacon)) hrec.holds).trans ?_
      exact find_beacon_otherHolds u.holds
    · rw [ht]
      exact hrec.commanded
  | false =>
    rw [if_neg Bool.false_ne_true] at ht
    refine ⟨?_, ?_, fun _ => ht.trans hothers⟩
    · rw [ht]
      exact findHold_removeHold .beacon u
    · rw [ht]
      rfl

/-- Settles O52. -/
theorem takenMatchActs : Obligations.TakenMatchActs := by
  unfold Obligations.TakenMatchActs
  intro s slot hd kind q fits alone d resume dwell reverse stop halted limit value cap installs stopBytes
  have hinstalls {h : Hold} {p : List Byte} {payload : List Byte → Prop} (hp : payload p)
      (heq : carryOut slot s = consistToldBy p s { s with holds := insertHold h s.holds }) : installs h payload := by
    refine ⟨fun hnone => heq.trans (if_neg fun hlead => ?_), fun hlead => ⟨p, hp, ?_⟩⟩
    · cases (show consistPosition s = .none from hnone).symm.trans hlead
    · have hcarried : carryOut slot s = sendConsistHold p (spendFree { s with holds := insertHold h s.holds }) :=
        heq.trans (if_pos hlead)
      rw [hcarried]
      exact sendConsistHold_effect p (insertHold h s.holds) s
  have hunmoved {h : Hold} {payload : List Byte → Prop} (hm : IsMember s) : installs h payload := by
    refine ⟨fun hnone => absurd hm (not_member_of_own (.inl hnone)), fun hlead => absurd hm (not_member_of_own (.inr hlead))⟩
  have hstops {h : Hold} {r : Nat} (hfit : fits) (hk : kind = 1)
      (hwire : (stopDecel s.pub.R (actionDistance s slot)).wire = r)
      (hst : ¬ IsMember s → actionStopped s slot = { s with holds := insertHold h s.holds }) :
      installs h (stopBytes r) := by
    by_cases hm : IsMember s
    · exact hunmoved hm
    · refine hinstalls ?_ (((carryOut_stop hfit hk hm).trans (stopAt_eq s slot)).trans
        (congrArg (consistToldBy _ s) (hst hm)))
      rw [← hwire]
      exact stopPayload_bytes s _ slot _
  have happroach {x : Decel} (hr : s.pub.R ≠ 0) (hx : stopDecel s.pub.R (actionDistance s slot) = x)
      (hm : ¬ IsMember s) : actionStopped s slot = { s with holds := insertHold (stop x) s.holds } := by
    rw [← hx]
    exact installStop_approaches ((Steer.originTaken_own s).2 hm) hr
  refine ⟨fun h => ?nothing, fun hk hm => ?member, fun hfit hk hr => ⟨fun hd0 => ?atonce, fun hpos => ?rate⟩,
    fun hfit hk hr hdw => ?halted, fun hfit hk hr hdw hpos => ?gone, fun hfit hk => ?cap, fun hfit hk => ?sound,
    fun hfit hk hle sw hsw => ?function⟩
  case nothing =>
    by_cases hfit : ActionFits s slot
    · exact carryOut_nothing hfit (h.resolve_left (not_not.2 hfit))
    · exact carryOut_unfit hfit
  case member =>
    by_cases hfit : ActionFits s slot
    · exact carryOut_member hfit hk hm
    · exact carryOut_unfit hfit
  case atonce =>
    have hx : stopDecel s.pub.R (actionDistance s slot) = .instant := if_pos (.inr hd0)
    exact hstops hfit hk (congrArg Decel.wire hx) (happroach hr hx)
  case rate =>
    have hx : stopDecel s.pub.R (actionDistance s slot) = .rate (clampNat 10 4000 ((50 * s.pub.R * s.pub.R + d - 1) / d)) :=
      if_neg (not_or.2 ⟨hr, Nat.ne_of_gt hpos⟩)
    obtain ⟨hcovers, hleast⟩ := ceilDiv_covers (50 * s.pub.R * s.pub.R) hpos
      (Nat.mul_pos (Nat.mul_pos (by decide) (Nat.pos_of_ne_zero hr)) (Nat.pos_of_ne_zero hr))
    exact ⟨hcovers, hleast, hstops hfit hk (congrArg Decel.wire hx) (happroach hr hx)⟩
  case halted =>
    have hx : stopDecel s.pub.R (actionDistance s slot) = .instant := if_pos (.inl hr)
    refine hstops hfit hk (congrArg Decel.wire hx) fun hm => ?_
    have hstopped := installStop_dwells (decel := stopDecel s.pub.R (actionDistance s slot))
      (rev := actionReverse s slot) ((Steer.originTaken_own s).2 hm) hr hdw hd
    refine hstopped.trans ?_
    rw [hx]
    rfl
  case gone =>
    have hm := not_member_of_own hpos
    have hcarried := (carryOut_stop hfit hk hm).trans (stopAt_eq s slot)
    have hstopped : actionStopped s slot =
        installStop (stopDecel s.pub.R (actionDistance s slot)) (some 0) (actionReverse s slot) .own s :=
      congrArg (fun x => installStop _ x _ _ s) hdw
    obtain ⟨hgone, hcommanded, hstill⟩ := installStop_over (actionReverse s slot)
      (stopDecel s.pub.R (actionDistance s slot)) ((Steer.originTaken_own s).2 hm) hr
    rw [← hstopped] at hgone hcommanded hstill
    have hkept (p : List Byte) : findHold (consistToldBy p s (actionStopped s slot)) .beacon = none ∧
        (consistToldBy p s (actionStopped s slot)).demand = (actionStopped s slot).demand := by
      unfold consistToldBy
      split
      · obtain ⟨hholds, -, -, hframe⟩ := sendConsistHold_effect p (actionStopped s slot).holds (actionStopped s slot)
        exact ⟨(congrArg (List.find? (fun x : Hold => x.source == HoldSource.beacon)) hholds :).trans hgone, (congrArg State.demand hframe :)⟩
      · exact ⟨hgone, rfl⟩
    rw [hcarried]
    obtain ⟨hfind, hdemand⟩ := hkept (stopPayload (actionStopped s slot) (stopDecel s.pub.R (actionDistance s slot))
      (actionDwell s slot) (actionReverse s slot))
    refine ⟨hfind, (congrArg Demand.commanded hdemand).trans hcommanded, fun hnone hrev => ?_⟩
    refine (if_neg fun hlead => ?_).trans (hstill hrev)
    cases (show consistPosition s = .none from hnone).symm.trans hlead
  case cap =>
    by_cases hm : IsMember s
    · exact hunmoved hm
    · have hcap : installCap (slowCap s (actionByte s slot 1)) (limit * 100) .own s =
          { s with holds := insertHold cap s.holds } := by
        refine (installCap_taken ((Steer.originTaken_own s).2 hm)).trans ?_
        have hentry : capEntry (slowCap s (actionByte s slot 1)) (limit * 100) .own s = cap := by
          unfold capEntry
          simp only [Nat.mul_eq_zero, OfNat.ofNat_ne_zero, or_false]
          rfl
        rw [hentry]
      refine hinstalls ⟨_, rfl⟩ (((carryOut_slow hfit hk hm).trans (slowTo_eq s slot)).trans
        (congrArg (consistToldBy _ s) hcap))
  case sound => exact carryOut_sound hfit hk
  case function =>
    have hcarried := carryOut_function hfit hk
    rw [Nat.min_eq_right hle] at hcarried
    obtain ⟨-, hframe⟩ := featureEvents_switches s
      (updateAt s.switches (actionByte s slot 1) (fun sw => sw.beacon (actionByte s slot 2) s.partTime))
    have hbeacon : sw.beacon (actionByte s slot 2) s.partTime = (if sw.on = true ∧ sw.expiry = none then sw else
        { on := true, lastSetter := some .beacon, expiry := some (s.partTime + BitVec.ofNat 32
          ((if actionByte s slot 2 = 0 then 1 else actionByte s slot 2) * 1000)) }) := by
      refine if_congr ?_ rfl rfl
      rw [Bool.and_eq_true, Option.isNone_iff_eq_none]
    rw [hcarried]
    refine ⟨?_, fun i hi => ?_, (congrArg State.holds hframe :), (congrArg State.drive hframe :),
      (congrArg State.motor hframe :), (congrArg State.settings hframe :)⟩
    · rw [← hbeacon]
      exact (congrArg (fun l : List Switch => l[actionByte s slot 1]?) (congrArg State.switches hframe :)).trans
        (updateAt_get_same hsw _)
    · exact (congrArg (fun l : List Switch => l[i]?) (congrArg State.switches hframe :)).trans
        (updateAt_get_other hi _ _)

end Sys2Proof.Machine
end

section
/-! A configuration transaction is opened, and data is staged and read back (R130, R169 to R171); O53. -/

namespace Sys2Proof.Machine

/-! ### Refusals and renewal (R169 to R171) -/

theorem renewTxn_mine {src : Source} {s : State} (h : OpenBy src s) :
    renewTxn src s = { s with txn := { s.txn with lastFrame := s.partTime } } := if_pos h

theorem txnRefusal_closed {src : Source} {s : State} (h : s.txn.state = .closed) : txnRefusal src s = some .cfgNone :=
  if_pos h

theorem txnRefusal_other {src : Source} {s : State} (h : s.txn.state ≠ .closed) (ho : s.txn.opener ≠ src) :
    txnRefusal src s = some .cfgBusy := (if_neg h).trans (if_neg ho)

theorem txnRefusal_mine {src : Source} {s : State} (h : OpenBy src s) : txnRefusal src s = none :=
  (if_neg h.1).trans (if_pos h.2)

/-- The end of a transaction changes nothing but the transaction, the Sound Engine and the Flash Port. -/
theorem endTxn_closes (s : State) : (endTxn s).txn = { s.txn with state := .closed, staged := [] } :=
  (congrArg State.txn (endTxn_frame s) :)

/-! ### CFG_OPEN (R170) -/

section Open

variable {target dir start count : Nat} {src : Source} {s : State}

/-- The fields of a CFG_OPEN are within their ranges. -/
def OpenFits (target dir start count : Nat) : Prop :=
  (target = 0 ∧ dir ≤ 1 ∧ 1 ≤ count ∧ count ≤ 64 ∧ start + count ≤ 776) ∨
    (target = 1 ∧ dir = 0 ∧ 1 ≤ count ∧ count ≤ 256 ∧ start ≤ 16383)

theorem openInRange_iff : openInRange target dir start count = true ↔ OpenFits target dir start count := by
  unfold openInRange OpenFits
  split
  · rename_i h0
    simp [h0, and_assoc]
  · rename_i h0
    simp [h0, and_assoc]

theorem cfgOpenTaken_refused {r : Result} (h : openRefusal target dir start count src s = some r) :
    cfgOpenTaken target dir start count src s = (r, renewTxn src s) := by
  unfold cfgOpenTaken
  rw [h]

/-- The transaction that an accepted CFG_OPEN opens, with every mark clear. -/
def openedTxn (target dir start count : Nat) (src : Source) (now : Time) : Txn :=
  { state := if dir = 1 then .openRead else .openWrite, opener := src,
    target := if target = 1 then .bank else .settings, start := start, count := count,
    staged := List.replicate count none, lastFrame := now }

theorem cfgOpenTaken_opens (h : openRefusal target dir start count src s = none) :
    cfgOpenTaken target dir start count src s =
      (.ok, updateMode { s with txn := openedTxn target dir start count src s.partTime }) := by
  unfold cfgOpenTaken
  rw [h]
  rfl

theorem openedTxn_open (now : Time) : (openedTxn target dir start count src now).state ≠ .closed := by
  unfold openedTxn
  dsimp only
  split <;> nofun

theorem openedTxn_bank_iff (now : Time) : (openedTxn target dir start count src now).target = .bank ↔ target = 1 := by
  unfold openedTxn
  dsimp only
  split
  · exact iff_of_true rfl ‹_›
  · exact iff_of_false nofun ‹_›

/-- What an accepted CFG_OPEN leaves: a BANK one the engine QUIET, one whose target is as before the engine alone. -/
theorem opened_mode (now : Time) :
    let u := updateMode { s with txn := openedTxn target dir start count src now }
    u.txn = openedTxn target dir start count src now ∧
      ((target = 1 ↔ s.txn.target = .bank ∧ s.txn.state ≠ .closed) → VoicesSound s → u.sound = s.sound) ∧
      (target = 1 → u.sound.mode = .quiet) ∧ u = { s with txn := u.txn, sound := u.sound, port := u.port } := by
  intro u
  have hframe : SoundFrame { s with txn := openedTxn target dir start count src now } u := .updateMode _
  have htxn : u.txn = openedTxn target dir start count src now := (congrArg State.txn hframe :)
  have hnow : (openedTxn target dir start count src now).state ≠ .closed ∧
      (openedTxn target dir start count src now).target = .bank ↔ target = 1 := by
    rw [openedTxn_bank_iff]
    exact and_iff_right (openedTxn_open now)
  refine ⟨htxn, fun hsame hvoices => ?_, fun hbank => ?_, by rw [htxn]; exact hframe⟩
  · have hstay : u = { s with txn := openedTxn target dir start count src now } := by
      refine updateMode_stays ((hvoices.mode).trans ((quietCause_iff _).trans ?_).symm)
      refine or_congr_right (or_congr_right (or_congr_left ?_))
      exact hnow.trans (hsame.trans and_comm)
    exact (congrArg State.sound hstay :)
  · have hfits : ModeFits u := (updateMode_move _).2.1
    refine hfits.2 ((quietCause_iff u).2 (.inr (.inr (.inl ?_))))
    rw [htxn]
    exact hnow.2 hbank

end Open

/-! ### CFG_DATA (R171) -/

theorem exec_cfgData_dispatched {s t : State} {f : Frame} {m : Mark} {src : Source} (h : Dispatched s f m src t)
    (hk : f.kind = 0x11) (hlow : 2 ≤ f.payload.length) (hhigh : f.payload.length ≤ 18) :
    exec .cfgData s = .next (replied s f m src (actCfgData f.payload { frame := f, mark := m, src := src } t)) := by
  have hrow : exec .cfgData s = .next (takeRequest (ofKind 0x11) (withPayload 2 actCfgData) s) := rfl
  rw [exec_taken_dispatched hrow h (ofKind_of_kind_eq hk), withPayload_long hlow]

/-- What a CFG_DATA answers, from what its owner decided. -/
def dataAnswered : DataAnswer × State → Answer × State
  | (.result x, u) => (.status x 0, u)
  | (.data bs, u) => (.payload 0x81 bs, u)

theorem actCfgData_fits {p : List Byte} {a : Asked} {s : State} (h : p.length ≤ 18) :
    actCfgData p a s = dataAnswered (cfgDataTaken (halfAt p 0) (p.drop 2) a.src s) := by
  unfold actCfgData
  rw [if_neg (Nat.not_lt.2 h)]
  dsimp only
  generalize cfgDataTaken (halfAt p 0) (p.drop 2) a.src s = r
  obtain ⟨x | bs, u⟩ := r <;> rfl

section Data

variable {o : Nat} {bs : List Byte} {src : Source} {s : State}

theorem cfgDataTaken_refused {r : Result} (h : txnRefusal src s = some r) :
    cfgDataTaken o bs src s = (.result r, s) := by
  unfold cfgDataTaken
  rw [h]

/-- A CFG_DATA from the opener renews its last-frame time, and is then decided by the transaction's direction. -/
theorem cfgDataTaken_mine (h : OpenBy src s) : cfgDataTaken o bs src s =
    (let u : State := { s with txn := { s.txn with lastFrame := s.partTime } }
     if s.txn.state = .openRead then (.data (readPayload u o), u)
     else if bs = [] then (.result .ok, u)
     else if s.txn.count < o + bs.length then (.result .cfgOverrun, endTxn u)
     else (.result .ok, { u with txn := { u.txn with staged := stage s.txn.staged o bs } })) := by
  unfold cfgDataTaken
  rw [txnRefusal_mine h, renewTxn_mine h]
  simp only [List.isEmpty_iff]

theorem stage_length {l : List (Option Byte)} (h : o + bs.length ≤ l.length) : (stage l o bs).length = l.length := by
  unfold stage
  simp only [List.length_append, List.length_take, List.length_map, List.length_drop]
  omega

/-- The bytes staged stand marked at their offset, and every other place as it stood. -/
theorem stage_get {l : List (Option Byte)} (h : o + bs.length ≤ l.length) (i : Nat) :
    (stage l o bs)[i]? = if o ≤ i ∧ i < o + bs.length then some (some (bs.getD (i - o) 0)) else l[i]? := by
  have ho : (l.take o).length = o := by simp; omega
  have hmid : (l.take o ++ bs.map some).length = o + bs.length := by rw [List.length_append, ho, List.length_map]
  unfold stage
  rw [List.getElem?_append, hmid, List.getElem?_append, ho]
  split
  · split
    · rw [if_neg (by omega), List.getElem?_take_of_lt ‹_›]
    · have hin : i - o < bs.length := by omega
      rw [if_pos (by omega), List.getElem?_map, List.getD_eq_getElem?_getD, List.getElem?_eq_getElem hin] <;> rfl
  · rw [if_neg (by omega), List.getElem?_drop]
    congr 1
    omega

end Data

/-- Settles O53. -/
theorem cfgOpenAndDataAreTaken : Obligations.CfgOpenAndDataAreTaken := by
  unfold Obligations.CfgOpenAndDataAreTaken
  refine ⟨fun s f m src t h hk hlen hlocal => ?opening, fun s f m src t h hk hlow hhigh => ?staging⟩
  case opening =>
    intro p target dir start count may moving busy good refused
    have hexec : exec .cfgOpen s =
        .next (replied s f m src (plain (cfgOpenTaken target dir start count src t))) := by
      rw [exec_cfgOpen_dispatched h hk hlen]
      unfold actCfgOpen
      rw [if_neg (fun hbank => hbank.2 (hlocal hbank.1))]
    have hrefused {r : Result} (hr : openRefusal target dir start count src t = some r) : refused r := by
      rw [cfgOpenTaken_refused hr] at hexec
      exact hexec
    have hmay : (!mayControl t src) = true ↔ ¬ may := by
      rw [Bool.not_eq_true', ← Bool.not_eq_true, mayControl_iff]
    have hgood : (!openInRange target dir start count) = true ↔ ¬ good := by
      rw [Bool.not_eq_true', ← Bool.not_eq_true, openInRange_iff]
      rfl
    refine ⟨fun hnot => ?holder, fun hyes hmoves => ?moves, fun hyes hstill hbusy => ?busy,
      fun hyes hstill hfree hbad => ?bad, fun hyes hstill hfree hok => ?ok⟩
    case holder => exact hrefused (if_pos (hmay.2 hnot))
    case moves => exact hrefused ((if_neg fun hn => hmay.1 hn hyes).trans (if_pos hmoves))
    case busy => exact hrefused ((if_neg fun hn => hmay.1 hn hyes).trans ((if_neg hstill).trans (if_pos hbusy)))
    case bad =>
      exact hrefused ((if_neg fun hn => hmay.1 hn hyes).trans ((if_neg hstill).trans
        ((if_neg hfree).trans (if_pos (hgood.2 hbad)))))
    case ok =>
      have hnone : openRefusal target dir start count src t = none :=
        (if_neg fun hn => hmay.1 hn hyes).trans ((if_neg hstill).trans
          ((if_neg hfree).trans (if_neg fun hn => hgood.1 hn hok)))
      rw [cfgOpenTaken_opens hnone] at hexec
      exact ⟨_, hexec, opened_mode t.partTime⟩
  case staging =>
    intro o bs mine n
    have hexec : exec .cfgData s = .next (replied s f m src (dataAnswered (cfgDataTaken o bs src t))) := by
      rw [exec_cfgData_dispatched h hk hlow hhigh, actCfgData_fits hhigh]
    refine ⟨fun hclosed => ?closed, fun hopen hother => ?other, fun hmine hread => ?read,
      fun hmine hwrite hempty => ?empty, fun hmine hwrite hsome hover => ?overrun,
      fun hmine hwrite hsome hfit hstaged => ?staged⟩
    case closed =>
      rw [cfgDataTaken_refused (txnRefusal_closed hclosed)] at hexec
      exact hexec
    case other =>
      rw [cfgDataTaken_refused (txnRefusal_other hopen hother)] at hexec
      exact hexec
    case read =>
      rw [cfgDataTaken_mine hmine] at hexec
      dsimp only at hexec
      rw [if_pos hread] at hexec
      exact hexec
    case empty =>
      rw [cfgDataTaken_mine hmine] at hexec
      dsimp only at hexec
      rw [if_neg (by rw [hwrite]; nofun), if_pos hempty] at hexec
      exact hexec
    all_goals
      have hbytes : bs ≠ [] := List.ne_nil_of_length_pos hsome
      rw [cfgDataTaken_mine hmine] at hexec
      dsimp only at hexec
      rw [if_neg (by rw [hwrite]; nofun), if_neg hbytes] at hexec
    case overrun =>
      rw [if_pos hover] at hexec
      have hclosed := endTxn_closes { t with txn := { t.txn with lastFrame := t.partTime } }
      have hframe := endTxn_frame { t with txn := { t.txn with lastFrame := t.partTime } }
      refine ⟨_, hexec, (congrArg Txn.state hclosed :), (congrArg Txn.staged hclosed :), ?_⟩
      rw [hclosed]
      exact hframe
    case staged =>
      rw [if_neg (Nat.not_lt.2 hfit)] at hexec
      rw [← hstaged] at hfit
      exact ⟨_, hexec, rfl, (stage_length hfit).trans hstaged, fun i _ => stage_get hfit i⟩

end Sys2Proof.Machine
end

section
/-! No block reads the last-frame time of the transaction when it takes an installed image (R168, R169): every
operation of such an image gives the same in a state whose transaction was renewed. -/

namespace Sys2Proof.Machine

/-- The state with the transaction renewed at a time (R169). -/
def renewedAt (x : Time) (s : State) : State := { s with txn := { s.txn with lastFrame := x } }

/-! ### The Sound Engine -/

theorem soundIn_renewedAt {s t : State} (h : SoundFrame s t) (x : Time) :
    soundIn (renewedAt x s) t = renewedAt x t := by
  obtain ⟨so, po, rfl⟩ := h.exists_eq
  rfl

theorem startRequest_renewedAt (c : Nat) (held : Bool) (x : Time) (s : State) :
    startRequest c held (renewedAt x s) = renewedAt x (startRequest c held s) :=
  (startRequest_soundIn c held (renewedAt x s) s).trans (soundIn_renewedAt (.startRequest c held s) x)

theorem momentaryStart_renewedAt (c : Option Nat) (x : Time) (s : State) :
    momentaryStart c (renewedAt x s) = renewedAt x (momentaryStart c s) :=
  (momentaryStart_soundIn c (renewedAt x s) s).trans (soundIn_renewedAt (.momentaryStart c s) x)

theorem triggerEnd_renewedAt (c : Nat) (x : Time) (s : State) :
    triggerEnd c (renewedAt x s) = renewedAt x (triggerEnd c s) := by
  have hheld : cueHeld (renewedAt x s) c = cueHeld s c := rfl
  unfold triggerEnd
  rw [hheld]
  split <;> rfl

theorem fadeVoice_renewedAt (v : Nat) (x : Time) (s : State) :
    fadeVoice v (renewedAt x s) = renewedAt x (fadeVoice v s) := by
  have hvoice : voice (renewedAt x s) v = voice s v := rfl
  unfold fadeVoice
  rw [hvoice]
  dsimp only
  split
  · rfl
  · split <;> rfl

theorem foldl_renewedAt {β : Type} {f : State → β → State} {x : Time}
    (hf : ∀ s b, f (renewedAt x s) b = renewedAt x (f s b)) (l : List β) (s : State) :
    l.foldl f (renewedAt x s) = renewedAt x (l.foldl f s) := by
  induction l generalizing s with
  | nil => rfl
  | cons b l ih => rw [List.foldl_cons, List.foldl_cons, hf, ih]

theorem ite_renewedAt {p : Prop} [Decidable p] {x : Time} {s t s' t' : State} (hs : s' = renewedAt x s)
    (ht : t' = renewedAt x t) : (if p then s' else t') = renewedAt x (if p then s else t) := by
  rw [hs, ht]
  split <;> rfl

theorem ambientEnded_renewedAt (x : Time) (s : State) : ambientEnded (renewedAt x s) = renewedAt x (ambientEnded s) := by
  have hcue : ambientCue (renewedAt x s) = ambientCue s := rfl
  have hambient : (renewedAt x s).sound.ambient = s.sound.ambient := rfl
  unfold ambientEnded
  rw [hcue, hambient]
  split
  · exact triggerEnd_renewedAt _ x { s with sound := { s.sound with mode := .quiet, ambient := false } }
  · rfl

theorem goQuiet_renewedAt (x : Time) (s : State) : goQuiet (renewedAt x s) = renewedAt x (goQuiet s) := by
  rw [goQuiet_eq, goQuiet_eq, ambientEnded_renewedAt]
  exact foldl_renewedAt (fun u v => fadeVoice_renewedAt v x u) _ _

theorem ambientBegin_renewedAt (x : Time) (s : State) : ambientBegin (renewedAt x s) = renewedAt x (ambientBegin s) := by
  have hcue (u : State) : ambientCue (renewedAt x u) = ambientCue u := rfl
  have hbegun : ({ renewedAt x s with sound := { (renewedAt x s).sound with ambient := true } } : State) =
      renewedAt x { s with sound := { s.sound with ambient := true } } := rfl
  unfold ambientBegin
  rw [hbegun]
  dsimp only
  rw [hcue]
  split
  · exact startRequest_renewedAt _ true x _
  · rfl

theorem ambientChanged_renewedAt (old : Option Nat) (x : Time) (s : State) :
    ambientChanged old (renewedAt x s) = renewedAt x (ambientChanged old s) := by
  refine ite_renewedAt ?_ rfl
  cases old with
  | none => exact ambientBegin_renewedAt x s
  | some c => exact (congrArg ambientBegin (triggerEnd_renewedAt c x s)).trans (ambientBegin_renewedAt x _)

theorem updateMode_renewedAt (x : Time) (s : State) : updateMode (renewedAt x s) = renewedAt x (updateMode s) := by
  have hmode : (renewedAt x s).sound.mode = s.sound.mode := rfl
  have hcause : quietCause (renewedAt x s) = quietCause s := rfl
  unfold updateMode
  rw [hmode, hcause]
  split
  · exact goQuiet_renewedAt x s
  · exact ite_renewedAt (ambientBegin_renewedAt x { s with sound := { s.sound with mode := .normal } }) rfl
  · rfl

/-! ### The features and the directions (R27, R102) -/

theorem cuesTurned_renewedAt (x y : Time) (old s : State) :
    cuesTurned (renewedAt y old) (renewedAt x s) = renewedAt x (cuesTurned old s) := by
  have hended := foldl_renewedAt (f := fun u c => triggerEnd c u) (fun u c => triggerEnd_renewedAt c x u)
    ((List.range 32).filter (fun c => asked old (9 + c) && !asked s (9 + c))) s
  have hbegun := foldl_renewedAt (f := fun u c => startRequest c true u)
    (fun u c => startRequest_renewedAt c true x u)
    ((List.range 32).filter (fun c => !asked old (9 + c) && asked s (9 + c)))
    (((List.range 32).filter (fun c => asked old (9 + c) && !asked s (9 + c))).foldl (fun u c => triggerEnd c u) s)
  exact (congrArg (fun u => List.foldl _ u _) hended).trans hbegun

theorem cuesHeard_renewedAt (x y : Time) (old s : State) :
    cuesHeard (renewedAt y old) (renewedAt x s) = renewedAt x (cuesHeard old s) := by
  rw [cuesHeard_eq, cuesHeard_eq, cuesTurned_renewedAt]
  refine ite_renewedAt ?_ rfl
  exact momentaryStart_renewedAt _ x
    { cuesTurned old s with demand := { (cuesTurned old s).demand with step := 0 } }

theorem enterSmoke_renewedAt (st : SmokeState) (x : Time) (s : State) :
    enterSmoke st (renewedAt x s) = renewedAt x (enterSmoke st s) := by
  have hfan (u : State) : fanOnEntry st (renewedAt x u) = renewedAt x (fanOnEntry st u) := by
    unfold fanOnEntry
    cases st with
    | heating | ready | fault => rfl
    | off | shed => exact ite_renewedAt rfl rfl
  have hentry := ite_renewedAt (p := s.smoke.state = st) (s := s) rfl (hfan { s with smoke := { s.smoke with state := st } })
  exact congrArg (fun u : State => applyHeater { u with
    smoke := { u.smoke with demand := heaterDemand u st }
    freeCount := if u.smoke.temp.isNone then u.freeCount + 1 else u.freeCount }) hentry

theorem smokeDecide_renewedAt (x : Time) (s : State) : smokeDecide (renewedAt x s) = renewedAt x (smokeDecide s) :=
  ite_renewedAt rfl (ite_renewedAt rfl (enterSmoke_renewedAt _ x s))

theorem featureEvents_renewedAt (x y : Time) (old s : State) :
    featureEvents (renewedAt y old) (renewedAt x s) = renewedAt x (featureEvents old s) := by
  rw [featureEvents_eq, featureEvents_eq, cuesHeard_renewedAt, smokeDecide_renewedAt]
  exact ite_renewedAt rfl rfl

theorem flipApplied_renewedAt (d : Dir) (x : Time) (s : State) :
    flipApplied d (renewedAt x s) = renewedAt x (flipApplied d s) := by
  have hturned : turned d (renewedAt x s) = renewedAt x (turned d s) := ite_renewedAt rfl rfl
  rw [flipApplied_eq, flipApplied_eq, hturned]
  exact featureEvents_renewedAt x x s _

theorem reconcile_renewedAt (agreed : Bool) (x : Time) (s : State) :
    reconcile agreed (renewedAt x s) = renewedAt x (reconcile agreed s) := by
  have hturns : (if pubStands s then flipApplied (wantedDir s) (renewedAt x s)
      else { renewedAt x s with demand := { s.demand with pending := true } }) =
      renewedAt x (if pubStands s then flipApplied (wantedDir s) s
        else { s with demand := { s.demand with pending := true } }) :=
    ite_renewedAt (flipApplied_renewedAt _ x s) rfl
  refine ite_renewedAt rfl (ite_renewedAt ?_ hturns)
  exact (congrArg (momentaryStart (namedCue (set8 s 455))) hturns).trans (momentaryStart_renewedAt _ x _)

theorem consistTold_renewedAt (x y : Time) (old s : State) :
    consistTold (renewedAt y old) (renewedAt x s) = renewedAt x (consistTold old s) := by
  have hkept : Steer.beaconKept (renewedAt y old) (renewedAt x s) = renewedAt x (Steer.beaconKept old s) := by
    have hfound : findHold (renewedAt x s) .beacon = findHold s .beacon := rfl
    unfold Steer.beaconKept
    rw [hfound]
    split
    · exact ite_renewedAt rfl rfl
    · rfl
  rw [Steer.consistTold_eq, Steer.consistTold_eq, hkept, reconcile_renewedAt]
  exact ite_renewedAt rfl rfl

/-! ### The tables (R45, R52, R69, R73) -/

theorem endTxn_renewedAt (x : Time) (s : State) : endTxn (renewedAt x s) = renewedAt x (endTxn s) :=
  updateMode_renewedAt x { s with txn := { s.txn with state := .closed, staged := [] } }

theorem abortTxnOf_renewedAt (src : Source) (x : Time) (s : State) :
    abortTxnOf src (renewedAt x s) = renewedAt x (abortTxnOf src s) := ite_renewedAt (endTxn_renewedAt x s) rfl

theorem forgetIfDue_renewedAt (i : Nat) (x : Time) (s : State) :
    forgetIfDue i (renewedAt x s) = renewedAt x (forgetIfDue i s) := by
  by_cases h : Forgets i s
  · have h' : Forgets i (renewedAt x s) := h
    rw [forgetIfDue_forgets h, forgetIfDue_forgets h']
    exact abortTxnOf_renewedAt (.throttle i) x (setEntry i none s)
  · have h' : ¬ Forgets i (renewedAt x s) := h
    rw [forgetIfDue_keeps h, forgetIfDue_keeps h']

theorem removeItems_renewedAt (i : Nat) (test : HolderItem → Bool) (x : Time) (s : State) :
    removeItems (.throttle i) test (renewedAt x s) = renewedAt x (removeItems (.throttle i) test s) := by
  by_cases hd : LosesDrive i test s
  · have hd' : LosesDrive i test (renewedAt x s) := hd
    rw [removeItems_losesDrive hd, removeItems_losesDrive hd']
    exact (congrArg (forgetIfDue i) (abortTxnOf_renewedAt (.throttle i) x (itemsRemoved i test s))).trans
      (forgetIfDue_renewedAt i x _)
  · have hd' : ¬ LosesDrive i test (renewedAt x s) := hd
    by_cases hg : LosesGroup i test s
    · have hg' : LosesGroup i test (renewedAt x s) := hg
      rw [removeItems_losesGroup hd hg, removeItems_losesGroup hd' hg']
      exact forgetIfDue_renewedAt i x (itemsRemoved i test s)
    · have hg' : ¬ LosesGroup i test (renewedAt x s) := hg
      rw [removeItems_losesNone hd hg, removeItems_losesNone hd' hg']
      rfl

theorem lostNotice_renewedAt (i : Nat) (x : Time) (s : State) :
    lostNotice i (renewedAt x s) = renewedAt x (lostNotice i s) := by
  have hleft : (if set8 s 11 = 0 then removeItems (.throttle i) (fun _ => true) (renewedAt x s)
      else reserveItems i (later s.partTime (set8 s 11 * 1000)) (renewedAt x s)) =
      renewedAt x (if set8 s 11 = 0 then removeItems (.throttle i) (fun _ => true) s
        else reserveItems i (later s.partTime (set8 s 11 * 1000)) s) :=
    ite_renewedAt (removeItems_renewedAt i _ x s) rfl
  have hnotice (t : State) : (if driveActive s && !driveActive (renewedAt x t) then requestRadioLoss (renewedAt x t)
      else renewedAt x t) = renewedAt x (if driveActive s && !driveActive t then requestRadioLoss t else t) :=
    ite_renewedAt rfl rfl
  exact (congrArg (fun t => if driveActive s && !driveActive t then requestRadioLoss t else t) hleft).trans (hnotice _)

theorem silenceIfDue_renewedAt (i : Nat) (x : Time) (s : State) :
    silenceIfDue i (renewedAt x s) = renewedAt x (silenceIfDue i s) := by
  have hentry : entry (renewedAt x s) i = entry s i := rfl
  unfold silenceIfDue
  rw [hentry]
  split
  · next e he =>
    refine ite_renewedAt ?_ rfl
    exact (congrArg (forgetIfDue i)
      (lostNotice_renewedAt i x (setEntry i (some { e with lostSince := some s.partTime }) s))).trans
      (forgetIfDue_renewedAt i x _)
  · rfl

theorem throttleTimesChanged_renewedAt (x y : Time) (old s : State) :
    throttleTimesChanged (renewedAt y old) (renewedAt x s) = renewedAt x (throttleTimesChanged old s) := by
  have hlost : (if set8 s 10 < set8 old 10 then (List.range 16).foldl (fun s i => silenceIfDue i s) (renewedAt x s)
      else renewedAt x s) = renewedAt x
        (if set8 s 10 < set8 old 10 then (List.range 16).foldl (fun s i => silenceIfDue i s) s else s) :=
    ite_renewedAt (foldl_renewedAt (fun u i => silenceIfDue_renewedAt i x u) _ s) rfl
  have hforgotten (t : State) : (if set8 t 12 < set8 old 12 then
      (List.range 16).foldl (fun s i => forgetIfDue i s) (renewedAt x t) else renewedAt x t) =
      renewedAt x (if set8 t 12 < set8 old 12 then (List.range 16).foldl (fun s i => forgetIfDue i s) t else t) :=
    ite_renewedAt (foldl_renewedAt (fun u i => forgetIfDue_renewedAt i x u) _ t) rfl
  have hset (u : State) (k : Nat) (z : Time) : set8 (renewedAt z u) k = set8 u k := rfl
  unfold throttleTimesChanged
  dsimp only
  rw [hset, hset, hset, hlost, hset]
  exact hforgotten _

/-! ### An installed image (R168) -/

/-- What the outputs, the Motor Loop, the Smoke Controller and the Beacon Receiver make of a new image. -/
def blocksTold (old s : State) : State :=
  periodChanged old (setpointChanged old (chuffSourceChanged old (effectsChanged old s)))

theorem settingsInstalled_eq (old s : State) : settingsInstalled old s =
    throttleTimesChanged old (ambientChanged (ambientCue old) (blocksTold old
      (consistTold old (featureEvents old s)))) := rfl

theorem blocksTold_renewedAt (x y : Time) (old s : State) :
    blocksTold (renewedAt y old) (renewedAt x s) = renewedAt x (blocksTold old s) := by
  have hchuff (u : State) : chuffSourceChanged (renewedAt y old) (renewedAt x u) = renewedAt x (chuffSourceChanged old u) :=
    ite_renewedAt rfl rfl
  have hsetpoint (u : State) : setpointChanged (renewedAt y old) (renewedAt x u) = renewedAt x (setpointChanged old u) :=
    ite_renewedAt rfl rfl
  have hperiod (u : State) : periodChanged (renewedAt y old) (renewedAt x u) = renewedAt x (periodChanged old u) :=
    ite_renewedAt rfl rfl
  have heffects : effectsChanged (renewedAt y old) (renewedAt x s) = renewedAt x (effectsChanged old s) := rfl
  unfold blocksTold
  rw [heffects, hchuff, hsetpoint, hperiod]

theorem settingsInstalled_renewedAt (x y : Time) (old s : State) :
    settingsInstalled (renewedAt y old) (renewedAt x s) = renewedAt x (settingsInstalled old s) := by
  have hcue : ambientCue (renewedAt y old) = ambientCue old := rfl
  rw [settingsInstalled_eq, settingsInstalled_eq, featureEvents_renewedAt, consistTold_renewedAt, blocksTold_renewedAt, hcue,
    ambientChanged_renewedAt, throttleTimesChanged_renewedAt]

end Sys2Proof.Machine
end

section
/-! What an installed image leaves alone, the mode it leaves, and CFG_CLOSE (R130, R168, R171); O54. -/

namespace Sys2Proof.Machine

/-! ### The throttle times (R53) -/

/-- Everything but what a lost or a forgotten entry touches is the same. -/
def TableFrame (s t : State) : Prop :=
  t = { s with throttles := t.throttles, drive := t.drive, groups := t.groups, holds := t.holds, txn := t.txn
               sound := t.sound, port := t.port }

namespace TableFrame

theorem refl (s : State) : TableFrame s s := rfl

theorem trans {a b c : State} (h : TableFrame a b) (k : TableFrame b c) : TableFrame a c := by
  unfold TableFrame at h k
  rw [h] at k
  exact k

theorem of_ledger {s t : State} (h : LedgerFrame s t) : TableFrame s t := by
  have hd : t.drive = s.drive := (congrArg State.drive h :)
  have hg : t.groups = s.groups := (congrArg State.groups h :)
  have hh : t.holds = s.holds := (congrArg State.holds h :)
  unfold TableFrame
  rw [hd, hg, hh]
  exact h

theorem foldl {β : Type} {f : State → β → State} (hf : ∀ s b, TableFrame s (f s b)) (l : List β) (s : State) :
    TableFrame s (l.foldl f s) := by
  induction l generalizing s with
  | nil => rfl
  | cons b l ih => exact (hf s b).trans (ih _)

theorem ite {p : Prop} [Decidable p] {s t : State} (h : TableFrame s t) : TableFrame s (if p then t else s) := by
  split
  · exact h
  · rfl

theorem removeItems (i : Nat) (test : HolderItem → Bool) (s : State) :
    TableFrame s (removeItems (.throttle i) test s) := by
  have hremoved : TableFrame s (itemsRemoved i test s) := rfl
  exact hremoved.trans (of_ledger (removeItems_frame i test s))

theorem lostNotice (i : Nat) (s : State) : TableFrame s (lostNotice i s) := by
  have hleft : TableFrame s (if set8 s 11 = 0 then Machine.removeItems (.throttle i) (fun _ => true) s
      else reserveItems i (later s.partTime (set8 s 11 * 1000)) s) := by
    split
    · exact removeItems i _ s
    · rfl
  have hnotice (t : State) : TableFrame t (if driveActive s && !driveActive t then requestRadioLoss t else t) :=
    ite rfl
  exact hleft.trans (hnotice _)

theorem silenceIfDue (i : Nat) (s : State) : TableFrame s (silenceIfDue i s) := by
  unfold Machine.silenceIfDue
  split
  · next e he =>
    refine ite ?_
    have hset : TableFrame s (setEntry i (some { e with lostSince := some s.partTime }) s) := rfl
    exact (hset.trans (lostNotice i _)).trans (of_ledger (forgetIfDue_frame i _))
  · rfl

theorem throttleTimesChanged (old s : State) : TableFrame s (throttleTimesChanged old s) := by
  have hlost : TableFrame s (if set8 s 10 < set8 old 10
      then (List.range 16).foldl (fun s i => Machine.silenceIfDue i s) s else s) :=
    ite (foldl (fun u i => silenceIfDue i u) _ s)
  have hforgotten (t : State) : TableFrame t (if set8 t 12 < set8 old 12
      then (List.range 16).foldl (fun s i => forgetIfDue i s) t else t) :=
    ite (foldl (fun u i => of_ledger (forgetIfDue_frame i u)) _ t)
  unfold Machine.throttleTimesChanged
  exact hlost.trans (hforgotten _)

end TableFrame

/-! ### An installed image (R168) -/

/-- The direction, the features and the hold list follow a new image (R27, R41, R102). -/
def motionTold (old s : State) : State := consistTold old (featureEvents old s)

theorem motionTold_frame (old s : State) : PeriodFrame s (motionTold old s) :=
  (periodFrame_turnLaws.featureEvents old s).trans (periodFrame_turnLaws.consistTold old _)

theorem blocksTold_eq (old s : State) : blocksTold old s = { s with
    outputs := s.outputs.mapIdx (fun n o => if effectOf s n = effectOf old n then o else o.restart)
    motor := if set8 s 71 = set8 old 71 then s.motor
      else { s.motor with chuffAcc := 0, camLevel := .low, camStable := 0, camArmed := true }
    smoke := if set16 s 224 = set16 old 224 then s.smoke
      else { s.smoke with limit := max s.smoke.limit (smokeSetpoint s + 60) }
    beacon := if set8 s 706 = set8 old 706 then s.beacon else (samplePeriodChanged s).beacon } := by
  have hchuff (u : State) : chuffSourceChanged old u = { u with
      motor := if set8 u 71 = set8 old 71 then u.motor
        else { u.motor with chuffAcc := 0, camLevel := .low, camStable := 0, camArmed := true } } := by
    unfold chuffSourceChanged
    split <;> rfl
  have hsetpoint (u : State) : setpointChanged old u = { u with
      smoke := if set16 u 224 = set16 old 224 then u.smoke
        else { u.smoke with limit := max u.smoke.limit (smokeSetpoint u + 60) } } := by
    unfold setpointChanged
    split <;> rfl
  have hperiod (u : State) : periodChanged old u = { u with
      beacon := if set8 u 706 = set8 old 706 then u.beacon else (samplePeriodChanged u).beacon } := by
    unfold periodChanged
    split <;> rfl
  unfold blocksTold
  rw [hperiod, hsetpoint, hchuff]
  rfl

theorem ambientChanged_frame (old : Option Nat) (s : State) : SoundFrame s (ambientChanged old s) := by
  unfold ambientChanged
  split
  · refine SoundFrame.trans ?_ (.ambientBegin _)
    split
    · exact .triggerEnd _ s
    · rfl
  · rfl

/-- Everything but what an installed image reaches is the same. -/
def InstallFrame (s t : State) : Prop :=
  t = { s with
    motor := t.motor, demand := t.demand, holds := t.holds, sound := t.sound, port := t.port, smoke := t.smoke
    freeCount := t.freeCount, outputs := t.outputs, beacon := t.beacon, throttles := t.throttles, drive := t.drive
    groups := t.groups, txn := t.txn }

theorem InstallFrame.trans {a b c : State} (h : InstallFrame a b) (k : InstallFrame b c) : InstallFrame a c := by
  unfold InstallFrame at h k
  rw [h] at k
  exact k

theorem settingsInstalled_frame (old s : State) : InstallFrame s (settingsInstalled old s) := by
  have hmotion : InstallFrame s (motionTold old s) := by
    have h := motionTold_frame old s
    generalize motionTold old s = t at *
    rw [h]
    rfl
  have hblocks (u : State) : InstallFrame u (blocksTold old u) := by
    have h := blocksTold_eq old u
    generalize blocksTold old u = t at *
    rw [h]
    rfl
  have hambient (u : State) : InstallFrame u (ambientChanged (ambientCue old) u) := by
    have h := ambientChanged_frame (ambientCue old) u
    generalize ambientChanged (ambientCue old) u = t at *
    rw [h]
    rfl
  have htimes (u : State) : InstallFrame u (throttleTimesChanged old u) := by
    have h := TableFrame.throttleTimesChanged old u
    generalize throttleTimesChanged old u = t at *
    rw [h]
    rfl
  rw [settingsInstalled_eq]
  exact ((hmotion.trans (hblocks _)).trans (hambient _)).trans (htimes _)

/-- The tables keep the target of the transaction. -/
theorem target_tableLaws : TableLaws (fun s t => t.txn.target = s.txn.target) where
  refl _ := rfl
  trans h h' := h'.trans h
  table _ _ _ _ _ := rfl
  endTxn s := (congrArg Txn.target (endTxn_closes s) :)
  radioLoss _ := rfl
  removeHold _ _ := rfl
  activity s := (congrArg (fun u : State => u.txn.target) (activity_offLoads s) :)

theorem settingsInstalled_target (old s : State) : (settingsInstalled old s).txn.target = s.txn.target := by
  have hperiod (u : State) : (periodChanged old u).txn = u.txn := by unfold periodChanged; split <;> rfl
  have hsetpoint (u : State) : (setpointChanged old u).txn = u.txn := by unfold setpointChanged; split <;> rfl
  have hchuff (u : State) : (chuffSourceChanged old u).txn = u.txn := by unfold chuffSourceChanged; split <;> rfl
  refine settingsInstalled_keeps target_tableLaws old s ?_ (fun _ => rfl) (fun u => ?_) (fun u => ?_) (fun u => ?_)
    (fun c u => ?_)
  · exact (congrArg (fun u : State => u.txn.target) (motionTold_frame old s) :)
  · rw [hchuff]
  · rw [hsetpoint]
  · rw [hperiod]
  · exact (congrArg (fun u : State => u.txn.target) (ambientChanged_frame c u) :)

/-! ### The engine is QUIET just while a cause holds (R130) -/

/-- A step that keeps the mode fitting its causes. -/
def ModeStep (s t : State) : Prop := ModeFits s → ModeFits t

theorem ModeStep.of_offSmoke {s t : State} (h : t.offSmoke = s.offSmoke) : ModeStep s t :=
  ModeFits.of_eq (congrArg (fun u : State => u.sound.mode) h :) (congrArg quietCause h :)

theorem modeStep_locoLaws : LocoLaws ModeStep where
  refl _ := id
  trans h h' := h' ∘ h
  start c held s := ModeFits.of_step (startRequest_tidyStep c held s).toSoundStep
  trigger c s := ModeFits.of_step (triggerEnd_spanStep c s).tidyStep.toSoundStep
  decide s := .of_offSmoke (smokeDecide_offSmoke s)
  chuffed s := .of_offSmoke (smokeChuff_offSmoke s)
  demand _ _ := ModeFits.of_eq rfl rfl
  holds _ _ := ModeFits.of_eq rfl rfl
  switches _ _ := ModeFits.of_eq rfl rfl
  turn d s := by
    unfold turned abandonCheck
    split <;> exact ModeFits.of_eq rfl rfl
  activity s := by
    by_cases h : s.supply.state = .parked
    · rw [activity_parked h]
      exact fun _ => (soundSupplyChange_move _).2.1
    · rw [activity_awake h]
      exact ModeFits.of_eq rfl rfl

theorem settingsInstalled_mode (old s : State) : ModeStep s (settingsInstalled old s) := by
  refine settingsInstalled_keeps (modeStep_locoLaws.tableLaws (fun _ _ _ _ _ => ModeFits.of_eq rfl rfl)
      fun s _ => (updateMode_move _).2.1) old s ?_ (fun _ => ModeFits.of_eq rfl rfl) (fun u => ?_) (fun u => ?_) (fun u => ?_)
    (fun c u => ModeFits.of_step (ambientChanged_tidyStep c u).toSoundStep)
  · exact modeStep_locoLaws.trans (modeStep_locoLaws.featureEvents old s) (modeStep_locoLaws.consistTold old _)
  · unfold chuffSourceChanged
    split <;> exact ModeFits.of_eq rfl rfl
  · unfold setpointChanged
    split <;> exact ModeFits.of_eq rfl rfl
  · unfold periodChanged
    split <;> exact ModeFits.of_eq rfl rfl

theorem VoicesSound.modeFits {s : State} (h : VoicesSound s) : ModeFits s := h.mode.trans (quietCause_iff s).symm

/-- The end of a SETTINGS transaction moves no mode. -/
theorem endTxn_stays {s : State} (h : ModeFits s) (ht : s.txn.target = .settings) :
    endTxn s = { s with txn := { s.txn with state := .closed, staged := [] } } := by
  have hnot : s.txn.target ≠ .bank := by rw [ht]; nofun
  refine updateMode_stays (h.of_eq (s := s) rfl ?_)
  rw [Bool.eq_iff_iff, quietCause_iff, quietCause_iff]
  refine or_congr_right (or_congr_right (or_congr_left ?_))
  exact iff_of_false (fun hc => hc.1 rfl) (fun hc => hnot hc.2)

/-! ### CFG_CLOSE (R171) -/

theorem exec_cfgClose_dispatched {s t : State} {f : Frame} {m : Mark} {src : Source} (h : Dispatched s f m src t)
    (hk : f.kind = 0x12) : exec .cfgClose s = .next (replied s f m src
      (.status (cfgCloseTaken src t).1 (cfgCloseTaken src t).2.1, (cfgCloseTaken src t).2.2)) := by
  have hrow : exec .cfgClose s = .next (takeRequest (ofKind 0x12) actCfgClose s) := rfl
  rw [exec_taken_dispatched hrow h (ofKind_of_kind_eq hk)]
  rfl

section Close

variable {src : Source} {s : State}

theorem cfgCloseTaken_refused {r : Result} (h : txnRefusal src s = some r) : cfgCloseTaken src s = (r, 0, s) := by
  unfold cfgCloseTaken
  rw [h]

theorem cfgCloseTaken_mine (h : OpenBy src s) : cfgCloseTaken src s =
    if s.txn.state = .openRead then (.ok, 0, endTxn (renewedAt s.partTime s))
    else if (!fullyStaged s) = true then (.cfgShort, 0, endTxn (renewedAt s.partTime s))
    else if s.txn.target = .settings then closeSettings (renewedAt s.partTime s)
    else if s.job = .save then (.cfgBusy, 0, renewedAt s.partTime s)
    else (.ok, 0, closeBank (renewedAt s.partTime s)) := by
  unfold cfgCloseTaken
  rw [txnRefusal_mine h, renewTxn_mine h]
  rfl

theorem fullyStaged_iff : fullyStaged s = true ↔ ∀ x ∈ s.txn.staged, x.isSome = true := List.all_eq_true

/-- A closed transaction: its state and its staged buffer, and both memories as they stand. -/
theorem endTxn_leaves (x : Time) (s : State) :
    let u := endTxn (renewedAt x s)
    u.txn.state = .closed ∧ u.txn.staged = [] ∧ u.flash = s.flash ∧ u.voiceRam = s.voiceRam ∧
      u = { s with txn := u.txn, sound := u.sound, port := u.port } := by
  intro u
  have hframe : u = { s with txn := u.txn, sound := u.sound, port := u.port } := by
    have htxn : u.txn = { s.txn with lastFrame := x, state := .closed, staged := [] } := endTxn_closes (renewedAt x s)
    rw [htxn]
    exact endTxn_frame (renewedAt x s)
  exact ⟨congrArg Txn.state (endTxn_closes (renewedAt x s)), congrArg Txn.staged (endTxn_closes (renewedAt x s)),
    (congrArg State.flash hframe :), (congrArg State.voiceRam hframe :), hframe⟩

/-- The image that the closing write of a SETTINGS transaction installs. -/
def closedImage (s : State) : List Byte :=
  checkedImage (inRange s.txn.start (stagedBytes s).length) (overlay s.settings s.txn.start (stagedBytes s))

/-- The state with the image of the closing write, unsaved. -/
def imageTaken (s : State) : State := { s with settings := closedImage s, unsaved := true, changedSinceCopy := true }

/-- The closing write of a SETTINGS transaction, whose renewal no block reads. -/
theorem closeSettings_renewed (x : Time) (s : State) :
    let n := differing (overlay s.settings s.txn.start (stagedBytes s)) (closedImage s)
    closeSettings (renewedAt x s) = (if 0 < n then .clamped else .ok, min 255 n,
      endTxn (renewedAt x (settingsInstalled s (imageTaken s)))) := by
  rw [← settingsInstalled_renewedAt x x]
  rfl

/-- What the closing write of a BANK transaction leaves. -/
theorem closeBank_leaves (x : Time) (s : State) :
    let u := closeBank (renewedAt x s)
    u.txn.state = .closed ∧ u.txn.staged = [] ∧ u.flash = s.flash ∧ u.voiceRam = s.voiceRam ∧ u.job = .bank ∧
      AsksFlash { who := .store, op := .writePage s.txn.start (stagedBytes s), entered := s.partTime } u ∧
      u = { s with txn := u.txn, sound := u.sound, port := u.port, job := .bank } := by
  intro u
  obtain ⟨hstate, hstaged, hflash, hram, hframe⟩ := endTxn_leaves x { s with job := .bank }
  let v := endTxn (renewedAt x { s with job := .bank })
  have hu : u = requestFlash .store (.writePage s.txn.start (stagedBytes s)) v := rfl
  have hport : u = { v with port := u.port } := requestFlash_port _ _ v
  have htxn : u.txn = v.txn := (congrArg State.txn hport :)
  have hasks := asksFlash_requestFlash .store (.writePage s.txn.start (stagedBytes s)) v
  have hnow : v.partTime = s.partTime := (congrArg State.partTime hframe :)
  have hjob : v.job = .bank := (congrArg State.job hframe :)
  rw [hnow, ← hu] at hasks
  have hall : u = { s with txn := u.txn, sound := u.sound, port := u.port, job := .bank } := by
    have hv : v = { s with txn := v.txn, sound := v.sound, port := v.port, job := .bank } := hframe
    clear_value u v
    rw [hport, hv]
  refine ⟨?_, ?_, (congrArg State.flash hall :), (congrArg State.voiceRam hall :), (congrArg State.job hall :), hasks, hall⟩
  · rw [htxn]
    exact hstate
  · rw [htxn]
    exact hstaged

end Close

/-- Settles O54. -/
theorem cfgCloseApplies : Obligations.CfgCloseApplies := by
  unfold Obligations.CfgCloseApplies
  intro s f m src t h hk bytes full mine closes
  have hexec := exec_cfgClose_dispatched h hk
  have hfull : (!fullyStaged t) = true ↔ ¬ full := by
    rw [Bool.not_eq_true', ← Bool.not_eq_true, fullyStaged_iff]
  have hends {r : Result} (hr : cfgCloseTaken src t = (r, 0, endTxn (renewedAt t.partTime t))) :
      ∃ u, closes r 0 u ∧ u = { t with txn := u.txn, sound := u.sound, port := u.port } := by
    obtain ⟨hstate, hstaged, hflash, hram, hframe⟩ := endTxn_leaves t.partTime t
    rw [hr] at hexec
    exact ⟨_, ⟨hexec, hstate, hstaged, hflash, hram⟩, hframe⟩
  refine ⟨fun hclosed => ?closed, fun hopen hother => ?other, fun hmine hread => ?read, fun hmine hwrite hpart => ?short,
    fun hmine hwrite hall hset => ?settings, fun hmine hwrite hall hbank hsave => ?busy,
    fun hmine hwrite hall hbank hfree => ?bank⟩
  case closed =>
    rw [cfgCloseTaken_refused (txnRefusal_closed hclosed)] at hexec
    exact hexec
  case other =>
    rw [cfgCloseTaken_refused (txnRefusal_other hopen hother)] at hexec
    exact hexec
  case read => exact hends ((cfgCloseTaken_mine hmine).trans (if_pos hread))
  all_goals have hnotread : t.txn.state ≠ .openRead := by rw [hwrite]; nofun
  case short => exact hends ((cfgCloseTaken_mine hmine).trans ((if_neg hnotread).trans (if_pos (hfull.2 hpart))))
  all_goals
    have hnotshort : ¬ (!fullyStaged t) = true := fun hs => hfull.1 hs hall
    have htaken := (cfgCloseTaken_mine hmine).trans ((if_neg hnotread).trans (if_neg hnotshort))
  case settings =>
    let v := settingsInstalled t (imageTaken t)
    have hv : InstallFrame (imageTaken t) v := settingsInstalled_frame t (imageTaken t)
    have htarget : v.txn.target = .settings := (settingsInstalled_target t (imageTaken t)).trans hset
    obtain ⟨hstate, hstaged, hflash, hram, hframe⟩ := endTxn_leaves t.partTime v
    rw [htaken.trans (if_pos hset), closeSettings_renewed] at hexec
    have hmode (hvoices : VoicesSound t) : endTxn (renewedAt t.partTime v) = { v with
        txn := (endTxn (renewedAt t.partTime v)).txn } := by
      have hfits : ModeFits v := settingsInstalled_mode t (imageTaken t) (hvoices.modeFits.of_eq (s := t) rfl rfl)
      rw [endTxn_stays (s := renewedAt t.partTime v) (hfits.of_eq (s := v) rfl rfl) htarget]
      rfl
    have hword : (if 0 < differing (overlay t.settings t.txn.start (stagedBytes t)) (closedImage t) then Result.clamped
        else .ok) = if differing (overlay t.settings t.txn.start (stagedBytes t)) (closedImage t) = 0 then .ok
          else .clamped := by
      split
      · rw [if_neg (by omega)]
      · rw [if_pos (by omega)]
    rw [hword] at hexec
    generalize endTxn (renewedAt t.partTime v) = u at *
    have hf : u.flash = t.flash := hflash.trans (congrArg State.flash hv :)
    refine ⟨u, ⟨hexec, hstate, hstaged, hf, hram.trans (congrArg State.voiceRam hv :)⟩,
      (congrArg State.settings hframe :).trans (congrArg State.settings hv :),
      (congrArg State.unsaved hframe :).trans (congrArg State.unsaved hv :), hmode,
      (congrArg State.switches hframe :).trans (congrArg State.switches hv :),
      (congrArg State.partTime hframe :).trans (congrArg State.partTime hv :), hf⟩
  all_goals
    have hnotset : t.txn.target ≠ .settings := by rw [hbank]; nofun
  case busy =>
    rw [htaken.trans ((if_neg hnotset).trans (if_pos hsave))] at hexec
    exact hexec
  case bank =>
    obtain ⟨hstate, hstaged, hflash, hram, hjob, hasks, hframe⟩ := closeBank_leaves t.partTime t
    rw [htaken.trans ((if_neg hnotset).trans (if_neg hfree))] at hexec
    exact ⟨_, ⟨hexec, hstate, hstaged, hflash, hram⟩, hjob, hasks, hframe⟩

end Sys2Proof.Machine
end

section
/-! What an installed image brings about at once in the blocks (R2, R53, R103, R135, R136, R166, R168); O56. -/

namespace Sys2Proof.Machine

/-! ### Shortened throttle times (R53) -/

/-- Entries only go, or become LOST; part time and the settings stand. -/
structure OnlyFades (s t : State) : Prop where
  time : t.partTime = s.partTime
  settings : t.settings = s.settings
  entries : ∀ i e, entry t i = some e → ∃ e₀, entry s i = some e₀ ∧ (e.lostSince = none → e = e₀)

namespace OnlyFades

theorem refl (s : State) : OnlyFades s s := ⟨rfl, rfl, fun _ e he => ⟨e, he, fun _ => rfl⟩⟩

theorem trans {a b c : State} (h : OnlyFades a b) (k : OnlyFades b c) : OnlyFades a c := by
  refine ⟨k.time.trans h.time, k.settings.trans h.settings, fun i e he => ?_⟩
  obtain ⟨e₁, he₁, hsame₁⟩ := k.entries i e he
  obtain ⟨e₀, he₀, hsame₀⟩ := h.entries i e₁ he₁
  refine ⟨e₀, he₀, fun hn => ?_⟩
  obtain rfl := hsame₁ hn
  exact hsame₀ hn

theorem foldl {f : State → Nat → State} (hf : ∀ s i, OnlyFades s (f s i)) (l : List Nat) (s : State) :
    OnlyFades s (l.foldl f s) := by
  induction l generalizing s with
  | nil => exact refl s
  | cons i l ih => exact (hf s i).trans (ih _)

theorem ite {p : Prop} [Decidable p] {s t : State} (h : OnlyFades s t) : OnlyFades s (if p then t else s) := by
  split
  · exact h
  · exact refl s

/-- One entry that was there becomes LOST or goes. -/
theorem of_set {s t : State} {i : Nat} {x : Option ThrottleEntry} (hf : TableFrame s t)
    (ht : t.throttles = s.throttles.set i x) (hx : ∀ e, x = some e → e.lostSince ≠ none ∧ ∃ e₀, entry s i = some e₀) :
    OnlyFades s t := by
  refine ⟨(congrArg State.partTime hf :), (congrArg State.settings hf :), fun j e he => ?_⟩
  unfold entry at he
  rw [ht, List.getD_eq_getElem?_getD, List.getElem?_set] at he
  by_cases hij : i = j
  · obtain rfl := hij
    rw [if_pos rfl] at he
    split at he
    · obtain ⟨hlost, e₀, he₀⟩ := hx e he
      exact ⟨e₀, he₀, fun hn => absurd hn hlost⟩
    · cases he
  · rw [if_neg hij, ← List.getD_eq_getElem?_getD] at he
    exact ⟨e, he, fun _ => rfl⟩

theorem of_same {s t : State} (hf : TableFrame s t) (ht : t.throttles = s.throttles) : OnlyFades s t := by
  refine ⟨(congrArg State.partTime hf :), (congrArg State.settings hf :), fun j e he => ⟨e, ?_, fun _ => rfl⟩⟩
  unfold entry at he ⊢
  rwa [ht] at he

theorem forgetIfDue (i : Nat) (s : State) : OnlyFades s (forgetIfDue i s) := by
  have hf := TableFrame.of_ledger (forgetIfDue_frame i s)
  obtain ⟨hgone, hstays⟩ := forgetIfDue_throttles i s
  by_cases h : Forgets i s
  · exact of_set hf (hgone h) nofun
  · exact of_same hf (hstays h)

end OnlyFades

/-- The table is a given one, or the given one without an entry. -/
def KeepsOrForgets (i : Nat) (l : List (Option ThrottleEntry)) (t : State) : Prop :=
  t.throttles = l ∨ t.throttles = l.set i none

theorem KeepsOrForgets.forgetIfDue {i : Nat} {l : List (Option ThrottleEntry)} {t : State} (h : KeepsOrForgets i l t) :
    KeepsOrForgets i l (forgetIfDue i t) := by
  obtain ⟨hgone, hstays⟩ := forgetIfDue_throttles i t
  by_cases hf : Forgets i t
  · refine .inr ((hgone hf).trans ?_)
    rcases h with h | h <;> rw [h]
    exact List.set_set ..
  · unfold KeepsOrForgets
    rw [hstays hf]
    exact h

theorem lostNotice_throttles (i : Nat) (s : State) : KeepsOrForgets i s.throttles (lostNotice i s) := by
  have hradio (p : Prop) [Decidable p] (t : State) : (if p then requestRadioLoss t else t).throttles = t.throttles := by
    split <;> rfl
  by_cases hw : set8 s 11 = 0
  · rw [lostNotice_removes hw]
    unfold KeepsOrForgets
    rw [hradio]
    exact (removeItems_throttles i _ s).imp_right (·.2)
  · rw [lostNotice_reserves (Nat.pos_of_ne_zero hw)]
    exact .inl (hradio _ _)

/-- At its silence limit an entry becomes LOST, or is forgotten too; before it the table stands. -/
theorem silenceIfDue_throttles (i : Nat) (s : State) :
    ((silenceIfDue i s).throttles = s.throttles ∧ ∀ e, entry s i = some e → silenceDue s e = false) ∨
    ∃ x, (silenceIfDue i s).throttles = s.throttles.set i x ∧
      ∀ e, x = some e → e.lostSince ≠ none ∧ ∃ e₀, entry s i = some e₀ := by
  unfold silenceIfDue
  split
  · next e he =>
    split
    · refine .inr ?_
      have hlost := (lostNotice_throttles i (setEntry i (some { e with lostSince := some s.partTime }) s)).forgetIfDue
      have hset : (setEntry i (some { e with lostSince := some s.partTime }) s).throttles =
        s.throttles.set i (some { e with lostSince := some s.partTime }) := rfl
      rw [hset] at hlost
      rcases hlost with h | h
      · refine ⟨_, h, fun e' he' => ?_⟩
        obtain rfl := Option.some.inj he'
        exact ⟨nofun, e, he⟩
      · exact ⟨none, h.trans (List.set_set ..), nofun⟩
    · next hdue =>
      refine .inl ⟨rfl, fun e' he' => ?_⟩
      obtain rfl := Option.some.inj (he.symm.trans he')
      exact Bool.eq_false_iff.2 hdue
  · next hnone => exact .inl ⟨rfl, fun e he => nomatch hnone.symm.trans he⟩

theorem OnlyFades.silenceIfDue (i : Nat) (s : State) : OnlyFades s (silenceIfDue i s) := by
  rcases silenceIfDue_throttles i s with ⟨h, -⟩ | ⟨x, h, hx⟩
  · exact of_same (TableFrame.silenceIfDue i s) h
  · exact of_set (TableFrame.silenceIfDue i s) h hx

/-- An ACTIVE entry is before its silence limit. -/
def WithinSilence (i : Nat) (s : State) : Prop :=
  ∀ e, entry s i = some e → e.lostSince = none → silenceDue s e = false

theorem WithinSilence.fades {i : Nat} {s t : State} (h : OnlyFades s t) (hs : WithinSilence i s) : WithinSilence i t := by
  intro e he hn
  obtain ⟨e₀, he₀, hsame⟩ := h.entries i e he
  obtain rfl := hsame hn
  unfold silenceDue set8
  rw [h.time, h.settings]
  exact hs e he₀ hn

theorem withinSilence_silenceIfDue (i : Nat) (s : State) : WithinSilence i (silenceIfDue i s) := by
  rcases silenceIfDue_throttles i s with ⟨h, hearly⟩ | ⟨x, h, hx⟩
  · exact WithinSilence.fades (.of_same (TableFrame.silenceIfDue i s) h) fun e he _ => hearly e he
  · intro e he hn
    unfold entry at he
    rw [h, List.getD_eq_getElem?_getD, List.getElem?_set, if_pos rfl] at he
    split at he
    · exact absurd hn (hx e he).1
    · cases he

/-- An entry forgotten after another has gone was to be forgotten before. -/
theorem not_forgets_after {i : Nat} {s : State} (j : Nat) (h : ¬ Forgets i s) : ¬ Forgets i (forgetIfDue j s) := by
  have hfades := OnlyFades.forgetIfDue j s
  have hframe := forgetIfDue_frame j s
  rintro ⟨hnamed, e, he, hdue⟩
  have hnamed₀ : namedByClaim s i = false := by
    have : namedByClaim (forgetIfDue j s) i = namedByClaim s i := (congrArg (namedByClaim · i) hframe :)
    rwa [← this]
  refine h ⟨hnamed₀, e, ?_, ?_⟩
  · obtain ⟨hgone, hstays⟩ := forgetIfDue_throttles j s
    unfold entry at he ⊢
    by_cases hf : Forgets j s
    · rw [hgone hf, List.getD_eq_getElem?_getD, List.getElem?_set] at he
      split at he
      · split at he <;> cases he
      · rwa [List.getD_eq_getElem?_getD]
    · rwa [hstays hf] at he
  · unfold forgetDue set8 at hdue ⊢
    rwa [hfades.time, hfades.settings] at hdue

/-- What each step of a fold brings about for its own index, and every step keeps, holds of every index at the end. -/
theorem foldl_establishes {P : Nat → State → Prop} {f : State → Nat → State} (hdone : ∀ s i, P i (f s i))
    (hkept : ∀ s i j, P i s → P i (f s j)) (l : List Nat) (s : State) : ∀ i ∈ l, P i (l.foldl f s) := by
  have hlast (l : List Nat) (s : State) (i : Nat) (h : P i s) : P i (l.foldl f s) := by
    induction l generalizing s with
    | nil => exact h
    | cons j l ih => exact ih _ (hkept s i j h)
  induction l generalizing s with
  | nil => exact fun i hi => nomatch hi
  | cons j l ih =>
    intro i hi
    rcases List.mem_cons.1 hi with rfl | hi
    · exact hlast l _ i (hdone s i)
    · exact ih _ i hi

/-- The entries that a shortened silence limit loses. -/
def silenced (old s : State) : State :=
  if set8 s 10 < set8 old 10 then (List.range 16).foldl (fun s i => silenceIfDue i s) s else s

theorem silenced_fades (old s : State) : OnlyFades s (silenced old s) :=
  OnlyFades.ite (.foldl (fun u i => .silenceIfDue i u) _ s)

theorem throttleTimesChanged_eq (old s : State) : throttleTimesChanged old s =
    if set8 s 12 < set8 old 12 then (List.range 16).foldl (fun s i => forgetIfDue i s) (silenced old s)
    else silenced old s := by
  have hset : set8 (silenced old s) 12 = set8 s 12 := by
    unfold set8
    rw [(silenced_fades old s).settings]
  rw [← hset]
  rfl

theorem throttleTimesChanged_fades (old s : State) : OnlyFades s (throttleTimesChanged old s) := by
  rw [throttleTimesChanged_eq]
  exact (silenced_fades old s).trans (.ite (.foldl (fun u i => .forgetIfDue i u) _ _))

theorem throttleTimesChanged_silence {old s : State} (h : set8 s 10 < set8 old 10) {i : Nat} (hi : i < 16) :
    WithinSilence i (throttleTimesChanged old s) := by
  have hlost : WithinSilence i (silenced old s) := by
    unfold silenced
    rw [if_pos h]
    exact foldl_establishes (P := WithinSilence) (fun u j => withinSilence_silenceIfDue j u)
      (fun u j k => WithinSilence.fades (.silenceIfDue k u)) _ s i (List.mem_range.2 hi)
  rw [throttleTimesChanged_eq]
  exact hlost.fades (.ite (.foldl (fun u j => .forgetIfDue j u) _ _))

theorem throttleTimesChanged_forgets {old s : State} (h : set8 s 12 < set8 old 12) {i : Nat} (hi : i < 16) :
    ¬ Forgets i (throttleTimesChanged old s) := by
  rw [throttleTimesChanged_eq, if_pos h]
  exact foldl_establishes (P := fun i u => ¬ Forgets i u) (fun u j => not_forgets_forgetIfDue j u)
    (fun u j k => not_forgets_after k) _ _ i (List.mem_range.2 hi)

theorem throttleTimesChanged_longer {old s : State} (hsilence : set8 old 10 ≤ set8 s 10) (hforget : set8 old 12 ≤ set8 s 12) :
    throttleTimesChanged old s = s := by
  rw [throttleTimesChanged_eq, if_neg (Nat.not_lt.2 hforget)]
  exact if_neg (Nat.not_lt.2 hsilence)

/-! ### What the direction and the features leave (R2, R136) -/

/-- The chuff accumulator and the cam's debounce state. -/
def Motor.chuffing (m : Motor) : Nat × Level × Nat × Bool := (m.chuffAcc, m.camLevel, m.camStable, m.camArmed)

/-- No turn of the locomotive touches the chuff accumulator, the cam or the overtemp limit. -/
theorem chuffing_turnLaws : TurnLaws (fun s t => t.motor.chuffing = s.motor.chuffing ∧ t.smoke.limit = s.smoke.limit) where
  refl _ := ⟨rfl, rfl⟩
  trans h h' := ⟨h'.1.trans h.1, h'.2.trans h.2⟩
  start c held s := by
    have h : SoundFrame s (startRequest c held s) := .startRequest c held s
    exact ⟨(congrArg (fun u : State => u.motor.chuffing) h :), (congrArg (fun u : State => u.smoke.limit) h :)⟩
  trigger c s := by
    have h : SoundFrame s (triggerEnd c s) := .triggerEnd c s
    exact ⟨(congrArg (fun u : State => u.motor.chuffing) h :), (congrArg (fun u : State => u.smoke.limit) h :)⟩
  decide s := by
    have hfan (st : SmokeState) (u : State) : (fanOnEntry st u).smoke.limit = u.smoke.limit := by
      unfold fanOnEntry
      split
      any_goals rfl
      all_goals
        split <;> rfl
    refine ⟨(congrArg (fun u : State => u.motor.chuffing) (smokeDecide_frame s) :), ?_⟩
    unfold smokeDecide
    split
    · rfl
    · dsimp only
      split
      · rfl
      · unfold enterSmoke
        dsimp only
        split
        · rfl
        · exact hfan _ _
  chuffed s := by
    unfold smokeChuff
    split <;> exact ⟨rfl, rfl⟩
  demand _ _ := ⟨rfl, rfl⟩
  holds _ _ := ⟨rfl, rfl⟩
  turn d s := by
    unfold turned abandonCheck
    split <;> exact ⟨rfl, rfl⟩

theorem motionTold_keeps (old s : State) : (motionTold old s).motor.chuffing = s.motor.chuffing ∧
    (motionTold old s).smoke.limit = s.smoke.limit :=
  chuffing_turnLaws.trans (chuffing_turnLaws.featureEvents old s) (chuffing_turnLaws.consistTold old _)

/-- A feature change leaves the applied direction alone. -/
theorem featureEvents_applied (old s : State) : (featureEvents old s).demand.applied = s.demand.applied := by
  have hdemand : (featureEvents old s).demand = (braked old s).demand :=
    (congrArg State.demand (featureEvents_offLoads old s) :)
  rw [hdemand]
  unfold braked
  split <;> rfl

/-- Under an unchanged reversed flag the direction stands, and the Smoke Controller where SMOKE is asked as before. -/
theorem motionTold_same {old s : State} (h : consistReversed s = consistReversed old) :
    (motionTold old s).demand.applied = s.demand.applied ∧
      (asked s 41 = asked old 41 → (motionTold old s).smoke = s.smoke) := by
  have hset : (featureEvents old s).settings = s.settings :=
    (congrArg State.settings (periodFrame_turnLaws.featureEvents old s) :)
  have hreversed : consistReversed (featureEvents old s) = consistReversed old := by
    rw [← h]
    unfold consistReversed set8
    rw [hset]
  obtain ⟨l, hl⟩ := Steer.beaconKept_frame old (featureEvents old s)
  have htold : motionTold old s = { featureEvents old s with holds := l } := by
    unfold motionTold
    rw [Steer.consistTold_eq, if_pos hreversed, hl]
  rw [htold]
  exact ⟨featureEvents_applied old s, featureEvents_smoke⟩

/-! ### The state that an installed image leaves -/

/-- The state in which the throttle times are looked at last. -/
def beforeTimes (old s : State) : State := ambientChanged (ambientCue old) (blocksTold old (motionTold old s))

theorem settingsInstalled_times (old s : State) : settingsInstalled old s = throttleTimesChanged old (beforeTimes old s) := rfl

theorem PeriodFrame.exists_eq {s t : State} (h : PeriodFrame s t) : ∃ m d l so po sm n,
    t = { s with motor := m, demand := d, holds := l, sound := so, port := po, smoke := sm, freeCount := n } :=
  ⟨_, _, _, _, _, _, _, h⟩

/-- What the blocks have made of the image, with the Sound Engine and the Flash Port as the ambient cue leaves them. -/
theorem beforeTimes_eq (old s : State) : ∃ so po, beforeTimes old s = { motionTold old s with
    sound := so, port := po
    outputs := s.outputs.mapIdx (fun n o => if effectOf s n = effectOf old n then o else o.restart)
    motor := if set8 s 71 = set8 old 71 then (motionTold old s).motor
      else { (motionTold old s).motor with chuffAcc := 0, camLevel := .low, camStable := 0, camArmed := true }
    smoke := if set16 s 224 = set16 old 224 then (motionTold old s).smoke
      else { (motionTold old s).smoke with limit := max s.smoke.limit (smokeSetpoint s + 60) }
    beacon := if set8 s 706 = set8 old 706 then s.beacon else (samplePeriodChanged s).beacon } := by
  obtain ⟨so, po, hambient⟩ := (ambientChanged_frame (ambientCue old) (blocksTold old (motionTold old s))).exists_eq
  have hmotion := motionTold_frame old s
  have hlimit := (motionTold_keeps old s).2
  refine ⟨so, po, hambient.trans ?_⟩
  rw [blocksTold_eq]
  generalize motionTold old s = v at *
  rw [← hlimit]
  obtain ⟨m, d, l, s₀, p₀, sm, n, rfl⟩ := hmotion.exists_eq
  rfl

/-- The blocks after an installed image, by what the direction and the features have left. -/
theorem settingsInstalled_blocks (old s : State) :
    let u := settingsInstalled old s
    u.outputs = s.outputs.mapIdx (fun n o => if effectOf s n = effectOf old n then o else o.restart) ∧
    u.motor = (if set8 s 71 = set8 old 71 then (motionTold old s).motor
      else { (motionTold old s).motor with chuffAcc := 0, camLevel := .low, camStable := 0, camArmed := true }) ∧
    u.smoke = (if set16 s 224 = set16 old 224 then (motionTold old s).smoke
      else { (motionTold old s).smoke with limit := max s.smoke.limit (smokeSetpoint s + 60) }) ∧
    u.beacon = (if set8 s 706 = set8 old 706 then s.beacon else (samplePeriodChanged s).beacon) ∧
    u.demand = (motionTold old s).demand := by
  intro u
  obtain ⟨so, po, hbefore⟩ := beforeTimes_eq old s
  have htimes : TableFrame (beforeTimes old s) u := TableFrame.throttleTimesChanged old _
  clear_value u
  rw [hbefore] at htimes
  exact ⟨(congrArg State.outputs htimes :), (congrArg State.motor htimes :), (congrArg State.smoke htimes :),
    (congrArg State.beacon htimes :), (congrArg State.demand htimes :)⟩

/-- The tables before the throttle times are looked at. -/
theorem beforeTimes_tables (old s : State) :
    let v := beforeTimes old s
    v.settings = s.settings ∧ v.throttles = s.throttles ∧ v.drive = s.drive ∧ v.groups = s.groups := by
  intro v
  obtain ⟨so, po, hbefore⟩ := beforeTimes_eq old s
  have hmotion := motionTold_frame old s
  have hv : v = _ := hbefore
  clear_value v
  generalize motionTold old s = w at *
  rw [hv]
  exact ⟨(congrArg State.settings hmotion :), (congrArg State.throttles hmotion :), (congrArg State.drive hmotion :),
    (congrArg State.groups hmotion :)⟩

/-- What the shortened throttle times leave of the table. -/
theorem settingsInstalled_table (old s : State) (hlen : s.throttles.length = 16) :
    let u := settingsInstalled old s
    (set8 s 10 < set8 old 10 → ∀ i, WithinSilence i u) ∧
    (set8 s 12 < set8 old 12 → ∀ i e, entry u i = some e → ¬ Forgets i u) := by
  intro u
  obtain ⟨hset, hthrottles, -⟩ := beforeTimes_tables old s
  have hfades : OnlyFades (beforeTimes old s) u := throttleTimesChanged_fades old _
  have hbytes (k : Nat) : set8 (beforeTimes old s) k = set8 s k := by
    unfold set8
    rw [hset]
  have hplace {i : Nat} {e : ThrottleEntry} (he : entry u i = some e) : i < 16 := by
    obtain ⟨e₀, he₀, -⟩ := hfades.entries i e he
    unfold entry at he₀
    rw [hthrottles, List.getD_eq_getElem?_getD] at he₀
    by_contra hge
    rw [List.getElem?_eq_none (by omega)] at he₀
    cases he₀
  rw [← hbytes 10, ← hbytes 12]
  exact ⟨fun h i e he => throttleTimesChanged_silence h (hplace he) e he,
    fun h i e he => throttleTimesChanged_forgets h (hplace he)⟩

/-- Throttle times that are not shortened leave the tables alone. -/
theorem settingsInstalled_longer {old s : State} (hsilence : set8 old 10 ≤ set8 s 10)
    (hforget : set8 old 12 ≤ set8 s 12) :
    let u := settingsInstalled old s
    u.throttles = s.throttles ∧ u.drive = s.drive ∧ u.groups = s.groups := by
  intro u
  obtain ⟨hset, htables⟩ := beforeTimes_tables old s
  have hbytes (k : Nat) : set8 (beforeTimes old s) k = set8 s k := by
    unfold set8
    rw [hset]
  have hstays : u = beforeTimes old s := throttleTimesChanged_longer (s := beforeTimes old s)
    (by rwa [hbytes]) (by rwa [hbytes])
  rw [hstays]
  exact htables

/-- Settles O56. -/
theorem installedSettingsReachTheBlocks : Obligations.InstalledSettingsReachTheBlocks := by
  unfold Obligations.InstalledSettingsReachTheBlocks
  intro s img s' u changed
  have hframe : InstallFrame s' u := settingsInstalled_frame s s'
  obtain ⟨hchuffing, hlimit⟩ := motionTold_keeps s s'
  obtain ⟨houtputs, hmotor, hsmoke, hbeacon, hdemand⟩ := settingsInstalled_blocks s s'
  have htable := settingsInstalled_table s s'
  have hlonger (h : set8 s 10 ≤ set8 s' 10) (h' : set8 s 12 ≤ set8 s' 12) := settingsInstalled_longer h h'
  have hsettings : u.settings = img := (congrArg State.settings hframe :)
  have hnow : u.partTime = s.partTime := (congrArg State.partTime hframe :)
  have hdirection := @motionTold_same s s'
  dsimp only at houtputs hmotor hsmoke hbeacon hdemand htable hlonger
  generalize motionTold s s' = v at *
  have hu : settingsInstalled s s' = u := rfl
  rw [hu] at houtputs hmotor hsmoke hbeacon hdemand htable hlonger
  clear_value u
  refine ⟨hsettings, (congrArg State.switches hframe :), (congrArg State.pub hframe :), (congrArg State.supply hframe :),
    (congrArg State.faults hframe :), fun n o ho _ _ => ⟨fun hc => ?restarted, fun hc => ?kept⟩, fun hc => ?chuff,
    fun hc => ?steady, ?limit, fun hreversed => ?direction, fun hc => ?period, fun hc => ?line,
    fun hshort hlen i e he hn => ?silence, fun hshort hlen i e he hl hnamed => ?forget, fun hsilence hforget => ?longer⟩
  case restarted =>
    rw [houtputs, List.getElem?_mapIdx, ho]
    exact congrArg some (if_neg hc)
  case kept =>
    rw [houtputs, List.getElem?_mapIdx, ho]
    exact congrArg some (if_pos (not_not.1 hc))
  case chuff =>
    rw [hmotor, if_neg hc]
    exact ⟨rfl, rfl, rfl, rfl⟩
  case steady =>
    rw [hmotor, if_pos (not_not.1 hc)]
    obtain ⟨hacc, hrest⟩ := Prod.mk.inj hchuffing
    obtain ⟨hlevel, hrest⟩ := Prod.mk.inj hrest
    obtain ⟨hstable, harmed⟩ := Prod.mk.inj hrest
    exact ⟨hacc, hlevel, hstable, harmed⟩
  case limit =>
    rw [hsmoke]
    split
    · exact hlimit
    · rfl
  case direction =>
    obtain ⟨happlied, hsame⟩ := hdirection hreversed
    refine ⟨(congrArg Demand.applied hdemand).trans happlied, fun hasked => ?_⟩
    have hbase : v.smoke = s.smoke := hsame hasked
    rw [hsmoke, hbase]
    split <;> rfl
  case period =>
    rw [hbeacon, if_neg hc]
    rfl
  case line =>
    rw [hbeacon, if_pos (not_not.1 hc)]
  case silence =>
    have hearly := (htable hlen).1 hshort i e he hn
    unfold silenceDue set8 at hearly
    rw [hn, hnow, hsettings] at hearly
    exact hearly
  case forget =>
    refine Bool.eq_false_iff.2 fun hdue => (htable hlen).2 hshort i e he ⟨hnamed, e, he, ?_⟩
    unfold forgetDue set8
    rw [hnow, hsettings, Bool.and_eq_true]
    exact ⟨Option.isSome_iff_ne_none.2 hl, hdue⟩
  case longer => exact hlonger hsilence hforget

end Sys2Proof.Machine
end

section
/-! What one edit of an image changes, and the passes of the checks, each with the bytes it reaches (R168). -/

namespace Sys2Proof.Machine

/-! ### One edit of an image -/

theorem byteAt_set (m : List Byte) (i j : Nat) (v : Byte) :
    byteAt (m.set i v) j = if i = j ∧ j < m.length then v.toNat else byteAt m j := by
  unfold byteAt
  simp only [List.getD_eq_getElem?_getD, List.getElem?_set]
  by_cases hij : i = j
  · obtain rfl := hij
    by_cases hi : i < m.length <;> simp [hi]
  · simp [hij]

theorem byteAt_set_self {m : List Byte} {i n : Nat} (hi : i < m.length) (hn : n < 256) :
    byteAt (m.set i (BitVec.ofNat 8 n)) i = n := by
  rw [byteAt_set, if_pos ⟨rfl, hi⟩]
  exact (BitVec.toNat_ofNat n 8).trans (Nat.mod_eq_of_lt hn)

theorem byteAt_set_other {m : List Byte} {i j : Nat} (h : i ≠ j) (v : Byte) : byteAt (m.set i v) j = byteAt m j := by
  rw [byteAt_set, if_neg fun hc => h hc.1]

theorem byteAt_putHalf_other {m : List Byte} {i j : Nat} (h : j ≠ i) (h' : j ≠ i + 1) (n : Nat) :
    byteAt (putHalf m i n) j = byteAt m j := by
  unfold putHalf
  rw [byteAt_set_other h'.symm, byteAt_set_other h.symm]

theorem halfAt_putHalf {m : List Byte} {i n : Nat} (hi : i + 1 < m.length) (hn : n < 65536) :
    halfAt (putHalf m i n) i = n := by
  unfold putHalf halfAt
  have hmod : BitVec.ofNat 8 n = BitVec.ofNat 8 (n % 256) := by
    apply BitVec.eq_of_toNat_eq
    simp
  rw [byteAt_set_other (by omega), hmod, byteAt_set_self (by omega) (by omega),
    byteAt_set_self (by rw [List.length_set]; exact hi) (by omega)]
  omega

theorem halfAt_lt (m : List Byte) (i : Nat) : halfAt m i < 65536 := by
  have h := byteAt_lt m i
  have h' := byteAt_lt m (i + 1)
  unfold halfAt
  omega

/-- Neither a byte nor its neighbours are written. -/
def Calm.bytes (w : Nat → Bool) (j : Nat) : Prop := w j = false ∧ w (j + 1) = false ∧ (0 < j → w (j - 1) = false)

/-- An edit of an image: it keeps the length, changes nothing beyond the bytes it reaches, and no byte that is not written
beside one that is. -/
structure Edit (w : Nat → Bool) (reach : Nat → Prop) (g : List Byte → List Byte) : Prop where
  length : ∀ m, (g m).length = m.length
  other : ∀ m j, ¬ reach j → byteAt (g m) j = byteAt m j
  calm : ∀ m j, Calm.bytes w j → byteAt (g m) j = byteAt m j

theorem fixByte_written {w : Nat → Bool} {i : Nat} (h : w i = true) (f : Nat → Nat) (m : List Byte) :
    fixByte w i f m = m.set i (BitVec.ofNat 8 (f (byteAt m i))) := if_pos h

theorem fixByte_unwritten {w : Nat → Bool} {i : Nat} (h : w i = false) (f : Nat → Nat) (m : List Byte) :
    fixByte w i f m = m := if_neg (ne_true_of_eq_false h)

theorem fixByte_edit (w : Nat → Bool) (i : Nat) (f : Nat → Nat) : Edit w (· = i) (fixByte w i f) where
  length := fixByte_length w i f
  other m j hj := by
    cases h : w i with
    | true => rw [fixByte_written h, byteAt_set_other (Ne.symm hj)]
    | false => rw [fixByte_unwritten h]
  calm m j hc := by
    cases h : w i with
    | true =>
      rw [fixByte_written h, byteAt_set_other]
      rintro rfl
      exact absurd hc.1 (ne_false_of_eq_true h)
    | false => rw [fixByte_unwritten h]

/-- A byte with a mapping. -/
theorem fixByte_at {w : Nat → Bool} {i : Nat} {f : Nat → Nat} {m : List Byte} (hi : i < m.length)
    (hf : f (byteAt m i) < 256) : byteAt (fixByte w i f m) i = if w i then f (byteAt m i) else byteAt m i := by
  cases h : w i with
  | true => rw [fixByte_written h, byteAt_set_self hi hf, if_pos rfl]
  | false => rw [fixByte_unwritten h, if_neg Bool.false_ne_true]

/-- A byte of a two-byte value is written. -/
theorem either_of_not_calm {w : Nat → Bool} {i j : Nat} (h : (w i || w (i + 1)) = true) (hc : Calm.bytes w j) :
    j ≠ i ∧ j ≠ i + 1 := by
  obtain ⟨hself, hnext, hback⟩ := hc
  rw [Bool.or_eq_true] at h
  refine ⟨?_, ?_⟩
  · rintro rfl
    rcases h with h | h
    · exact Bool.false_ne_true (hself.symm.trans h)
    · exact Bool.false_ne_true (hnext.symm.trans h)
  · rintro rfl
    rcases h with h | h
    · exact Bool.false_ne_true ((hback (Nat.succ_pos i)).symm.trans h)
    · exact Bool.false_ne_true (hself.symm.trans h)

/-- An edit of two neighbouring bytes that runs only where one of them is written. -/
theorem Edit.of_pair {w : Nat → Bool} {i : Nat} {g : List Byte → List Byte}
    (hlength : ∀ m, (g m).length = m.length) (hother : ∀ m j, j ≠ i → j ≠ i + 1 → byteAt (g m) j = byteAt m j) :
    Edit w (fun j => j = i ∨ j = i + 1) (fun m => if w i || w (i + 1) then g m else m) where
  length m := by
    split
    · exact hlength m
    · rfl
  other m j hj := by
    obtain ⟨h, h'⟩ := not_or.1 hj
    split
    · exact hother m j h h'
    · rfl
  calm m j hc := by
    split
    · next h =>
      obtain ⟨hne, hne'⟩ := either_of_not_calm h hc
      exact hother m j hne hne'
    · rfl

theorem fixHalf_edit (w : Nat → Bool) (i : Nat) (f : Nat → Nat) :
    Edit w (fun j => j = i ∨ j = i + 1) (fixHalf w i f) :=
  .of_pair (g := fun m => putHalf m i (f (halfAt m i))) (fun m => putHalf_length m i _)
    fun _ _ h h' => byteAt_putHalf_other h h' _

/-- A two-byte value with a mapping. -/
theorem fixHalf_at {w : Nat → Bool} {i : Nat} {f : Nat → Nat} {m : List Byte} (hi : i + 1 < m.length)
    (hf : f (halfAt m i) < 65536) :
    halfAt (fixHalf w i f m) i = if w i || w (i + 1) then f (halfAt m i) else halfAt m i := by
  unfold fixHalf
  split
  · exact halfAt_putHalf hi hf
  · rfl

theorem fixAction_edit (w : Nat → Bool) (i : Nat) : Edit w (fun j => j = i ∨ j = i + 1) (fun m => fixAction w m i) :=
  .of_pair (g := fun m =>
      let m := m.set i (BitVec.ofNat 8 (fixActionKind (byteAt m i)))
      m.set (i + 1) (BitVec.ofNat 8 (fixActionValue (byteAt m i % 8) (byteAt m (i + 1)))))
    (fun m => by simp) fun m j h h' => by
      dsimp only
      rw [byteAt_set_other h'.symm, byteAt_set_other h.symm]

namespace Edit

variable {w : Nat → Bool}

theorem mono {R R' : Nat → Prop} {g : List Byte → List Byte} (h : Edit w R g) (hle : ∀ j, R j → R' j) : Edit w R' g :=
  ⟨h.length, fun m j hj => h.other m j fun hr => hj (hle j hr), h.calm⟩

theorem comp {R R' : Nat → Prop} {g g' : List Byte → List Byte} (h : Edit w R g) (h' : Edit w R' g') :
    Edit w (fun j => R j ∨ R' j) (fun m => g' (g m)) where
  length m := (h'.length _).trans (h.length m)
  other m j hj := by
    obtain ⟨hr, hr'⟩ := not_or.1 hj
    exact (h'.other _ j hr').trans (h.other m j hr)
  calm m j hc := (h'.calm _ j hc).trans (h.calm m j hc)

theorem foldl {β : Type} {R : β → Nat → Prop} {g : β → List Byte → List Byte} (h : ∀ k, Edit w (R k) (g k))
    (l : List β) : Edit w (fun j => ∃ k ∈ l, R k j) (fun m => l.foldl (fun m k => g k m) m) := by
  induction l with
  | nil => exact ⟨fun _ => rfl, fun _ _ _ => rfl, fun _ _ _ => rfl⟩
  | cons k l ih =>
    refine ((h k).comp ih).mono fun j hj => ?_
    rcases hj with hj | ⟨k', hk', hj⟩
    · exact ⟨k, List.mem_cons_self, hj⟩
    · exact ⟨k', List.mem_cons_of_mem k hk', hj⟩

/-- In a fold of edits that reach different bytes, each one finds its own bytes as they were, and they stay as it leaves
them. -/
theorem foldl_isolates {β : Type} {R : β → Nat → Prop} {g : β → List Byte → List Byte} (h : ∀ k, Edit w (R k) (g k))
    {l : List β} (hl : l.Nodup) {k : β} (hk : k ∈ l) (hone : ∀ k' ∈ l, ∀ j, R k' j → R k j → k' = k) (m : List Byte) :
    ∃ m', m'.length = m.length ∧ ∀ j, R k j →
      byteAt m' j = byteAt m j ∧ byteAt (l.foldl (fun m k => g k m) m) j = byteAt (g k m') j := by
  obtain ⟨a, b, rfl⟩ := List.append_of_mem hk
  have hnodup := List.nodup_append.1 hl
  have hb : k ∉ b := (List.nodup_cons.1 hnodup.2.1).1
  have ha : k ∉ a := fun hka => hnodup.2.2 k hka k List.mem_cons_self rfl
  refine ⟨a.foldl (fun m k => g k m) m, (foldl h a).length m, fun j hj => ⟨(foldl h a).other m j ?_, ?_⟩⟩
  · rintro ⟨k', hk', hj'⟩
    obtain rfl := hone k' (List.mem_append_left _ hk') j hj' hj
    exact ha hk'
  · rw [List.foldl_append, List.foldl_cons]
    refine (foldl h b).other _ j ?_
    rintro ⟨k', hk', hj'⟩
    obtain rfl := hone k' (List.mem_append_right _ (List.mem_cons_of_mem _ hk')) j hj' hj
    exact hb hk'

end Edit

/-! ### The passes of the checks (R168) -/

/-- The passes of the checks before the ties. -/
inductive Pass where
  | bytes
  | halves
  | features
  | outputs
  | cues
  | thresholds
  | cueIds
  | partitions
  | slots
  | actions

namespace Pass

/-- What a pass does to an image. -/
def run (w : Nat → Bool) : Pass → List Byte → List Byte
  | bytes => fixBytes w
  | halves => fixHalves w
  | features => fun m => (List.range 64).foldl (fun m k => fixByte w (96 + k) fixFeature m) m
  | outputs => fun m => (List.range 8).foldl (fun m n => fixOutput w m (160 + 8 * n)) m
  | cues => fun m => (List.range 32).foldl (fun m c => fixByte w (256 + 6 * c + 5) (max 1) m) m
  | thresholds => fun m => fixHalf w 451 fixThreshold (fixHalf w 449 fixThreshold m)
  | cueIds => fun m => (List.range 6).foldl (fun m k => fixByte w (453 + k) fixCueId m) m
  | partitions => fun m => (List.range 6).foldl (fixPartition w) m
  | slots => fun m => (List.range 8).foldl (fixSlot w) m
  | actions => fun m => (List.range 8).foldl (fun m k => fixAction w m (712 + 8 * k)) m

/-- The passes in their order. -/
def all : List Pass := [bytes, halves, features, outputs, cues, thresholds, cueIds, partitions, slots, actions]

/-- The bytes that a pass reaches. -/
def reach : Pass → Nat → Prop
  | bytes => fun j => ∃ r ∈ byteRanges, r.1 ≤ j ∧ j < r.1 + r.2.1
  | halves => fun j => ∃ r ∈ halfRanges, r.1 ≤ j ∧ j < r.1 + 2 * r.2.1
  | features => fun j => 96 ≤ j ∧ j < 160
  | outputs => fun j => 160 ≤ j ∧ j < 224 ∧ (j % 8 = 0 ∨ j % 8 = 2 ∨ j % 8 = 5)
  | cues => fun j => 256 ≤ j ∧ j < 448 ∧ (j - 256) % 6 = 5
  | thresholds => fun j => 449 ≤ j ∧ j < 453
  | cueIds => fun j => 453 ≤ j ∧ j < 459
  | partitions => fun j => 459 ≤ j ∧ j < 471
  | slots => fun j => 480 ≤ j ∧ j < 685 ∧ (j - 480) % 29 ≤ 1
  | actions => fun j => 712 ≤ j ∧ j < 776 ∧ (j - 712) % 8 ≤ 1

theorem fixOutput_edit (w : Nat → Bool) (i : Nat) :
    Edit w (fun j => j = i ∨ j = i + 2 ∨ j = i + 5) (fun m => fixOutput w m i) :=
  ((fixByte_edit w i fixEffect).comp ((fixByte_edit w (i + 2) fixModes).comp (fixByte_edit w (i + 5) (max 2))))

theorem fixPartition_edit (w : Nat → Bool) (v : Nat) :
    Edit w (fun j => j = 459 + 2 * v ∨ j = 460 + 2 * v) (fun m => fixPartition w m v) :=
  (fixByte_edit w (459 + 2 * v) (min 63)).comp (fixByte_edit w (460 + 2 * v) fixSize)

theorem fixSlot_edit (w : Nat → Bool) (n : Nat) :
    Edit w (fun j => j = 480 + 29 * n ∨ j = 481 + 29 * n) (fun m => fixSlot w m n) :=
  (fixByte_edit w (480 + 29 * n) (min (slotLimit n))).comp (fixByte_edit w (481 + 29 * n) (min 15))

/-- The edit of one range of bytes. -/
def rangeBytes (w : Nat → Bool) (r : Nat × Nat × Nat × Nat) (m : List Byte) : List Byte :=
  (List.range r.2.1).foldl (fun m k => fixByte w (r.1 + k) (clampNat r.2.2.1 r.2.2.2) m) m

/-- The edit of one range of two-byte values. -/
def rangeHalves (w : Nat → Bool) (r : Nat × Nat × Nat × Nat) (m : List Byte) : List Byte :=
  (List.range r.2.1).foldl (fun m k => fixHalf w (r.1 + 2 * k) (clampNat r.2.2.1 r.2.2.2) m) m

theorem rangeBytes_edit (w : Nat → Bool) (r : Nat × Nat × Nat × Nat) :
    Edit w (fun j => r.1 ≤ j ∧ j < r.1 + r.2.1) (rangeBytes w r) := by
  refine (Edit.foldl (fun k => fixByte_edit w (r.1 + k) (clampNat r.2.2.1 r.2.2.2)) (List.range r.2.1)).mono ?_
  rintro j ⟨k, hk, rfl⟩
  have := List.mem_range.1 hk
  omega

theorem rangeHalves_edit (w : Nat → Bool) (r : Nat × Nat × Nat × Nat) :
    Edit w (fun j => r.1 ≤ j ∧ j < r.1 + 2 * r.2.1) (rangeHalves w r) := by
  refine (Edit.foldl (fun k => fixHalf_edit w (r.1 + 2 * k) (clampNat r.2.2.1 r.2.2.2)) (List.range r.2.1)).mono ?_
  rintro j ⟨k, hk, hj⟩
  have := List.mem_range.1 hk
  omega

/-- Every pass is an edit of the bytes it reaches. -/
theorem edit (w : Nat → Bool) (p : Pass) : Edit w p.reach (p.run w) := by
  cases p with
  | bytes => exact Edit.foldl (rangeBytes_edit w) byteRanges
  | halves => exact Edit.foldl (rangeHalves_edit w) halfRanges
  | thresholds =>
    refine ((fixHalf_edit w 449 fixThreshold).comp (fixHalf_edit w 451 fixThreshold)).mono fun j hj => ?_
    change 449 ≤ j ∧ j < 453
    omega
  | features =>
    refine (Edit.foldl (fun k => fixByte_edit w (96 + k) fixFeature) (List.range 64)).mono ?_
    rintro j ⟨k, hk, hj⟩
    have := List.mem_range.1 hk
    change 96 ≤ j ∧ j < 160
    omega
  | outputs =>
    refine (Edit.foldl (fun n => fixOutput_edit w (160 + 8 * n)) (List.range 8)).mono ?_
    rintro j ⟨n, hn, hj⟩
    have := List.mem_range.1 hn
    change 160 ≤ j ∧ j < 224 ∧ (j % 8 = 0 ∨ j % 8 = 2 ∨ j % 8 = 5)
    omega
  | cues =>
    refine (Edit.foldl (fun c => fixByte_edit w (256 + 6 * c + 5) (max 1)) (List.range 32)).mono ?_
    rintro j ⟨c, hc, hj⟩
    have := List.mem_range.1 hc
    change 256 ≤ j ∧ j < 448 ∧ (j - 256) % 6 = 5
    omega
  | cueIds =>
    refine (Edit.foldl (fun k => fixByte_edit w (453 + k) fixCueId) (List.range 6)).mono ?_
    rintro j ⟨k, hk, hj⟩
    have := List.mem_range.1 hk
    change 453 ≤ j ∧ j < 459
    omega
  | partitions =>
    refine (Edit.foldl (fixPartition_edit w) (List.range 6)).mono ?_
    rintro j ⟨v, hv, hj⟩
    have := List.mem_range.1 hv
    change 459 ≤ j ∧ j < 471
    omega
  | slots =>
    refine (Edit.foldl (fixSlot_edit w) (List.range 8)).mono ?_
    rintro j ⟨n, hn, hj⟩
    have := List.mem_range.1 hn
    change 480 ≤ j ∧ j < 685 ∧ (j - 480) % 29 ≤ 1
    omega
  | actions =>
    refine (Edit.foldl (fun k => fixAction_edit w (712 + 8 * k)) (List.range 8)).mono ?_
    rintro j ⟨k, hk, hj⟩
    have := List.mem_range.1 hk
    change 712 ≤ j ∧ j < 776 ∧ (j - 712) % 8 ≤ 1
    omega

/-- The one-byte settings with a range. -/
theorem reach_bytes {j : Nat} (h : bytes.reach j) : j = 3 ∨ j = 4 ∨ (10 ≤ j ∧ j ≤ 13) ∨ j = 54 ∨ j = 55 ∨ j = 68 ∨
    j = 71 ∨ j = 228 ∨ j = 231 ∨ j = 706 ∨ j = 709 := by
  simp only [reach, byteRanges, List.mem_cons, List.not_mem_nil, or_false, exists_eq_or_imp, exists_eq_left] at h
  omega

/-- The two-byte settings with a range. -/
theorem reach_halves {j : Nat} (h : halves.reach j) : j < 2 ∨ (32 ≤ j ∧ j < 54) ∨ (56 ≤ j ∧ j < 64) ∨ j = 66 ∨ j = 67 ∨
    j = 69 ∨ j = 70 ∨ (224 ≤ j ∧ j < 228) ∨ (232 ≤ j ∧ j < 242) ∨ (243 ≤ j ∧ j < 247) ∨ j = 707 ∨ j = 708 := by
  simp only [reach, halfRanges, List.mem_cons, List.not_mem_nil, or_false, exists_eq_or_imp, exists_eq_left] at h
  omega

/-- The place of a pass in the order of the bytes it reaches; the scattered ranges are told apart by their byte. -/
def zone (j : Nat) : Pass :=
  if 96 ≤ j ∧ j < 160 then features
  else if 160 ≤ j ∧ j < 224 then outputs
  else if 256 ≤ j ∧ j < 448 then cues
  else if 449 ≤ j ∧ j < 453 then thresholds
  else if 453 ≤ j ∧ j < 459 then cueIds
  else if 459 ≤ j ∧ j < 471 then partitions
  else if 480 ≤ j ∧ j < 685 then slots
  else if 712 ≤ j then actions
  else if j = 3 ∨ j = 4 ∨ (10 ≤ j ∧ j ≤ 13) ∨ j = 54 ∨ j = 55 ∨ j = 68 ∨ j = 71 ∨ j = 228 ∨ j = 231 ∨ j = 706 ∨ j = 709
    then bytes
  else halves

theorem zone_of_reach {p : Pass} {j : Nat} (h : p.reach j) : zone j = p := by
  unfold zone
  cases p with
  | bytes =>
    have := reach_bytes h
    repeat rw [if_neg (by omega)]
    rw [if_pos this]
  | halves =>
    have := reach_halves h
    repeat rw [if_neg (by omega)]
  | _ =>
    unfold reach at h
    repeat rw [if_neg (by omega)]
    rw [if_pos (by omega)]

/-- No byte is reached by two passes. -/
theorem reach_unique {p q : Pass} {j : Nat} (hp : p.reach j) (hq : q.reach j) : p = q :=
  (zone_of_reach hp).symm.trans (zone_of_reach hq)

end Pass

/-- The image after every pass, before the ties. -/
def passed (w : Nat → Bool) (img : List Byte) : List Byte := fixCoded w (fixHalves w (fixBytes w img))

theorem passed_eq (w : Nat → Bool) (img : List Byte) : passed w img = Pass.all.foldl (fun m p => p.run w m) img := rfl

theorem passed_edit (w : Nat → Bool) : Edit w (fun j => ∃ p ∈ Pass.all, p.reach j) (passed w) :=
  Edit.foldl (Pass.edit w) Pass.all

/-- Each pass finds its bytes as they stood, and they stay as it leaves them. -/
theorem passed_isolates (w : Nat → Bool) (p : Pass) (img : List Byte) : ∃ m, m.length = img.length ∧
    ∀ j, p.reach j → byteAt m j = byteAt img j ∧ byteAt (passed w img) j = byteAt (p.run w m) j := by
  have hall : Pass.all.Nodup := by simp [Pass.all]
  have hmem : p ∈ Pass.all := by cases p <;> simp [Pass.all]
  exact Edit.foldl_isolates (Pass.edit w) hall hmem (fun q _ j hq hp => Pass.reach_unique hq hp) img

end Sys2Proof.Machine
end

section
/-! The values that the checks of an image leave, the three ties, and every other byte (R43, R53, R74, R101, R103, R114,
R119, R135, R146, R158, R161, R166, R168); O55. -/

namespace Sys2Proof.Machine

/-! ### Families of edits -/

section Families

variable {w : Nat → Bool}

/-- In a family of one-byte edits at different places each place takes its own mapping. -/
theorem foldl_fixByte_at {e : Nat → Nat} (he : ∀ k k', e k = e k' → k = k') {f : Nat → Nat} {n k : Nat} (hk : k < n)
    {m : List Byte} (hlen : e k < m.length) (hf : ∀ b, b < 256 → f b < 256) :
    byteAt ((List.range n).foldl (fun m k => fixByte w (e k) f m) m) (e k) =
      if w (e k) then f (byteAt m (e k)) else byteAt m (e k) := by
  obtain ⟨m', hlen', hm'⟩ := Edit.foldl_isolates (fun k => fixByte_edit w (e k) f) List.nodup_range
    (List.mem_range.2 hk) (fun k' _ j h h' => he _ _ (h.symm.trans h')) m
  obtain ⟨hsame, hout⟩ := hm' (e k) rfl
  rw [hout, fixByte_at (by omega) (hf _ (byteAt_lt _ _)), hsame]

/-- In a family of two-byte edits two bytes apart each value takes its own mapping. -/
theorem foldl_fixHalf_at {a : Nat} {f : Nat → Nat} {n k : Nat} (hk : k < n) {m : List Byte}
    (hlen : a + 2 * k + 1 < m.length) (hf : ∀ b, f b < 65536) :
    halfAt ((List.range n).foldl (fun m k => fixHalf w (a + 2 * k) f m) m) (a + 2 * k) =
      if w (a + 2 * k) || w (a + 2 * k + 1) then f (halfAt m (a + 2 * k)) else halfAt m (a + 2 * k) := by
  obtain ⟨m', hlen', hm'⟩ := Edit.foldl_isolates (fun k => fixHalf_edit w (a + 2 * k) f) List.nodup_range
    (List.mem_range.2 hk) (fun k' _ j h h' => by omega) m
  obtain ⟨hlow, houtLow⟩ := hm' (a + 2 * k) (.inl rfl)
  obtain ⟨hhigh, houtHigh⟩ := hm' (a + 2 * k + 1) (.inr rfl)
  have hsame : halfAt m' (a + 2 * k) = halfAt m (a + 2 * k) := by
    unfold halfAt
    rw [hlow, hhigh]
  have hfix := fixHalf_at (w := w) (i := a + 2 * k) (m := m') (by omega) (hf _)
  rw [hsame] at hfix
  rw [← hfix]
  unfold halfAt
  rw [houtLow, houtHigh]

theorem clampNat_le {lo hi x n : Nat} (hlo : lo ≤ n) (hhi : hi ≤ n) : clampNat lo hi x ≤ n := by
  unfold clampNat
  split
  · exact hlo
  · split
    · exact hhi
    · omega

/-- A one-byte setting with a range. -/
theorem fixBytes_at {r : Nat × Nat × Nat × Nat} (hr : r ∈ byteRanges) {k : Nat} (hk : k < r.2.1) {m : List Byte}
    (hm : m.length = 776) : byteAt (fixBytes w m) (r.1 + k) =
      if w (r.1 + k) then clampNat r.2.2.1 r.2.2.2 (byteAt m (r.1 + k)) else byteAt m (r.1 + k) := by
  have hone : ∀ r ∈ byteRanges, ∀ r' ∈ byteRanges, r' = r ∨ r'.1 + r'.2.1 ≤ r.1 ∨ r.1 + r.2.1 ≤ r'.1 := by decide
  have hall : ∀ r ∈ byteRanges, r.1 + r.2.1 ≤ 776 ∧ r.2.2.1 ≤ 255 ∧ r.2.2.2 ≤ 255 := by decide
  obtain ⟨hroom, hlo, hhi⟩ := hall r hr
  obtain ⟨m', hlen', hm'⟩ := Edit.foldl_isolates (Pass.rangeBytes_edit w) (l := byteRanges) (by decide) hr
    (fun r' hr' j h h' => (hone r hr r' hr').resolve_right (by omega)) m
  obtain ⟨hsame, hout⟩ := hm' (r.1 + k) ⟨Nat.le_add_right _ _, by omega⟩
  have hrange : byteAt (Pass.rangeBytes w r m') (r.1 + k) = _ := foldl_fixByte_at (w := w) (e := fun k => r.1 + k)
    (fun _ _ => Nat.add_left_cancel) hk (by omega) fun b _ => Nat.lt_succ_of_le (clampNat_le hlo hhi)
  rw [hsame] at hrange
  exact hout.trans hrange

/-- A two-byte setting with a range. -/
theorem fixHalves_at {r : Nat × Nat × Nat × Nat} (hr : r ∈ halfRanges) {k : Nat} (hk : k < r.2.1) {m : List Byte}
    (hm : m.length = 776) : halfAt (fixHalves w m) (r.1 + 2 * k) =
      if w (r.1 + 2 * k) || w (r.1 + 2 * k + 1) then clampNat r.2.2.1 r.2.2.2 (halfAt m (r.1 + 2 * k))
      else halfAt m (r.1 + 2 * k) := by
  have hone : ∀ r ∈ halfRanges, ∀ r' ∈ halfRanges, r' = r ∨ r'.1 + 2 * r'.2.1 ≤ r.1 ∨ r.1 + 2 * r.2.1 ≤ r'.1 := by decide
  have hall : ∀ r ∈ halfRanges, r.1 + 2 * r.2.1 ≤ 776 ∧ r.2.2.1 ≤ 65535 ∧ r.2.2.2 ≤ 65535 := by decide
  obtain ⟨hroom, hlo, hhi⟩ := hall r hr
  obtain ⟨m', hlen', hm'⟩ := Edit.foldl_isolates (Pass.rangeHalves_edit w) (l := halfRanges) (by decide) hr
    (fun r' hr' j h h' => (hone r hr r' hr').resolve_right (by omega)) m
  obtain ⟨hlow, houtLow⟩ := hm' (r.1 + 2 * k) ⟨Nat.le_add_right _ _, by omega⟩
  obtain ⟨hhigh, houtHigh⟩ := hm' (r.1 + 2 * k + 1) ⟨by omega, by omega⟩
  have hsame : halfAt m' (r.1 + 2 * k) = halfAt m (r.1 + 2 * k) := by
    unfold halfAt
    rw [hlow, hhigh]
  have hrange : halfAt (Pass.rangeHalves w r m') (r.1 + 2 * k) = _ := foldl_fixHalf_at (w := w) hk (by omega)
    fun b => Nat.lt_succ_of_le (clampNat_le hlo hhi)
  rw [hsame] at hrange
  rw [← hrange]
  unfold halfAt
  rw [← houtLow, ← houtHigh]
  rfl

end Families

/-! ### The image after the passes -/

section Passed

variable {w : Nat → Bool} {img : List Byte} (himg : img.length = 776)
include himg

theorem passed_length : (passed w img).length = 776 := by
  unfold passed
  rw [fixCoded_length, fixHalves_length, fixBytes_length, himg]

/-- A byte that a pass maps by itself. -/
theorem passed_at {p : Pass} {j : Nat} {f g : Nat → Nat} (hreach : p.reach j)
    (hrun : ∀ m : List Byte, m.length = 776 → byteAt (p.run w m) j = if w j then f (byteAt m j) else byteAt m j)
    (hfg : ∀ b, b < 256 → f b = g b) :
    byteAt (passed w img) j = if w j then g (byteAt img j) else byteAt img j := by
  obtain ⟨m, hlen, hm⟩ := passed_isolates w p img
  obtain ⟨hsame, hout⟩ := hm j hreach
  rw [hout, hrun m (hlen.trans himg), hsame, hfg _ (byteAt_lt _ _)]

theorem passed_byte {r : Nat × Nat × Nat × Nat} (hr : r ∈ byteRanges) {k : Nat} (hk : k < r.2.1) :
    byteAt (passed w img) (r.1 + k) =
      if w (r.1 + k) then clampNat r.2.2.1 r.2.2.2 (byteAt img (r.1 + k)) else byteAt img (r.1 + k) :=
  passed_at himg (p := .bytes) ⟨r, hr, Nat.le_add_right _ _, Nat.add_lt_add_left hk _⟩ (fun _ hm => fixBytes_at hr hk hm)
    fun _ _ => rfl

/-- A two-byte value that a pass maps by itself. -/
theorem passed_half_at {p : Pass} {j : Nat} {f : Nat → Nat} (hlow : p.reach j) (hhigh : p.reach (j + 1))
    (hrun : ∀ m : List Byte, m.length = 776 →
      halfAt (p.run w m) j = if w j || w (j + 1) then f (halfAt m j) else halfAt m j) :
    halfAt (passed w img) j = if w j || w (j + 1) then f (halfAt img j) else halfAt img j := by
  obtain ⟨m, hlen, hm⟩ := passed_isolates w p img
  obtain ⟨hsame, hout⟩ := hm j hlow
  obtain ⟨hsame', hout'⟩ := hm (j + 1) hhigh
  have hvalue : halfAt m j = halfAt img j := by
    unfold halfAt
    rw [hsame, hsame']
  rw [← hvalue, ← hrun m (hlen.trans himg)]
  unfold halfAt
  rw [hout, hout']

theorem passed_half {r : Nat × Nat × Nat × Nat} (hr : r ∈ halfRanges) {k : Nat} (hk : k < r.2.1) :
    halfAt (passed w img) (r.1 + 2 * k) =
      if w (r.1 + 2 * k) || w (r.1 + 2 * k + 1) then clampNat r.2.2.1 r.2.2.2 (halfAt img (r.1 + 2 * k))
      else halfAt img (r.1 + 2 * k) :=
  passed_half_at himg (p := .halves) ⟨r, hr, Nat.le_add_right _ _, by omega⟩ ⟨r, hr, by omega, by omega⟩
    fun _ hm => fixHalves_at hr hk hm

/-- A feature byte (R101). -/
theorem passed_feature {k : Nat} (hk : k < 64) : byteAt (passed w img) (96 + k) =
    if w (96 + k) then (if 46 ≤ byteAt img (96 + k) % 64 then 0 else byteAt img (96 + k) % 64) +
      (if 3 ≤ byteAt img (96 + k) / 64 then 0 else byteAt img (96 + k) / 64) * 64 else byteAt img (96 + k) := by
  refine passed_at himg (p := .features) (f := fixFeature)
    (g := fun b => (if 46 ≤ b % 64 then 0 else b % 64) + (if 3 ≤ b / 64 then 0 else b / 64) * 64)
    (show 96 ≤ 96 + k ∧ 96 + k < 160 by omega) (fun m hm => ?_) fun b hb => ?_
  · refine foldl_fixByte_at (e := fun k => 96 + k) (fun _ _ => Nat.add_left_cancel) hk (by omega) fun b hb => ?_
    unfold fixFeature
    split <;> split <;> omega
  · unfold fixFeature
    split <;> split <;> split <;> omega

/-- The effect, the modes and the period of an output record (R103). -/
theorem passed_output {n : Nat} (hn : n < 8) :
    (byteAt (passed w img) (160 + 8 * n) = if w (160 + 8 * n) then (if 4 < byteAt img (160 + 8 * n) then 0
      else byteAt img (160 + 8 * n)) else byteAt img (160 + 8 * n)) ∧
    (byteAt (passed w img) (165 + 8 * n) =
      if w (165 + 8 * n) then max 2 (byteAt img (165 + 8 * n)) else byteAt img (165 + 8 * n)) ∧
    (byteAt (passed w img) (162 + 8 * n) = if w (162 + 8 * n) then
      (if byteAt img (162 + 8 * n) % 4 = 3 then 0 else byteAt img (162 + 8 * n) % 4) +
        byteAt img (162 + 8 * n) / 4 % 4 * 4 +
        (if byteAt img (162 + 8 * n) / 16 % 4 = 3 then 0 else byteAt img (162 + 8 * n) / 16 % 4) * 16 +
        byteAt img (162 + 8 * n) / 64 * 64 else byteAt img (162 + 8 * n)) := by
  have hrun (m : List Byte) : ∃ m', m'.length = m.length ∧
      ∀ j, j = 160 + 8 * n ∨ j = 160 + 8 * n + 2 ∨ j = 160 + 8 * n + 5 → byteAt m' j = byteAt m j ∧
        byteAt (Pass.outputs.run w m) j = byteAt (fixOutput w m' (160 + 8 * n)) j :=
    Edit.foldl_isolates (fun n => Pass.fixOutput_edit w (160 + 8 * n)) List.nodup_range (List.mem_range.2 hn)
      (fun _ _ _ _ _ => by omega) m
  have heffect : ∀ b, b < 256 → fixEffect b < 256 := fun b hb => by unfold fixEffect; split <;> omega
  have hmodes : ∀ b, b < 256 → fixModes b < 256 := fun b hb => by unfold fixModes; omega
  refine ⟨?_, ?_, ?_⟩
  · refine passed_at himg (p := .outputs) (f := fixEffect) (g := fun b => if 4 < b then 0 else b)
      (show _ ∧ _ ∧ _ by omega) (fun m hm => ?_) fun _ _ => rfl
    obtain ⟨m', hlen, hm'⟩ := hrun m
    obtain ⟨hsame, hout⟩ := hm' _ (.inl rfl)
    rw [hout, fixOutput, (fixByte_edit w _ _).other _ _ (by omega), (fixByte_edit w _ _).other _ _ (by omega),
      fixByte_at (by omega) (heffect _ (byteAt_lt _ _)), hsame]
  · refine passed_at himg (p := .outputs) (f := max 2) (g := max 2) (show _ ∧ _ ∧ _ by omega) (fun m hm => ?_) fun _ _ => rfl
    obtain ⟨m', hlen, hm'⟩ := hrun m
    obtain ⟨hsame, hout⟩ := hm' (165 + 8 * n) (.inr (.inr (by omega)))
    have hplace : 165 + 8 * n = 160 + 8 * n + 5 := by omega
    have hlt := byteAt_lt m' (160 + 8 * n + 5)
    have hbefore (m : List Byte) :
        byteAt (fixByte w (160 + 8 * n + 2) fixModes (fixByte w (160 + 8 * n) fixEffect m)) (160 + 8 * n + 5) =
          byteAt m (160 + 8 * n + 5) :=
      ((fixByte_edit w _ _).other _ _ (by omega)).trans ((fixByte_edit w _ _).other _ _ (by omega))
    rw [hplace] at hsame hout ⊢
    rw [hout, fixOutput, fixByte_at (by simp; omega) (by rw [hbefore]; omega), hbefore, hsame]
  · refine passed_at himg (p := .outputs) (f := fixModes)
      (g := fun b => (if b % 4 = 3 then 0 else b % 4) + b / 4 % 4 * 4 +
        (if b / 16 % 4 = 3 then 0 else b / 16 % 4) * 16 + b / 64 * 64)
      (show _ ∧ _ ∧ _ by omega) (fun m hm => ?_) fun b hb => ?_
    · obtain ⟨m', hlen, hm'⟩ := hrun m
      obtain ⟨hsame, hout⟩ := hm' (162 + 8 * n) (.inr (.inl (by omega)))
      have hplace : 162 + 8 * n = 160 + 8 * n + 2 := by omega
      have hbefore (m : List Byte) : byteAt (fixByte w (160 + 8 * n) fixEffect m) (160 + 8 * n + 2) =
          byteAt m (160 + 8 * n + 2) := (fixByte_edit w _ _).other _ _ (by omega)
      rw [hplace] at hsame hout ⊢
      rw [hout, fixOutput, (fixByte_edit w _ _).other _ _ (by omega),
        fixByte_at (by simp; omega) (hmodes _ (byteAt_lt _ _)), hbefore, hsame]
    · unfold fixModes
      split <;> split <;> omega

/-- The start weight of a cue (R114). -/
theorem passed_cue {c : Nat} (hc : c < 32) : byteAt (passed w img) (261 + 6 * c) =
    if w (261 + 6 * c) then max 1 (byteAt img (261 + 6 * c)) else byteAt img (261 + 6 * c) := by
  have hplace : 261 + 6 * c = 256 + 6 * c + 5 := by omega
  rw [hplace]
  refine passed_at himg (p := .cues) (f := max 1) (g := max 1) (show _ ∧ _ ∧ _ by omega) (fun m hm => ?_) fun _ _ => rfl
  exact foldl_fixByte_at (e := fun c => 256 + 6 * c + 5) (fun _ _ h => by omega) hc (by omega) fun b hb => by omega

omit himg in
theorem signed16_fixThreshold (n : Nat) : signed16 (fixThreshold n) = clamp (-4000) 1023 (signed16 n) := by
  have hrange : -4000 ≤ clamp (-4000) 1023 (signed16 n) ∧ clamp (-4000) 1023 (signed16 n) ≤ 1023 := by
    unfold clamp
    split
    · omega
    · split <;> omega
  unfold fixThreshold
  generalize clamp (-4000) 1023 (signed16 n) = x at *
  unfold signed16
  split <;> omega

/-- A threshold of the sound settings (R119). -/
theorem passed_threshold {i : Nat} (hi : i = 449 ∨ i = 451) : signed16 (halfAt (passed w img) i) =
    if w i || w (i + 1) then clamp (-4000) 1023 (signed16 (halfAt img i)) else signed16 (halfAt img i) := by
  have hbound (b : Nat) : fixThreshold b < 65536 := by unfold fixThreshold; omega
  have hvalue : halfAt (passed w img) i =
      if w i || w (i + 1) then fixThreshold (halfAt img i) else halfAt img i := by
    refine passed_half_at himg (p := .thresholds) (show _ ∧ _ by omega) (show _ ∧ _ by omega) fun m hm => ?_
    rcases hi with rfl | rfl
    · rw [← fixHalf_at (w := w) (i := 449) (m := m) (by omega) (hbound _)]
      have hlater (j : Nat) (hj : j < 451) : byteAt (Pass.thresholds.run w m) j = byteAt (fixHalf w 449 fixThreshold m) j :=
        (fixHalf_edit w 451 fixThreshold).other _ j (by omega)
      unfold halfAt
      rw [hlater 449 (by omega), hlater 450 (by omega)]
    · have hearlier : halfAt (fixHalf w 449 fixThreshold m) 451 = halfAt m 451 := by
        unfold halfAt
        rw [(fixHalf_edit w 449 fixThreshold).other _ 451 (by omega), (fixHalf_edit w 449 fixThreshold).other _ 452 (by omega)]
      refine (fixHalf_at (w := w) (i := 451) (m := fixHalf w 449 fixThreshold m) ?_ (hbound _)).trans ?_
      · rw [fixHalf_length]
        omega
      · rw [hearlier]
  rw [hvalue]
  split
  · exact signed16_fixThreshold _
  · rfl

/-- A cue id of the sound settings (R119). -/
theorem passed_cueId {k : Nat} (hk : k < 6) : byteAt (passed w img) (453 + k) =
    if w (453 + k) then (if 32 ≤ byteAt img (453 + k) then 255 else byteAt img (453 + k)) else byteAt img (453 + k) := by
  refine passed_at himg (p := .cueIds) (f := fixCueId) (g := fun b => if 32 ≤ b then 255 else b)
    (show _ ∧ _ by omega) (fun m hm => ?_) fun _ _ => rfl
  refine foldl_fixByte_at (e := fun k => 453 + k) (fun _ _ => Nat.add_left_cancel) hk (by omega) fun b hb => ?_
  unfold fixCueId
  split <;> omega

/-- The two bytes of a voice partition (R119). -/
theorem passed_partition {v : Nat} (hv : v < 6) :
    (byteAt (passed w img) (459 + 2 * v) =
      if w (459 + 2 * v) then min 63 (byteAt img (459 + 2 * v)) else byteAt img (459 + 2 * v)) ∧
    (byteAt (passed w img) (460 + 2 * v) = if w (460 + 2 * v) then
      byteAt img (460 + 2 * v) / 64 * 64 + min 32 (byteAt img (460 + 2 * v) % 64) else byteAt img (460 + 2 * v)) := by
  have hrun (m : List Byte) : ∃ m', m'.length = m.length ∧ ∀ j, j = 459 + 2 * v ∨ j = 460 + 2 * v →
      byteAt m' j = byteAt m j ∧ byteAt (Pass.partitions.run w m) j = byteAt (fixPartition w m' v) j :=
    Edit.foldl_isolates (Pass.fixPartition_edit w) List.nodup_range (List.mem_range.2 hv) (fun _ _ _ _ _ => by omega) m
  have hsize : ∀ b, b < 256 → fixSize b < 256 := fun b hb => by unfold fixSize; omega
  refine ⟨?_, ?_⟩
  · refine passed_at himg (p := .partitions) (f := min 63) (g := min 63) (show _ ∧ _ by omega) (fun m hm => ?_)
      fun _ _ => rfl
    obtain ⟨m', hlen, hm'⟩ := hrun m
    obtain ⟨hsame, hout⟩ := hm' _ (.inl rfl)
    rw [hout, fixPartition, (fixByte_edit w _ _).other _ _ (by omega), fixByte_at (by omega) (by omega), hsame]
  · refine passed_at himg (p := .partitions) (f := fixSize) (g := fun b => b / 64 * 64 + min 32 (b % 64))
      (show _ ∧ _ by omega) (fun m hm => ?_) fun _ _ => rfl
    obtain ⟨m', hlen, hm'⟩ := hrun m
    obtain ⟨hsame, hout⟩ := hm' _ (.inr rfl)
    have hbefore (m : List Byte) : byteAt (fixByte w (459 + 2 * v) (min 63) m) (460 + 2 * v) = byteAt m (460 + 2 * v) :=
      (fixByte_edit w _ _).other _ _ (by omega)
    rw [hout, fixPartition, fixByte_at (by simp; omega) (hsize _ (byteAt_lt _ _)), hbefore, hsame]

/-- The count and the tolerance of a signature slot (R158). -/
theorem passed_slot {n : Nat} (hn : n < 8) :
    (byteAt (passed w img) (480 + 29 * n) = if w (480 + 29 * n) then
      min (if n = 7 then 18 else 24) (byteAt img (480 + 29 * n)) else byteAt img (480 + 29 * n)) ∧
    (byteAt (passed w img) (481 + 29 * n) =
      if w (481 + 29 * n) then min 15 (byteAt img (481 + 29 * n)) else byteAt img (481 + 29 * n)) := by
  have hrun (m : List Byte) : ∃ m', m'.length = m.length ∧ ∀ j, j = 480 + 29 * n ∨ j = 481 + 29 * n →
      byteAt m' j = byteAt m j ∧ byteAt (Pass.slots.run w m) j = byteAt (fixSlot w m' n) j :=
    Edit.foldl_isolates (Pass.fixSlot_edit w) List.nodup_range (List.mem_range.2 hn) (fun _ _ _ _ _ => by omega) m
  refine ⟨?_, ?_⟩
  · refine passed_at himg (p := .slots) (f := min (slotLimit n)) (g := min (if n = 7 then 18 else 24))
      (show _ ∧ _ ∧ _ by omega) (fun m hm => ?_) fun _ _ => rfl
    obtain ⟨m', hlen, hm'⟩ := hrun m
    obtain ⟨hsame, hout⟩ := hm' _ (.inl rfl)
    have hlt := byteAt_lt m' (480 + 29 * n)
    rw [hout, fixSlot, (fixByte_edit w _ _).other _ _ (by omega), fixByte_at (by omega) (by omega), hsame]
  · refine passed_at himg (p := .slots) (f := min 15) (g := min 15) (show _ ∧ _ ∧ _ by omega) (fun m hm => ?_)
      fun _ _ => rfl
    obtain ⟨m', hlen, hm'⟩ := hrun m
    obtain ⟨hsame, hout⟩ := hm' _ (.inr rfl)
    have hbefore (m : List Byte) : byteAt (fixByte w (480 + 29 * n) (min (slotLimit n)) m) (481 + 29 * n) =
        byteAt m (481 + 29 * n) := (fixByte_edit w _ _).other _ _ (by omega)
    rw [hout, fixSlot, fixByte_at (by simp; omega) (by omega), hbefore, hsame]

end Passed

end Sys2Proof.Machine
end

section
/-! The actions and the three ties of the checks, and every other byte (R53, R74, R146, R161, R168); O55. -/

namespace Sys2Proof.Machine

/-! ### The actions (R161) -/

/-- The kind of a checked action. -/
def keptKind (b : Nat) : Nat := if 4 < b % 8 then 0 else b % 8

theorem fixActionKind_eq {b : Nat} (hb : b < 256) : fixActionKind b =
    keptKind b + b / 8 % 8 * 8 + (if 3 ≤ b / 64 then 0 else b / 64) * 64 := by
  unfold fixActionKind keptKind
  split <;> split <;> split <;> omega

theorem fixActionKind_lt {b : Nat} (hb : b < 256) : fixActionKind b < 256 := by
  unfold fixActionKind
  split <;> split <;> omega

theorem fixActionKind_mod (b : Nat) : fixActionKind b % 8 = keptKind b := by
  unfold fixActionKind keptKind
  split <;> split <;> omega

theorem fixActionValue_lt {kind b : Nat} (hb : b < 256) : fixActionValue kind b < 256 := by
  unfold fixActionValue
  split
  · omega
  · split <;> omega

/-- The kind and the value of an action, treated together (log 28). -/
theorem fixAction_at {w : Nat → Bool} {m : List Byte} {i : Nat} (hi : i + 1 < m.length) :
    (byteAt (fixAction w m i) i = if w i || w (i + 1) then fixActionKind (byteAt m i) else byteAt m i) ∧
    (byteAt (fixAction w m i) (i + 1) =
      if w i || w (i + 1) then fixActionValue (keptKind (byteAt m i)) (byteAt m (i + 1)) else byteAt m (i + 1)) := by
  unfold fixAction
  split
  · have hkind : byteAt (m.set i (BitVec.ofNat 8 (fixActionKind (byteAt m i)))) i = fixActionKind (byteAt m i) :=
      byteAt_set_self (by omega) (fixActionKind_lt (byteAt_lt m i))
    dsimp only
    rw [hkind, fixActionKind_mod, byteAt_set_other (by omega : i ≠ i + 1)]
    refine ⟨?_, ?_⟩
    · rw [byteAt_set_other (by omega), hkind]
    · exact byteAt_set_self (by rw [List.length_set]; exact hi) (fixActionValue_lt (byteAt_lt m (i + 1)))
  · exact ⟨rfl, rfl⟩

theorem passed_action {w : Nat → Bool} {img : List Byte} (himg : img.length = 776) {n : Nat} (hn : n < 8) :
    (byteAt (passed w img) (712 + 8 * n) = if w (712 + 8 * n) || w (712 + 8 * n + 1) then
      fixActionKind (byteAt img (712 + 8 * n)) else byteAt img (712 + 8 * n)) ∧
    (byteAt (passed w img) (712 + 8 * n + 1) = if w (712 + 8 * n) || w (712 + 8 * n + 1) then
      fixActionValue (keptKind (byteAt img (712 + 8 * n))) (byteAt img (712 + 8 * n + 1))
      else byteAt img (712 + 8 * n + 1)) := by
  obtain ⟨m, hlen, hm⟩ := passed_isolates w .actions img
  obtain ⟨hkind, houtKind⟩ := hm (712 + 8 * n) (show _ ∧ _ ∧ _ by omega)
  obtain ⟨hvalue, houtValue⟩ := hm (712 + 8 * n + 1) (show _ ∧ _ ∧ _ by omega)
  obtain ⟨m', hlen', hm'⟩ := Edit.foldl_isolates (fun k => fixAction_edit w (712 + 8 * k)) List.nodup_range
    (List.mem_range.2 hn) (fun _ _ _ _ _ => by omega) m
  obtain ⟨hkind', houtKind'⟩ := hm' (712 + 8 * n) (.inl rfl)
  obtain ⟨hvalue', houtValue'⟩ := hm' (712 + 8 * n + 1) (.inr rfl)
  have hfix := fixAction_at (w := w) (m := m') (i := 712 + 8 * n) (by omega)
  rw [hkind', hvalue', hkind, hvalue] at hfix
  exact ⟨(houtKind.trans houtKind').trans hfix.1, (houtValue.trans houtValue').trans hfix.2⟩

/-! ### The ties (R53, R74, R146) -/

/-- The image after the ties. -/
def tied (m : List Byte) : List Byte := tieConsist (tieForget (tieLevels m))

theorem checkedImage_eq (w : Nat → Bool) (img : List Byte) : checkedImage w img = tied (passed w img) := rfl

theorem tieConsist_other {m : List Byte} (hlen : 10 ≤ m.length) {j : Nat} (hj : j < 3 ∨ 9 < j) :
    byteAt (tieConsist m) j = byteAt m j := by
  unfold tieConsist
  split
  · rfl
  · rw [byteAt_overlay (by rw [List.length_replicate]; omega), List.length_replicate, if_neg (by omega)]

theorem tieForget_other {m : List Byte} {j : Nat} (hj : j ≠ 12) : byteAt (tieForget m) j = byteAt m j :=
  byteAt_set_other (Ne.symm hj) _

theorem tieLevels_other {m : List Byte} {j : Nat} (hj : j ≠ 234) (hj' : j ≠ 235) : byteAt (tieLevels m) j = byteAt m j :=
  byteAt_putHalf_other hj hj' _

section Ties

variable {m : List Byte} (hm : m.length = 776)
include hm

theorem tieLevels_length : (tieLevels m).length = 776 := (putHalf_length m 234 _).trans hm

theorem tieForget_length : (tieForget m).length = 776 := (List.length_set ..).trans hm

/-- A byte that no tie reaches. -/
theorem tied_other {j : Nat} (h3 : j < 3 ∨ 9 < j) (h12 : j ≠ 12) (h234 : j ≠ 234) (h235 : j ≠ 235) :
    byteAt (tied m) j = byteAt m j := by
  have hlen := tieForget_length (tieLevels_length hm)
  unfold tied
  rw [tieConsist_other (by omega) h3, tieForget_other h12, tieLevels_other h234 h235]

theorem tied_half {j : Nat} (h : j < 2 ∨ (12 < j ∧ j < 233) ∨ 235 < j) : halfAt (tied m) j = halfAt m j := by
  unfold halfAt
  rw [tied_other hm (by omega) (by omega) (by omega) (by omega), tied_other hm (by omega) (by omega) (by omega) (by omega)]

/-- The stop level is raised to the cut level (R146). -/
theorem tied_stopLevel : halfAt (tied m) 234 = max (halfAt m 234) (halfAt m 236) := by
  have hlen := tieForget_length (tieLevels_length hm)
  have hlast {j : Nat} (hj : j = 234 ∨ j = 235) : byteAt (tied m) j = byteAt (tieLevels m) j := by
    unfold tied
    rw [tieConsist_other (by omega) (by omega), tieForget_other (by omega)]
  have hput : halfAt (tieLevels m) 234 = max (halfAt m 234) (halfAt m 236) := by
    have h234 := halfAt_lt m 234
    have h236 := halfAt_lt m 236
    exact halfAt_putHalf (by omega) (by omega)
  rw [← hput]
  unfold halfAt
  rw [hlast (.inl rfl), hlast (.inr rfl)]

/-- The forget time is raised to the reclaim window, rounded up to 10 s (R53). -/
theorem tied_forgetTime : byteAt (tied m) 12 = max (byteAt m 12) ((byteAt m 11 + 9) / 10) := by
  have hlen := tieForget_length (tieLevels_length hm)
  have h12 := byteAt_lt (tieLevels m) 12
  have h11 := byteAt_lt (tieLevels m) 11
  have hset : byteAt (tieForget (tieLevels m)) 12 =
      max (byteAt (tieLevels m) 12) ((byteAt (tieLevels m) 11 + 9) / 10) :=
    byteAt_set_self (by rw [tieLevels_length hm]; decide) (by omega)
  unfold tied
  rw [tieConsist_other (by omega) (by omega), hset, tieLevels_other (by omega) (by omega),
    tieLevels_other (by omega) (by omega)]

/-- The consist record of an image is set. -/
def ConsistIsSet (m : List Byte) : Prop := 1 ≤ byteAt m 3 ∧ byteAt m 3 ≤ 127 ∧ 1 ≤ byteAt m 4 ∧ byteAt m 4 ≤ 3

/-- The consist record of an image is clear. -/
def ConsistIsClear (m : List Byte) : Prop :=
  byteAt m 3 = 0 ∧ (byteAt m 4 = 0 ∨ 3 < byteAt m 4) ∧ byteAt m 5 % 2 = 0 ∧ wordAt m 6 = 0

omit hm in
theorem positionOf_eq_none_iff (n : Nat) : positionOf n = .none ↔ n = 0 ∨ 3 < n := by
  unfold positionOf
  split
  · simp; omega
  · split
    · simp; omega
    · split
      · simp; omega
      · simp; omega

omit hm in
theorem imageConsistSet_iff (m : List Byte) : imageConsistSet m = true ↔ ConsistIsSet m := by
  have hnone := positionOf_eq_none_iff (byteAt m 4)
  unfold imageConsistSet ConsistIsSet
  rw [Bool.and_eq_true, Bool.and_eq_true, decide_eq_true_eq, decide_eq_true_eq, bne_iff_ne, Ne, hnone]
  omega

omit hm in
theorem imageConsistClear_iff (m : List Byte) : imageConsistClear m = true ↔ ConsistIsClear m := by
  unfold imageConsistClear ConsistIsClear
  simp only [Bool.and_eq_true, beq_iff_eq, positionOf_eq_none_iff, and_assoc]

/-- The other ties leave the consist record. -/
theorem consist_before_tie {j : Nat} (hj : 3 ≤ j ∧ j ≤ 9) : byteAt (tieForget (tieLevels m)) j = byteAt m j :=
  (tieForget_other (by omega)).trans (tieLevels_other (by omega) (by omega))

theorem consistIsSet_before_tie : ConsistIsSet (tieForget (tieLevels m)) ↔ ConsistIsSet m := by
  unfold ConsistIsSet
  rw [consist_before_tie hm (by omega), consist_before_tie hm (by omega)]

theorem consistIsClear_before_tie : ConsistIsClear (tieForget (tieLevels m)) ↔ ConsistIsClear m := by
  unfold ConsistIsClear wordAt halfAt
  rw [consist_before_tie hm (by omega : 3 ≤ 3 ∧ 3 ≤ 9), consist_before_tie hm (by omega : 3 ≤ 4 ∧ 4 ≤ 9),
    consist_before_tie hm (by omega : 3 ≤ 5 ∧ 5 ≤ 9), consist_before_tie hm (by omega : 3 ≤ 6 ∧ 6 ≤ 9),
    consist_before_tie hm (by omega : 3 ≤ 6 + 1 ∧ 6 + 1 ≤ 9), consist_before_tie hm (by omega : 3 ≤ 6 + 2 ∧ 6 + 2 ≤ 9),
    consist_before_tie hm (by omega : 3 ≤ 6 + 2 + 1 ∧ 6 + 2 + 1 ≤ 9)]

/-- A consist record that is set or clear stays. -/
theorem tied_consist_stays (h : ConsistIsSet m ∨ ConsistIsClear m) {j : Nat} (hj : 3 ≤ j ∧ j ≤ 9) :
    byteAt (tied m) j = byteAt m j := by
  have hkept : (imageConsistSet (tieForget (tieLevels m)) || imageConsistClear (tieForget (tieLevels m))) = true := by
    rw [Bool.or_eq_true, imageConsistSet_iff, imageConsistClear_iff, consistIsSet_before_tie hm, consistIsClear_before_tie hm]
    exact h
  unfold tied tieConsist
  rw [if_pos hkept, consist_before_tie hm hj]

/-- A consist record that is neither becomes clear. -/
theorem tied_consist_clears (h : ¬ (ConsistIsSet m ∨ ConsistIsClear m)) {j : Nat} (hj : 3 ≤ j ∧ j ≤ 9) :
    byteAt (tied m) j = 0 := by
  have hgone : ¬ (imageConsistSet (tieForget (tieLevels m)) || imageConsistClear (tieForget (tieLevels m))) = true := by
    rw [Bool.or_eq_true, imageConsistSet_iff, imageConsistClear_iff, consistIsSet_before_tie hm, consistIsClear_before_tie hm]
    exact h
  have hlen := tieForget_length (tieLevels_length hm)
  unfold tied tieConsist
  rw [if_neg hgone, byteAt_overlay (by rw [List.length_replicate]; omega), List.length_replicate, if_pos (by omega)]
  unfold byteAt
  rw [List.getD_eq_getElem?_getD, List.getElem?_replicate, if_pos (by omega)]
  rfl

end Ties

/-! ### A byte that no check changes (R168) -/

/-- A byte without a range of its own. -/
def Unranged (i : Nat) : Prop :=
  i = 2 ∨ (14 ≤ i ∧ i ≤ 31) ∨ i = 64 ∨ i = 65 ∨ (72 ≤ i ∧ i ≤ 95) ∨
    (160 ≤ i ∧ i ≤ 223 ∧ i % 8 ≠ 0 ∧ i % 8 ≠ 2 ∧ i % 8 ≠ 5) ∨ i = 229 ∨ i = 230 ∨ i = 242 ∨
    (247 ≤ i ∧ i ≤ 448 ∧ (i < 256 ∨ 447 < i ∨ (i - 256) % 6 ≠ 5)) ∨
    (471 ≤ i ∧ i ≤ 705 ∧ (i < 480 ∨ 1 < (i - 480) % 29)) ∨ i = 710 ∨ i = 711 ∨
    (712 ≤ i ∧ 1 < (i - 712) % 8)

theorem not_reached_of_unranged {i : Nat} (h : Unranged i) (p : Pass) : ¬ p.reach i := by
  intro hr
  unfold Unranged at h
  cases p with
  | bytes =>
    have := Pass.reach_bytes hr
    omega
  | halves =>
    have := Pass.reach_halves hr
    omega
  | _ =>
    unfold Pass.reach at hr
    omega

theorem checkedImage_unranged {w : Nat → Bool} {img : List Byte} (himg : img.length = 776) {i : Nat} (h : Unranged i) :
    byteAt (checkedImage w img) i = byteAt img i := by
  have hplace := h
  unfold Unranged at hplace
  rw [checkedImage_eq, tied_other (passed_length himg) (by omega) (by omega) (by omega) (by omega)]
  exact (passed_edit w).other img i fun ⟨p, _, hp⟩ => not_reached_of_unranged h p hp

theorem clampNat_zero (hi x : Nat) : clampNat 0 hi x = min hi x := by
  unfold clampNat
  rw [if_neg (Nat.not_lt_zero x)]
  split <;> omega

/-- A forget time of at least 1 within a byte. -/
theorem clampNat_byte {x : Nat} (hx : x < 256) : clampNat 1 255 x = max 1 x := by
  unfold clampNat
  split
  · omega
  · split <;> omega

/-- Settles O55. -/
theorem checkedImageObeysTheRules : Obligations.CheckedImageObeysTheRules := by
  unfold Obligations.CheckedImageObeysTheRules
  intro w img himg out was is byte clamped half coded mode address record nothing
  have hpassed := passed_length (w := w) himg
  have hkept {j : Nat} (h3 : j < 3 ∨ 9 < j) (h12 : j ≠ 12) (h234 : j ≠ 234) (h235 : j ≠ 235) :
      is j = byteAt (passed w img) j := tied_other hpassed h3 h12 h234 h235
  have hbyte {i lo hi : Nat} (hr : (i, 1, lo, hi) ∈ byteRanges) (h3 : i < 3 ∨ 9 < i) (h12 : i ≠ 12)
      (h234 : i ≠ 234) (h235 : i ≠ 235) : byte i lo hi :=
    (hkept h3 h12 h234 h235).trans (passed_byte himg hr (k := 0) Nat.one_pos)
  have hhalf {i lo hi : Nat} (hr : (i, 1, lo, hi) ∈ halfRanges) (h : i < 2 ∨ (12 < i ∧ i < 233) ∨ 235 < i) :
      half i lo hi := (tied_half hpassed h).trans (passed_half himg hr (k := 0) Nat.one_pos)
  have hspan {i n lo hi k : Nat} (hr : (i, n, lo, hi) ∈ halfRanges) (hk : k < n)
      (h : i + 2 * k < 2 ∨ (12 < i + 2 * k ∧ i + 2 * k < 233) ∨ 235 < i + 2 * k) : half (i + 2 * k) lo hi :=
    (tied_half hpassed h).trans (passed_half himg hr hk)
  have hclear {j : Nat} (h : Pass.reach .bytes j → False) (h' : Pass.reach .halves j → False) (hj : j ≤ 9) :
      byteAt (passed w img) j = was j := by
    refine (passed_edit w).other img j ?_
    rintro ⟨p, -, hp⟩
    cases p with
    | bytes => exact h hp
    | halves => exact h' hp
    | _ =>
      unfold Pass.reach at hp
      omega
  have hfree {j : Nat} (hj : 5 ≤ j ∧ j ≤ 9) : byteAt (passed w img) j = was j := by
    refine hclear (fun hr => ?_) (fun hr => ?_) hj.2
    · have := Pass.reach_bytes hr
      omega
    · have := Pass.reach_halves hr
      omega
  have haddress : byteAt (passed w img) 3 = address := by
    refine (passed_byte himg (r := (3, 1, 0, 127)) (by decide) (k := 0) Nat.one_pos).trans ?_
    rw [clampNat_zero]
  have hmode : byteAt (passed w img) 4 = mode := by
    refine (passed_byte himg (r := (4, 1, 0, 3)) (by decide) (k := 0) Nat.one_pos).trans ?_
    rw [clampNat_zero]
  have hrecord : ConsistIsSet (passed w img) ↔ record := by
    unfold ConsistIsSet
    rw [haddress, hmode]
  have hnothing : ConsistIsClear (passed w img) ↔ nothing := by
    unfold ConsistIsClear wordAt halfAt
    rw [haddress, hmode, hfree (by omega : 5 ≤ 5 ∧ 5 ≤ 9), hfree (by omega : 5 ≤ 6 ∧ 6 ≤ 9),
      hfree (by omega : 5 ≤ 6 + 1 ∧ 6 + 1 ≤ 9), hfree (by omega : 5 ≤ 6 + 2 ∧ 6 + 2 ≤ 9),
      hfree (by omega : 5 ≤ 6 + 2 + 1 ∧ 6 + 2 + 1 ≤ 9)]
    rfl
  have hexcluded {j : Nat} (h3 : j < 3 ∨ 9 < j) (h12 : j ≠ 12) (h : j < 234 ∨ 235 < j) :
      is j = byteAt (passed w img) j := hkept h3 h12 (by omega) (by omega)
  refine ⟨(checkedImage_length w img (by omega)).trans himg,
    ⟨hhalf (by decide) (.inl (by decide)), hbyte (by decide) (.inr (by decide)) (by decide) (by decide) (by decide),
      hbyte (by decide) (.inr (by decide)) (by decide) (by decide) (by decide),
      hbyte (by decide) (.inr (by decide)) (by decide) (by decide) (by decide)⟩,
    ?forget, fun h => ⟨?address, ?mode, fun k hk => ?rest⟩, fun h h' k hk => ?cleared,
    fun k hk => hspan (i := 32) (n := 11) (by decide) hk (.inr (.inl (by omega))),
    ⟨?trimForward, ?trimReverse, hspan (i := 56) (n := 3) (k := 0) (by decide) (by decide) (.inr (.inl (by decide))),
      hspan (i := 56) (n := 3) (k := 1) (by decide) (by decide) (.inr (.inl (by decide))),
      hspan (i := 56) (n := 3) (k := 2) (by decide) (by decide) (.inr (.inl (by decide))),
      hhalf (by decide) (.inr (.inl (by decide))), hhalf (by decide) (.inr (.inl (by decide))),
      hbyte (by decide) (.inr (by decide)) (by decide) (by decide) (by decide), hhalf (by decide) (.inr (.inl (by decide))),
      hbyte (by decide) (.inr (by decide)) (by decide) (by decide) (by decide)⟩,
    ⟨hhalf (by decide) (.inr (.inl (by decide))), hhalf (by decide) (.inr (.inl (by decide))),
      hbyte (by decide) (.inr (by decide)) (by decide) (by decide) (by decide),
      hbyte (by decide) (.inr (by decide)) (by decide) (by decide) (by decide)⟩,
    ⟨hhalf (by decide) (.inr (.inl (by decide))), ?stopLevel, hhalf (by decide) (.inr (.inr (by decide))),
      hhalf (by decide) (.inr (.inr (by decide))), hhalf (by decide) (.inr (.inr (by decide))),
      hhalf (by decide) (.inr (.inr (by decide))), hhalf (by decide) (.inr (.inr (by decide)))⟩,
    ⟨hbyte (by decide) (.inr (by decide)) (by decide) (by decide) (by decide), hhalf (by decide) (.inr (.inr (by decide))),
      hbyte (by decide) (.inr (by decide)) (by decide) (by decide) (by decide)⟩,
    fun k hk => (hexcluded (by omega) (by omega) (by omega)).trans (passed_feature himg hk), fun n hn => ?output,
    fun c hc => (hexcluded (by omega) (by omega) (by omega)).trans (passed_cue himg hc), fun i hi => ?threshold,
    fun k hk => ⟨(hexcluded (by omega) (by omega) (by omega)).trans (passed_cueId himg hk), ?partitionStart, ?partitionSize⟩,
    fun n hn => ?slot, fun n hn => ?action, fun i hi => checkedImage_unranged himg hi, fun i h3 h12 h234 h235 hw hw' hw'' => ?calm⟩
  case forget =>
    have h12 := passed_byte (w := w) himg (r := (12, 1, 1, 255)) (by decide) (k := 0) Nat.one_pos
    have h11 : is 11 = byteAt (passed w img) 11 := hexcluded (.inr (by decide)) (by decide) (.inl (by decide))
    refine (tied_forgetTime hpassed).trans ?_
    rw [h11, show byteAt (passed w img) 12 = _ from h12, clampNat_byte (byteAt_lt _ _)]
  case address => exact (tied_consist_stays hpassed (h.imp hrecord.2 hnothing.2) (by omega)).trans haddress
  case mode => exact (tied_consist_stays hpassed (h.imp hrecord.2 hnothing.2) (by omega)).trans hmode
  case rest => exact (tied_consist_stays hpassed (h.imp hrecord.2 hnothing.2) (by omega)).trans (hfree (by omega))
  case cleared =>
    exact tied_consist_clears hpassed (fun hc => hc.elim (fun hs => h (hrecord.1 hs)) fun hn => h' (hnothing.1 hn)) (by omega)
  case trimForward =>
    exact (hexcluded (.inr (by decide)) (by decide) (.inl (by decide))).trans
      (passed_byte himg (r := (54, 2, 64, 192)) (by decide) (k := 0) (by decide))
  case trimReverse =>
    exact (hexcluded (.inr (by decide)) (by decide) (.inl (by decide))).trans
      (passed_byte himg (r := (54, 2, 64, 192)) (by decide) (k := 1) (by decide))
  case stopLevel =>
    have h234 := passed_half (w := w) himg (r := (234, 1, 3000, 20000)) (by decide) (k := 0) Nat.one_pos
    refine (tied_stopLevel hpassed).trans ?_
    rw [show halfAt (passed w img) 234 = clamped 234 3000 20000 from h234, ← tied_half hpassed (.inr (.inr (by decide)))]
    rfl
  case output =>
    obtain ⟨heffect, hperiod, hmodes⟩ := passed_output (w := w) himg hn
    exact ⟨(hexcluded (by omega) (by omega) (by omega)).trans heffect,
      (hexcluded (by omega) (by omega) (by omega)).trans hperiod, (hexcluded (by omega) (by omega) (by omega)).trans hmodes⟩
  case threshold =>
    rw [show halfAt out i = halfAt (passed w img) i from tied_half hpassed (by omega)]
    exact passed_threshold himg hi
  case partitionStart => exact (hexcluded (by omega) (by omega) (by omega)).trans (passed_partition himg hk).1
  case partitionSize => exact (hexcluded (by omega) (by omega) (by omega)).trans (passed_partition himg hk).2
  case slot =>
    obtain ⟨hcount, htol⟩ := passed_slot (w := w) himg hn
    exact ⟨(hexcluded (by omega) (by omega) (by omega)).trans hcount, (hexcluded (by omega) (by omega) (by omega)).trans htol⟩
  case action =>
    obtain ⟨hkind, hvalue⟩ := passed_action (w := w) himg hn
    intro i kind
    rw [fixActionKind_eq (byteAt_lt _ _)] at hkind
    have hkept' (h : (w i || w (i + 1)) = true) : kind = keptKind (was i) := if_pos h
    refine ⟨(hexcluded (by omega) (by omega) (by omega)).trans (hkind.trans ?_),
      (hexcluded (by omega) (by omega) (by omega)).trans (hvalue.trans ?_)⟩
    · split
      · next h => rw [hkept' h]
      · rfl
    · split
      · next h =>
        rw [hkept' h]
        rfl
      · rfl
  case calm => exact (hkept h3 h12 h234 h235).trans ((passed_edit w).calm img i ⟨hw, hw', hw''⟩)

end Sys2Proof.Machine
end

section
/-! CLEAR_FAULTS and the reports (R18, R140, R176, R177), the two resets (R90, R175, R178) and the start-up load (R25,
R144, R178); O58, O59 and O60. -/

namespace Sys2Proof.Machine

/-! ### CLEAR_FAULTS and the reports (R176, R177) -/

theorem exec_clearFaults_dispatched {s t : State} {f : Frame} {m : Mark} {src : Source} (h : Dispatched s f m src t)
    (hk : f.kind = 0x22) : exec .clearFaults s = .next (replied s f m src
      (if mayControl t src then (.status .ok 0, clearFaults t) else (.status .notHolder 0, t))) := by
  have hrow : exec .clearFaults s = .next (takeRequest (ofKind 0x22) actClearFaults s) := rfl
  rw [exec_taken_dispatched hrow h (ofKind_of_kind_eq hk)]
  rfl

theorem clearFaults_eq (t : State) : clearFaults t = { t with
    faults := t.faults.map (fun r => { r with status := .clear, count := 0 })
    motor := { t.motor with fault := none, shorts := [], lastStall := none, stallCount := 0, openCount := 0,
                            state := if t.motor.state = .fault then .stopped else t.motor.state }
    holds := t.holds.filter (fun h => h.source != .motorFault)
    smoke := if t.smoke.state = .fault then { t.smoke with state := .off, demand := 0, duty := 0, fault := none }
      else t.smoke } := by
  unfold clearFaults smokeCleared motorCleared removeHold
  dsimp only
  split <;> rfl

/-- A record that is reported (R176). -/
theorem report_eq (r : FaultRecord) (latched : Bool) (now : Time) : r.report latched now =
    { status := if latched = true ∨ r.status = .latched then .latched else .active, count := min 255 (r.count + 1)
      lastSeen := now, firstSeen := if r.status = .clear then now else r.firstSeen } := by
  have hstatus : (if latched then FaultStatus.latched else if r.status = .clear then .active else r.status) =
      if latched = true ∨ r.status = .latched then .latched else .active := by
    cases latched <;> cases r.status <;> rfl
  unfold FaultRecord.report
  rw [hstatus]
  rfl

/-- Settles O58. -/
theorem clearFaultsClears : Obligations.ClearFaultsClears := by
  unfold Obligations.ClearFaultsClears
  refine ⟨fun s f m src t h hk => ?cleared, fun s k latched r hr => ?reported⟩
  case cleared =>
    intro may
    have hexec := exec_clearFaults_dispatched h hk
    have hmay : mayControl t src = true ↔ may := mayControl_iff t src
    refine ⟨fun hnot => ?_, fun hyes => ?_⟩
    · rw [if_neg fun hc => hnot (hmay.1 hc)] at hexec
      exact hexec
    · rw [if_pos (hmay.2 hyes), clearFaults_eq] at hexec
      exact hexec
  case reported =>
    intro t status
    refine ⟨?_, fun j hj => updateAt_get_other hj _ _, rfl⟩
    exact (updateAt_get_same hr _).trans (congrArg some (report_eq r latched s.partTime))

/-! ### The resets (R90, R178) -/

/-- The Flash Port at a reset. -/
theorem resetFlashPort_keeps (now : Time) (p : FlashPort) :
    (resetFlashPort now p).waiting = [] ∧
      (∀ r d, p.busy = some (r, d) → (resetFlashPort now p).busy = some (r, true)) ∧
      (p.busy = none → ∃ r, (resetFlashPort now p).busy = some (r, false) ∧ r.who = .startUp ∧ r.op = .read 0 778) := by
  unfold resetFlashPort
  refine ⟨rfl, fun r d h => ?_, fun h => ⟨startUpRead now, ?_, rfl, rfl⟩⟩
  · rw [h]
  · rw [h]

theorem exec_softReset (s : State) :
    exec .softReset s = .next (if softResetDue s = true then softReset s else s) := rfl

/-- A soft reset waits for the RESET's reply (R90). -/
theorem softResetDue_iff (s : State) :
    softResetDue s = true ↔ s.resetWait = true ∧ ∀ x ∈ s.replies, x.isReset = false := by
  unfold softResetDue
  rw [Bool.and_eq_true, Bool.not_eq_true', List.any_eq_false]
  simp only [Bool.not_eq_true]

/-- Settles O59. -/
theorem resetsKeepWhatTheyKeep : Obligations.ResetsKeepWhatTheyKeep := by
  unfold Obligations.ResetsKeepWhatTheyKeep
  intro s kept
  refine ⟨⟨powerOn s, rfl, resetFlashPort_keeps 0 s.port, rfl⟩, fun hwait hgone => ?_, fun hundue => ?_⟩
  · refine ⟨softReset s, ?_, resetFlashPort_keeps s.partTime s.port, rfl⟩
    rw [exec_softReset, if_pos ((softResetDue_iff s).2 ⟨hwait, hgone⟩)]
  · rw [exec_softReset, if_neg fun hdue => ?_]
    obtain ⟨hwait, hgone⟩ := (softResetDue_iff s).1 hdue
    rcases hundue with hno | ⟨x, hx, hreset⟩
    · exact Bool.false_ne_true (hno.symm.trans hwait)
    · exact Bool.false_ne_true ((hgone x hx).symm.trans hreset)

/-! ### The start-up load (R178) -/

theorem exec_settingsLoadComplete {s : State} {op : FlashOp} {at_ : Time}
    (h : s.port.busy = some ({ who := .startUp, op := op, entered := at_ }, false)) (ok : Bool) (vt vs : Nat) :
    exec (.settingsLoadComplete ok vt vs) s = .next (startUpDone ok vt vs s) := by
  have hrow : exec (.settingsLoadComplete ok vt vs) s = execSettingsLoadComplete ok vt vs s := rfl
  rw [hrow, execSettingsLoadComplete, h]
  rfl

/-- The saved image is valid where its CRC is the last two of its 778 bytes. -/
theorem imageValid_flash (s : State) :
    imageValid (flashBytes s 0 778) =
      (crcBytes ((flashBytes s 0 778).take 776) == (flashBytes s 0 778).drop 776) := by
  have hlen : ((flashBytes s 0 778).drop 776).length = 2 := by simp [flashBytes]
  unfold imageValid
  rw [List.take_of_length_le hlen.le]

/-- The read settings are valid. -/
def loadValid (ok : Bool) (s : State) : Bool :=
  ok && (crcBytes ((flashBytes s 0 778).take 776) == (flashBytes s 0 778).drop 776)

/-- The settings that the start-up load installs. -/
def loadedSettings (ok : Bool) (s : State) : List Byte :=
  if loadValid ok s = true then checkedImage (fun _ => true) ((flashBytes s 0 778).take 776) else factorySettings

/-- The Fault List after the reports of the start-up load. -/
def loadedFaults (ok : Bool) (s : State) : List FaultRecord :=
  if loadValid ok s = true then s.faults
  else if ok = true then updateAt s.faults 8 (fun r => r.report false s.partTime)
  else updateAt (updateAt s.faults 7 (fun r => r.report false s.partTime)) 8 (fun r => r.report false s.partTime)

/-- What the start-up load installs and reports. -/
theorem loadSettings_eq (ok : Bool) (s : State) : loadSettings ok s = { s with
    settings := loadedSettings ok s, unsaved := !loadValid ok s, changedSinceCopy := false
    faults := loadedFaults ok s } := by
  have hvalid : (ok && imageValid (flashBytes s 0 778)) = loadValid ok s := by rw [imageValid_flash] <;> rfl
  unfold loadSettings loadedSettings loadedFaults
  dsimp only
  rw [hvalid]
  cases hv : loadValid ok s with
  | true =>
    obtain rfl : ok = true := (Bool.and_eq_true_iff.1 hv).1
    rfl
  | false => cases ok <;> rfl

/-- The state at the end of the reset, its port freed (R25, R134, R178). -/
def loadedState (ok : Bool) (s : State) : State := portFreed (endReset (loadSettings ok s))

/-- What the end of the reset leaves. -/
structure Loaded (ok : Bool) (s u : State) : Prop where
  phase : u.phase = .running
  settings : u.settings = loadedSettings ok s
  unsaved : u.unsaved = !loadValid ok s
  faults : u.faults = loadedFaults ok s
  demand : u.demand = { s.demand with applied := wantedDir u }
  limit : u.smoke.limit = (set16 u 224 : Int) + 60
  inUse : u.smoke.inUse = { setpoint := set16 u 224, maxDuty := set16 u 226, idle := set8 u 230 }
  rateDue : u.rateDue = s.partTime + 500
  partTime : u.partTime = s.partTime
  holds : u.holds = s.holds
  flash : u.flash = s.flash
  voiceRam : u.voiceRam = s.voiceRam

theorem loadedState_loaded (ok : Bool) (s : State) : Loaded ok s (loadedState ok s) := by
  unfold loadedState
  rw [loadSettings_eq]
  exact ⟨rfl, rfl, rfl, rfl, rfl, rfl, rfl, rfl, rfl, rfl, rfl, rfl⟩

/-- With the live idle level in use, the decision of the smoke state leaves the settings in use and the limit. -/
theorem smokeDecide_inUse {s : State} (h : s.smoke.inUse.idle = set8 s 230) :
    (smokeDecide s).smoke.inUse = s.smoke.inUse := by
  have hfan (m : FanMode) (u : State) (hu : u.smoke.inUse.idle = set8 u 230) : (setFan m u).smoke.inUse = u.smoke.inUse := by
    rw [setFan_inUse hu]
    rfl
  have hentry (st : SmokeState) (u : State) (hu : u.smoke.inUse.idle = set8 u 230) :
      (fanOnEntry st u).smoke.inUse = u.smoke.inUse := by
    unfold fanOnEntry
    cases st with
    | heating | ready | fault => exact hfan _ u hu
    | off | shed =>
      dsimp only
      split <;> exact hfan _ u hu
  unfold smokeDecide
  split
  · rfl
  · dsimp only
    split
    · rfl
    · unfold enterSmoke
      dsimp only
      split
      · rfl
      · exact hentry _ _ h

/-- The last look of the Smoke Controller and the grants change the smoke, the grants and the free-value counter. -/
theorem granted_frame {u : State} (h : u.smoke.inUse.idle = set8 u 230) : ∃ sm n g,
    publishGrants (smokeDecide u) = { u with smoke := sm, freeCount := n, supply := { u.supply with grants := g } } ∧
      sm.limit = u.smoke.limit ∧ sm.inUse = u.smoke.inUse := by
  have hframe := smokeDecide_frame u
  have hlimit : (smokeDecide u).smoke.limit = u.smoke.limit := (chuffing_turnLaws.decide u).2
  have hinUse := smokeDecide_inUse h
  generalize smokeDecide u = v at *
  refine ⟨{ v.smoke with duty := min v.smoke.demand (computeGrants v).heaterCap }, v.freeCount, computeGrants v, ?_,
    hlimit, hinUse⟩
  rw [publishGrants_eq]
  have hsupply : v.supply = u.supply := (congrArg State.supply hframe :)
  generalize computeGrants v = g
  rw [hsupply]
  generalize v.smoke = x at *
  generalize v.freeCount = n at *
  subst hframe
  rfl

/-- The supply of the start: sensed, and TRACK or DARK with its hold (R144). -/
def supplyBegun (vt vs : Nat) (s : State) : State :=
  let u := { s with supply := { s.supply with vt := vt, vs := vs, lastActivity := s.partTime } }
  if set16 s 232 ≤ vt then { u with supply := { u.supply with state := .track, holdFlag := false } }
  else motorDark (requestSupplyHold { u with supply := { u.supply with state := .dark } })

theorem supplyStart_eq {vt vs : Nat} (hvt : vt ≤ 30000) (hvs : vs ≤ 20000) (s : State) :
    supplyStart vt vs s = publishGrants (smokeDecide (supplyBegun vt vs s)) := by
  have hsensed : senseSupply vt vs s = { s with supply := { s.supply with vt := vt, vs := vs } } := by
    unfold senseSupply
    rw [Nat.min_eq_right hvt, Nat.min_eq_right hvs]
  unfold supplyStart supplyBegun
  rw [hsensed]
  dsimp only
  refine congrArg (fun u => publishGrants (smokeDecide u)) (if_congr ?_ rfl rfl)
  exact decide_eq_true_iff

/-- What the start of the supply leaves of the state. -/
theorem supplyBegun_frame (vt vs : Nat) (s : State) : ∃ mo,
    (supplyBegun vt vs s) = { s with
      motor := mo, holds := (supplyBegun vt vs s).holds, supply := (supplyBegun vt vs s).supply } ∧
    (supplyBegun vt vs s).supply.vt = vt ∧ (supplyBegun vt vs s).supply.vs = vs ∧
    (supplyBegun vt vs s).supply.lastActivity = s.partTime ∧
    (set16 s 232 ≤ vt → (supplyBegun vt vs s).supply.state = .track ∧ (supplyBegun vt vs s).holds = s.holds) ∧
    (vt < set16 s 232 → (supplyBegun vt vs s).supply.state = .dark ∧ (supplyBegun vt vs s).supply.holdFlag = true ∧
      (supplyBegun vt vs s).holds = insertHold { plainStop .supply .normal with created := s.partTime } s.holds) := by
  unfold supplyBegun
  dsimp only
  split
  · next h => exact ⟨s.motor, rfl, rfl, rfl, rfl, fun _ => ⟨rfl, rfl⟩, fun hlow => absurd h (Nat.not_le.2 hlow)⟩
  · next h =>
    exact ⟨{ s.motor with R := 0, rising := 0, falling := 0, Da := 0, I := 0 }, rfl, rfl, rfl, rfl,
      fun hhigh => absurd hhigh h, fun _ => ⟨rfl, rfl, rfl⟩⟩

/-- What the start of the supply, the Smoke Controller's last look and the directory's request leave. -/
structure Started (vt vs : Nat) (u t : State) : Prop where
  frame : t = { u with motor := t.motor, holds := t.holds, supply := t.supply, smoke := t.smoke
                       freeCount := t.freeCount, sound := { u.sound with dirPending := true }, port := t.port }
  limit : t.smoke.limit = u.smoke.limit
  inUse : t.smoke.inUse = u.smoke.inUse
  sensed : t.supply.vt = vt ∧ t.supply.vs = vs
  active : t.supply.lastActivity = u.partTime
  track : set16 u 232 ≤ vt → t.supply.state = .track ∧ t.holds = u.holds
  dark : vt < set16 u 232 → t.supply.state = .dark ∧ t.supply.holdFlag = true ∧
    t.holds = insertHold { plainStop .supply .normal with created := u.partTime } u.holds
  asks : AsksFlash { who := .directory, op := .read 4096 1284, entered := u.partTime } t

theorem started {vt vs : Nat} (hvt : vt ≤ 30000) (hvs : vs ≤ 20000) {u : State}
    (hlive : u.smoke.inUse.idle = set8 u 230) : Started vt vs u (requestDirectory (supplyStart vt vs u)) := by
  obtain ⟨mo, hbegun, hsvt, hsvs, hact, htrack, hdark⟩ := supplyBegun_frame vt vs u
  rw [supplyStart_eq hvt hvs]
  generalize supplyBegun vt vs u = b at *
  obtain ⟨sm, n, g, hgranted, hlimit, hinUse⟩ := granted_frame (u := b) (by rw [hbegun]; exact hlive)
  rw [hgranted]
  have hnow : b.partTime = u.partTime := (congrArg State.partTime hbegun :)
  have hsmoke : b.smoke = u.smoke := (congrArg State.smoke hbegun :)
  let v : State := { b with
    smoke := sm, freeCount := n, supply := { b.supply with grants := g }, sound := { b.sound with dirPending := true } }
  have hport : requestDirectory { b with smoke := sm, freeCount := n, supply := { b.supply with grants := g } } =
      { v with port := (requestFlash .directory (.read 4096 1284) v).port } := requestFlash_port _ _ v
  have hasks := asksFlash_requestFlash .directory (.read 4096 1284) v
  have hv : v.partTime = u.partTime := hnow
  rw [hv, requestFlash_port] at hasks
  rw [hport]
  generalize (requestFlash .directory (.read 4096 1284) v).port = po at *
  refine ⟨?_, hlimit.trans (congrArg Smoke.limit hsmoke), hinUse.trans (congrArg Smoke.inUse hsmoke), ⟨hsvt, hsvs⟩, hact,
    htrack, hdark, hasks⟩
  generalize b.holds = l at *
  generalize b.supply = x at *
  subst hbegun
  rfl

/-- Settles O60. -/
theorem startUpLoadInstalls : Obligations.StartUpLoadInstalls := by
  unfold Obligations.StartUpLoadInstalls
  intro s ok vt vs op at_ hvt hvs hbusy image valid record
  have hl := loadedState_loaded ok s
  have hs : Started vt vs (loadedState ok s) (startUpDone ok vt vs s) := started hvt hvs (congrArg SmokeSettings.idle hl.inUse)
  rw [exec_settingsLoadComplete hbusy]
  generalize startUpDone ok vt vs s = t at *
  generalize loadedState ok s = u at *
  have hset : t.settings = u.settings := (congrArg State.settings hs.frame :)
  have hdemand : t.demand = u.demand := (congrArg State.demand hs.frame :)
  have hbytes (i : Nat) : set8 t i = set8 u i := by unfold set8; rw [hset]
  have hhalves (i : Nat) : set16 t i = set16 u i := by unfold set16; rw [hset]
  have hwanted : wantedDir t = wantedDir u := by
    unfold wantedDir consistReversed
    rw [hbytes, hdemand]
  refine ⟨t, rfl, (congrArg State.phase hs.frame :).trans hl.phase, hset.trans hl.settings,
    (congrArg State.unsaved hs.frame :).trans hl.unsaved, (congrArg State.faults hs.frame :).trans hl.faults, ?_, ?_, ?_,
    ?_, ?_, hs.sensed.1, hs.sensed.2, hs.active.trans hl.partTime, (congrArg State.rateDue hs.frame :).trans hl.rateDue,
    (congrArg (fun x : State => x.sound.dirPending) hs.frame :), ?_, (congrArg State.flash hs.frame :).trans hl.flash,
    (congrArg State.voiceRam hs.frame :).trans hl.voiceRam⟩
  · rw [hdemand, hl.demand, hwanted]
  · rw [hhalves, ← hl.holds]
    exact hs.track
  · rw [hhalves, ← hl.holds, ← hl.partTime]
    exact hs.dark
  · rw [hs.limit, hl.limit, hhalves]
  · rw [hs.inUse, hl.inUse, hhalves, hhalves, hbytes]
  · rw [← hl.partTime]
    exact hs.asks

end Sys2Proof.Machine
end

section
/-! SAVE and the sound bank, and what their operations do to the flash (R130, R173 to R175, R178); O57. -/

namespace Sys2Proof.Machine

/-! ### What a read of the flash gives after an operation (R173, R174) -/

/-- A read after everything below an address has been erased. -/
theorem Mem.read_dropBelow (d : Byte) (n x : Nat) : ∀ {lo : Nat} {m : Mem}, Mem.wfFrom d lo m = true →
    Mem.read d (Mem.dropBelow n m) x = if x < n then d else Mem.read d m x
  | _, [], _ => by
    split <;> rfl
  | _, (k, v) :: rest, hw => by
    simp only [Mem.wfFrom, Bool.and_eq_true, decide_eq_true_eq] at hw
    obtain ⟨_, hrest⟩ := hw
    have ih := Mem.read_dropBelow d n x hrest
    unfold Mem.dropBelow at ih ⊢
    by_cases hk : n ≤ k
    · rw [List.filter_cons_of_pos (by simpa using hk), Mem.read, Mem.read, ih]
      by_cases hx : x < n
      · rw [if_neg (by omega), if_pos (by omega), if_pos hx]
      · rw [if_neg hx, if_neg hx]
    · rw [List.filter_cons_of_neg (by simpa using hk), ih, Mem.read]
      by_cases hx : x < n
      · rw [if_pos hx, if_pos hx]
      · rw [if_neg hx, if_neg hx, if_neg (by omega), if_neg (by omega)]

theorem pageBytes_length {bs : List Byte} (h : bs.length ≤ 256) : (pageBytes bs).length = 256 := by
  unfold pageBytes
  rw [List.length_append, List.length_replicate]
  omega

/-- A page's bytes: the staged ones, 0xFF in the rest. -/
theorem pageBytes_getD {bs : List Byte} {k : Nat} (hk : k < 256) : (pageBytes bs).getD k 0xFF#8 = bs.getD k 0xFF#8 := by
  unfold pageBytes
  simp only [List.getD_eq_getElem?_getD, List.getElem?_append]
  split
  · rfl
  · next h =>
    rw [List.getElem?_replicate, if_pos (by omega), List.getElem?_eq_none (by omega)]
    rfl

theorem freeBytes_length (s : State) (n : Nat) : (freeBytes s n).length = n := by simp [freeBytes]

theorem spoiledImage_length (s : State) : (spoiledImage s).length = 778 := by
  unfold spoiledImage
  dsimp only
  split
  · rw [List.length_set, freeBytes_length]
  · exact freeBytes_length s 778

/-- The byte that an address of the flash reads as. -/
def flashReads (s : State) (x : Nat) : Byte := Mem.read flashBlank s.flash x

/-- What an erase that fails leaves: free bytes in the sector. -/
theorem flashEffect_eraseFailed (s : State) : flashEffect .eraseSettings false s =
    spendFree { s with flash := Mem.writeBytes flashBlank s.flash 0 (freeBytes s 4096) } := by
  unfold flashEffect
  exact if_neg Bool.false_ne_true

theorem flashEffect_imageFailed (image : List Byte) (s : State) : flashEffect (.writeImage image) false s =
    spendFree { s with flash := Mem.writeBytes flashBlank s.flash 0 (spoiledImage s) } := by
  unfold flashEffect
  exact if_neg Bool.false_ne_true

theorem flashEffect_pageFailed (page : Nat) (bs : List Byte) (s : State) :
    flashEffect (.writePage page bs) false s =
      spendFree { s with flash := Mem.writeBytes flashBlank s.flash (4096 + 256 * page) (freeBytes s 256) } := by
  unfold flashEffect
  exact if_neg Bool.false_ne_true

theorem flashReads_spendFree (s : State) (x : Nat) : flashReads (spendFree s) x = flashReads s x := rfl

/-- Bytes written elsewhere do not reach an address. -/
theorem reads_outside {s : State} (hwf : Mem.wf flashBlank s.flash = true) {a x : Nat} {bs : List Byte}
    (hx : x < a ∨ a + bs.length ≤ x) :
    flashReads { s with flash := Mem.writeBytes flashBlank s.flash a bs } x = flashReads s x :=
  (Mem.read_writeBytes flashBlank bs s.flash a x hwf).trans (if_neg (by omega))

section Effects

variable {s : State} (hwf : Mem.wf flashBlank s.flash = true)
include hwf

theorem reads_erased (x : Nat) :
    flashReads (flashEffect .eraseSettings true s) x = if x < 4096 then 0xFF#8 else flashReads s x :=
  Mem.read_dropBelow flashBlank 4096 x hwf

theorem reads_eraseFailed {x : Nat} (hx : 4096 ≤ x) :
    flashReads (flashEffect .eraseSettings false s) x = flashReads s x := by
  rw [flashEffect_eraseFailed, flashReads_spendFree]
  refine reads_outside hwf (.inr ?_)
  rw [freeBytes_length]
  omega

theorem reads_imageWritten (image : List Byte) (x : Nat) : flashReads (flashEffect (.writeImage image) true s) x =
    if x < image.length then image.getD x 0xFF#8 else flashReads s x := by
  refine (Mem.read_writeBytes flashBlank image s.flash 0 x hwf).trans ?_
  rw [Nat.zero_add, Nat.sub_zero]
  exact if_congr (and_iff_right (Nat.zero_le x)) rfl rfl

theorem reads_imageFailed (image : List Byte) {x : Nat} (hx : 778 ≤ x) :
    flashReads (flashEffect (.writeImage image) false s) x = flashReads s x := by
  rw [flashEffect_imageFailed, flashReads_spendFree]
  refine reads_outside hwf (.inr ?_)
  rw [spoiledImage_length]
  omega

theorem reads_pageWritten (page : Nat) {bs : List Byte} (hbs : bs.length ≤ 256) (x : Nat) :
    flashReads (flashEffect (.writePage page bs) true s) x =
      if 4096 + 256 * page ≤ x ∧ x < 4096 + 256 * page + 256 then bs.getD (x - (4096 + 256 * page)) 0xFF#8
      else flashReads s x := by
  refine (Mem.read_writeBytes flashBlank (pageBytes bs) s.flash (4096 + 256 * page) x hwf).trans ?_
  rw [pageBytes_length hbs]
  split
  · exact pageBytes_getD (by omega)
  · rfl

theorem reads_pageFailed (page : Nat) (bs : List Byte) {x : Nat}
    (hx : x < 4096 + 256 * page ∨ 4096 + 256 * page + 256 ≤ x) :
    flashReads (flashEffect (.writePage page bs) false s) x = flashReads s x := by
  rw [flashEffect_pageFailed, flashReads_spendFree]
  refine reads_outside hwf ?_
  rw [freeBytes_length]
  exact hx

end Effects

/-- A use of the free values that writes the flash. -/
theorem spendFree_writes (s : State) (m : Mem) : spendFree { s with flash := m } =
    { s with flash := (spendFree { s with flash := m }).flash, freeCount := s.freeCount + 1 } := rfl

/-- An operation of the Store that ends well changes the flash alone, one that fails counts a use of the free values. -/
theorem flashEffect_store {op : FlashOp} (h : ∀ a n, op ≠ .read a n) (ok : Bool) (s : State) :
    flashEffect op ok s = { s with
    flash := (flashEffect op ok s).flash, freeCount := if ok = true then s.freeCount else s.freeCount + 1 } := by
  cases ok with
  | true =>
    cases op with
    | read a n => exact absurd rfl (h a n)
    | eraseSettings => rfl
    | writeImage image => rfl
    | writePage page bs => rfl
  | false =>
    rw [if_neg Bool.false_ne_true]
    cases op with
    | read a n => exact absurd rfl (h a n)
    | eraseSettings =>
      rw [flashEffect_eraseFailed]
      exact spendFree_writes s _
    | writeImage image =>
      rw [flashEffect_imageFailed]
      exact spendFree_writes s _
    | writePage page bs =>
      rw [flashEffect_pageFailed]
      exact spendFree_writes s _

/-! ### The ends of the Store's operations (R175) -/

/-- The state in which an operation of the Store has ended: the flash as it left it, the port free. -/
def storeEnded (op : FlashOp) (ok : Bool) (s : State) : State := portFreed (flashEffect op ok s)

theorem storeEnded_flash (op : FlashOp) (ok : Bool) (s : State) :
    (storeEnded op ok s).flash = (flashEffect op ok s).flash := rfl

/-- The port after an operation: the start-up read follows where one waits (R175, R178). -/
def freedPort (s : State) : FlashPort :=
  { s.port with
    busy := if s.phase = .loading then some ({ who := .startUp, op := .read 0 778, entered := s.partTime }, false) else none }

theorem storeEnded_eq {op : FlashOp} (h : ∀ a n, op ≠ .read a n) (ok : Bool) (s : State) :
    storeEnded op ok s = { s with
    flash := (flashEffect op ok s).flash, freeCount := if ok = true then s.freeCount else s.freeCount + 1
    port := freedPort s } := by
  unfold storeEnded
  rw [flashEffect_store h]
  rfl

section Ends

variable {s : State} {at_ : Time} {discarded : Bool}

theorem exec_saveErase (h : s.port.busy = some ({ who := .store, op := .eraseSettings, entered := at_ }, discarded))
    (ok : Bool) : exec (.saveEraseComplete ok) s = .next
      (if discarded = true then storeEnded .eraseSettings ok s else eraseDone ok (storeEnded .eraseSettings ok s)) := by
  have hrow : exec (.saveEraseComplete ok) s = execSaveEraseComplete ok s := rfl
  rw [hrow, execSaveEraseComplete, h]
  rfl

theorem exec_saveWrite {image : List Byte}
    (h : s.port.busy = some ({ who := .store, op := .writeImage image, entered := at_ }, discarded)) (ok : Bool) :
    exec (.saveWriteComplete ok) s = .next (if discarded = true then storeEnded (.writeImage image) ok s
      else imageWritten ok (storeEnded (.writeImage image) ok s)) := by
  have hrow : exec (.saveWriteComplete ok) s = execSaveWriteComplete ok s := rfl
  rw [hrow, execSaveWriteComplete, h]
  rfl

theorem exec_bankWrite {page : Nat} {bs : List Byte}
    (h : s.port.busy = some ({ who := .store, op := .writePage page bs, entered := at_ }, discarded)) (ok : Bool) :
    exec (.bankWriteComplete ok) s = .next (if discarded = true then storeEnded (.writePage page bs) ok s
      else pageWritten ok (storeEnded (.writePage page bs) ok s)) := by
  have hrow : exec (.bankWriteComplete ok) s = execBankWriteComplete ok s := rfl
  rw [hrow, execBankWriteComplete, h]
  rfl

/-- A SAVE that fails: FLASH_ERROR is reported, and the job is over. -/
theorem saveFailed (u : State) :
    let t := endSave (reportFault .flashError false u)
    t.job = .none ∧ t.faults = updateAt u.faults 7 (fun r => r.report false u.partTime) ∧ t.unsaved = u.unsaved ∧
      t.flash = u.flash ∧ t.settings = u.settings ∧ t.txn = u.txn := by
  intro t
  have h : SoundFrame { reportFault .flashError false u with job := .none, image := [] } t := .updateMode _
  exact ⟨(congrArg State.job h :), (congrArg State.faults h :), (congrArg State.unsaved h :),
    (congrArg State.flash h :), (congrArg State.settings h :), (congrArg State.txn h :)⟩

/-- The page is written or not: the directory is asked for again (R174). -/
theorem pageWritten_asks (u : State) (faults : List FaultRecord) :
    let v := { u with faults := faults, job := .bankRead, sound := { u.sound with dirPending := true } }
    let t := requestDirectory { u with faults := faults, job := .bankRead }
    t = { v with port := t.port } ∧ AsksFlash { who := .directory, op := .read 4096 1284, entered := u.partTime } t := by
  intro v t
  exact ⟨requestFlash_port _ _ v, asksFlash_requestFlash _ _ v⟩

end Ends

/-! ### SAVE (R173) -/

theorem exec_save_dispatched {s t : State} {f : Frame} {m : Mark} {src : Source} (h : Dispatched s f m src t)
    (hk : f.kind = 0x13) : exec .save s = .next (replied s f m src (plain (saveTaken src t))) := by
  have hrow : exec .save s = .next (takeRequest (ofKind 0x13) actSave s) := rfl
  rw [exec_taken_dispatched hrow h (ofKind_of_kind_eq hk)]
  rfl

/-- The Store's copy is taken and the job begun. -/
def saveBegun (s : State) : State :=
  { s with job := .save, image := s.settings ++ crcBytes s.settings, changedSinceCopy := false }

theorem saveTaken_accepted {src : Source} {s : State} (hmay : mayControl s src = true) (hjob : s.job = .none) :
    saveTaken src s = (.ok, requestFlash .store .eraseSettings (updateMode (saveBegun s))) := by
  unfold saveTaken
  rw [hmay, if_neg (by decide), if_neg (not_not.2 hjob)]
  rfl

/-- Requests only go. -/
structure PortShrinks (s t : State) : Prop where
  waiting : ∀ r ∈ t.port.waiting, r ∈ s.port.waiting
  idle : s.port.busy = none → t.port.busy = none

theorem PortShrinks.refl (s : State) : PortShrinks s s := ⟨fun _ => id, id⟩

theorem PortShrinks.trans {a b c : State} (h : PortShrinks a b) (k : PortShrinks b c) : PortShrinks a c :=
  ⟨fun r hr => h.waiting r (k.waiting r hr), fun hb => k.idle (h.idle hb)⟩

theorem PortShrinks.of_port {s t : State} (h : t.port = s.port) : PortShrinks s t := by
  refine ⟨fun r hr => ?_, fun hb => ?_⟩
  · rwa [h] at hr
  · rwa [h]

theorem PortShrinks.withdrawVoice (v : Nat) (s : State) : PortShrinks s (withdrawVoice v s) := by
  refine ⟨fun r hr => (List.mem_filter.1 hr).1, fun hb => ?_⟩
  unfold Machine.withdrawVoice
  dsimp only
  rw [hb]
  rfl

theorem PortShrinks.fadeVoice (v : Nat) (s : State) : PortShrinks s (fadeVoice v s) := by
  unfold Machine.fadeVoice
  dsimp only
  split
  · exact .of_port rfl
  · split
    · have hset : PortShrinks s (setVoice v { voice s v with stack := [] } s) := .of_port rfl
      exact hset.trans ((PortShrinks.withdrawVoice v _).trans (.of_port rfl))
    · exact (PortShrinks.withdrawVoice v s).trans (.of_port rfl)

theorem PortShrinks.goQuiet (s : State) : PortShrinks s (goQuiet s) := by
  have hended : PortShrinks s (ambientEnded s) := by
    refine .of_port ?_
    unfold ambientEnded
    split
    · unfold triggerEnd
      split <;> rfl
    · rfl
  have hfold (l : List Nat) (u : State) : PortShrinks u (l.foldl (fun s v => Machine.fadeVoice v s) u) := by
    induction l generalizing u with
    | nil => exact .refl u
    | cons v l ih => exact (PortShrinks.fadeVoice v u).trans (ih _)
  rw [goQuiet_eq]
  exact hended.trans (hfold _ _)

/-- A voice that is not IDLE has no request outstanding once QUIET has begun. -/
theorem goQuiet_withdraws {s : State} {v : Nat} (hv : v < 6) {vo : Voice} (hget : s.sound.voices[v]? = some vo)
    (hstate : vo.state ≠ .idle) : voiceOutstanding v (goQuiet s) = false := by
  obtain ⟨stack, hended⟩ := ambientEnded_record hget
  rw [goQuiet_eq]
  exact (foldl_fade List.nodup_range (List.mem_range.2 hv) hended).2 hstate

/-- Where QUIET begins with only playing voices' requests waiting at an idle port, no request is left. -/
theorem goQuiet_empties {s : State} (hb : s.port.busy = none)
    (hw : ∀ r ∈ s.port.waiting, ∃ v, v < 6 ∧ r.who = .voice v ∧ ∃ vo, s.sound.voices[v]? = some vo ∧ vo.state ≠ .idle) :
    (goQuiet s).port = { waiting := [], busy := none } := by
  have hshrinks := PortShrinks.goQuiet s
  have hempty : (goQuiet s).port.waiting = [] := by
    refine List.eq_nil_iff_forall_not_mem.2 fun r hr => ?_
    obtain ⟨v, hv, hwho, vo, hget, hstate⟩ := hw r (hshrinks.waiting r hr)
    have hnone := goQuiet_withdraws hv hget hstate
    unfold voiceOutstanding at hnone
    have hsome : (goQuiet s).port.waiting.any (fun r => r.who == .voice v) = true :=
      List.any_eq_true.2 ⟨r, hr, beq_iff_eq.2 hwho⟩
    rw [hsome] at hnone
    cases hnone
  have hbusy := hshrinks.idle hb
  generalize (goQuiet s).port = p at *
  obtain ⟨w, b⟩ := p
  obtain rfl : w = [] := hempty
  obtain rfl : b = none := hbusy
  rfl

/-- What an accepted SAVE leaves. -/
theorem save_leaves (t : State) :
    let u := requestFlash .store .eraseSettings (updateMode (saveBegun t))
    u.image = t.settings ++ crcBytes t.settings ∧
      AsksFlash { who := .store, op := .eraseSettings, entered := t.partTime } u ∧ u.sound.mode = .quiet ∧
      (t.port.busy = none → (∀ r ∈ t.port.waiting, ∃ v, v < 6 ∧ r.who = .voice v ∧
        ∃ vo, t.sound.voices[v]? = some vo ∧ vo.state ≠ .idle) → t.sound.mode = .normal →
        u.port = { waiting := [], busy := some ({ who := .store, op := .eraseSettings, entered := t.partTime }, false) }) ∧
      u = { t with job := .save, image := u.image, changedSinceCopy := false, sound := u.sound, port := u.port } := by
  intro u
  have hcause : quietCause (saveBegun t) = true := (quietCause_iff _).2 (.inr (.inr (.inr (.inl nofun))))
  have hframe : SoundFrame (saveBegun t) (updateMode (saveBegun t)) := .updateMode _
  obtain ⟨hmove, hfits, -⟩ := updateMode_move (saveBegun t)
  have hquiet : (updateMode (saveBegun t)).sound.mode = .quiet :=
    hfits.2 ((quietCause_of_move hmove).trans hcause)
  have hbegins (hm : t.sound.mode = .normal) : updateMode (saveBegun t) = goQuiet (saveBegun t) :=
    updateMode_begins hm hcause
  have hport := requestFlash_port .store .eraseSettings (updateMode (saveBegun t))
  have hasks := asksFlash_requestFlash .store .eraseSettings (updateMode (saveBegun t))
  have hnow : (updateMode (saveBegun t)).partTime = t.partTime := (congrArg State.partTime hframe :)
  rw [hnow] at hasks
  have hall : u = { t with
      job := .save, image := u.image, changedSinceCopy := false, sound := u.sound, port := u.port } := by
    have himage : u.image = t.settings ++ crcBytes t.settings :=
      (congrArg State.image hport :).trans (congrArg State.image hframe :)
    change u = _ at hport
    clear_value u
    generalize updateMode (saveBegun t) = v at *
    rw [himage, hport, hframe]
    rfl
  refine ⟨(congrArg State.image hport :).trans (congrArg State.image hframe :), hasks,
    (congrArg (fun x : State => x.sound.mode) hport :).trans hquiet, fun hb hw hm => ?_, hall⟩
  have hempty : (updateMode (saveBegun t)).port = { waiting := [], busy := none } := by
    rw [hbegins hm]
    exact goQuiet_empties (s := saveBegun t) hb hw
  change (requestFlash .store .eraseSettings (updateMode (saveBegun t))).port = _
  unfold requestFlash
  rw [hempty, hnow]
  rfl

/-! ### What the ends of a SAVE's and a page's operations leave (R173, R174) -/

/-- The state after an operation of the Store that ended as told, with the result not yet brought to the Store. -/
theorem storeEnded_exists {op : FlashOp} (h : ∀ a n, op ≠ .read a n) (ok : Bool) (s : State) :
    ∃ flash n, storeEnded op ok s = { s with flash := flash, port := freedPort s, freeCount := n } ∧
      (ok = true → n = s.freeCount) ∧ flash = (flashEffect op ok s).flash := by
  refine ⟨_, _, storeEnded_eq h ok s, fun hok => if_pos hok, rfl⟩

/-- An erase that ends well: the sector is blank and the image's write is asked for. -/
theorem eraseDone_leaves {s u : State} {m : Mem}
    (hu : u = { s with flash := m, port := freedPort s, freeCount := s.freeCount }) :
    let t := eraseDone true u
    t.flash = m ∧ t = { s with flash := t.flash, port := t.port } ∧
      AsksFlash { who := .store, op := .writeImage s.image, entered := s.partTime } t := by
  intro t
  subst hu
  have hframe := requestFlash_port .store (.writeImage s.image) { s with flash := m, port := freedPort s }
  change t = { s with flash := m, port := t.port } at hframe
  have hflash : t.flash = m := (congrArg State.flash hframe :)
  refine ⟨hflash, ?_, asksFlash_requestFlash .store (.writeImage s.image) _⟩
  rw [hflash]
  exact hframe

/-- The image's write that ends well: the SAVE is over, and the settings are unsaved just where they were and have
changed since the copy. -/
theorem imageWritten_leaves {s u : State} {m : Mem}
    (hu : u = { s with flash := m, port := freedPort s, freeCount := s.freeCount }) :
    let t := imageWritten true u
    t.flash = m ∧ t.unsaved = (s.changedSinceCopy && s.unsaved) ∧ t.job = .none ∧
      t = { s with flash := t.flash, port := t.port, sound := t.sound, unsaved := t.unsaved, job := .none, image := t.image } := by
  intro t
  subst hu
  have h := SoundFrame.updateMode { s with
    flash := m, port := freedPort s, unsaved := s.changedSinceCopy && s.unsaved, job := .none, image := [] }
  change SoundFrame _ t at h
  clear_value t
  refine ⟨(congrArg State.flash h :), (congrArg State.unsaved h :), (congrArg State.job h :), ?_⟩
  have himage := (congrArg State.image h :)
  have hunsaved := (congrArg State.unsaved h :)
  have hflash := (congrArg State.flash h :)
  rw [himage, hunsaved, hflash]
  exact h

/-- A SAVE's operation that fails. -/
theorem saveFailed_leaves {s u : State} {m : Mem} {n : Nat}
    (hu : u = { s with flash := m, port := freedPort s, freeCount := n }) :
    let t := endSave (reportFault .flashError false u)
    t.flash = m ∧ t.job = .none ∧ t.faults = updateAt s.faults 7 (fun r => r.report false s.partTime) ∧
      t.unsaved = s.unsaved ∧ t.settings = s.settings ∧ t.txn = s.txn := by
  intro t
  obtain ⟨hjob, hfaults, hunsaved, hflash, hsettings, htxn⟩ := saveFailed u
  subst hu
  exact ⟨hflash, hjob, hfaults, hunsaved, hsettings, htxn⟩

/-- A page's write that ends well: the directory is asked for. -/
theorem pageWritten_leaves {s u : State} {m : Mem}
    (hu : u = { s with flash := m, port := freedPort s, freeCount := s.freeCount }) :
    let t := pageWritten true u
    t.flash = m ∧ AsksFlash { who := .directory, op := .read 4096 1284, entered := s.partTime } t ∧
      t = { s with flash := t.flash, port := t.port, job := .bankRead, sound := { s.sound with dirPending := true } } := by
  intro t
  subst hu
  obtain ⟨hport, hasks⟩ := pageWritten_asks { s with flash := m, port := freedPort s } s.faults
  change t = _ at hport
  change AsksFlash _ t at hasks
  have hflash : t.flash = m := (congrArg State.flash hport :)
  refine ⟨hflash, hasks, ?_⟩
  rw [hflash]
  exact hport

/-- A page's write that fails: FLASH_ERROR is reported, and the directory is asked for all the same. -/
theorem pageWritten_fails {s u : State} {m : Mem} {n : Nat}
    (hu : u = { s with flash := m, port := freedPort s, freeCount := n }) :
    let t := pageWritten false u
    t.flash = m ∧ t.faults = updateAt s.faults 7 (fun r => r.report false s.partTime) ∧ t.job = .bankRead ∧
      AsksFlash { who := .directory, op := .read 4096 1284, entered := s.partTime } t := by
  intro t
  subst hu
  obtain ⟨hport, hasks⟩ := pageWritten_asks { s with flash := m, port := freedPort s, freeCount := n }
    (updateAt s.faults 7 (fun r => r.report false s.partTime))
  change t = _ at hport
  change AsksFlash _ t at hasks
  exact ⟨(congrArg State.flash hport :), (congrArg State.faults hport :), (congrArg State.job hport :), hasks⟩

/-! ### The ends of each kind of operation, brought to the Store or discarded -/

section Kinds

variable {s : State} {at_ : Time} (hwf : Mem.wf flashBlank s.flash = true)
include hwf

theorem eraseEnds (hbusy : s.port.busy = some ({ who := .store, op := .eraseSettings, entered := at_ }, false)) :
    (∃ t, exec (.saveEraseComplete true) s = .next t ∧ t = { s with flash := t.flash, port := t.port } ∧
      (∀ a, flashReads t a = if a < 4096 then 0xFF#8 else flashReads s a) ∧
      AsksFlash { who := .store, op := .writeImage s.image, entered := s.partTime } t) ∧
    (∃ t, exec (.saveEraseComplete false) s = .next t ∧ t.job = .none ∧
      t.faults = updateAt s.faults 7 (fun r => r.report false s.partTime) ∧ t.unsaved = s.unsaved ∧
      (∀ a, 4096 ≤ a → flashReads t a = flashReads s a) ∧ t.settings = s.settings ∧ t.txn = s.txn) := by
  constructor
  · obtain ⟨m, n, hu, hn, hm⟩ := storeEnded_exists (op := .eraseSettings) nofun true s
    obtain rfl := hn rfl
    obtain ⟨hflash, hframe, hasks⟩ := eraseDone_leaves hu
    refine ⟨_, exec_saveErase hbusy true, hframe, fun a => ?_, hasks⟩
    refine Eq.trans ?_ (reads_erased hwf a)
    exact congrArg (fun m => Mem.read flashBlank m a) (hflash.trans hm)
  · obtain ⟨m, n, hu, -, hm⟩ := storeEnded_exists (op := .eraseSettings) nofun false s
    obtain ⟨hflash, hjob, hfaults, hunsaved, hsettings, htxn⟩ := saveFailed_leaves hu
    refine ⟨_, exec_saveErase hbusy false, hjob, hfaults, hunsaved, fun a ha => ?_, hsettings, htxn⟩
    refine Eq.trans ?_ (reads_eraseFailed hwf ha)
    exact congrArg (fun m => Mem.read flashBlank m a) (hflash.trans hm)

theorem imageEnds {image : List Byte}
    (hbusy : s.port.busy = some ({ who := .store, op := .writeImage image, entered := at_ }, false)) :
    (∃ t, exec (.saveWriteComplete true) s = .next t ∧
      t.unsaved = (s.changedSinceCopy && s.unsaved) ∧ t.job = .none ∧
      (∀ a, flashReads t a = if a < image.length then image.getD a 0xFF#8 else flashReads s a) ∧
      t = { s with flash := t.flash, port := t.port, sound := t.sound, unsaved := t.unsaved, job := .none, image := t.image }) ∧
    (∃ t, exec (.saveWriteComplete false) s = .next t ∧ t.job = .none ∧
      t.faults = updateAt s.faults 7 (fun r => r.report false s.partTime) ∧ t.unsaved = s.unsaved ∧
      (∀ a, 778 ≤ a → flashReads t a = flashReads s a) ∧ t.settings = s.settings ∧ t.txn = s.txn) := by
  constructor
  · obtain ⟨m, n, hu, hn, hm⟩ := storeEnded_exists (op := .writeImage image) nofun true s
    obtain rfl := hn rfl
    obtain ⟨hflash, hunsaved, hjob, hframe⟩ := imageWritten_leaves hu
    refine ⟨_, exec_saveWrite hbusy true, hunsaved, hjob, fun a => ?_, hframe⟩
    refine Eq.trans ?_ (reads_imageWritten hwf image a)
    exact congrArg (fun m => Mem.read flashBlank m a) (hflash.trans hm)
  · obtain ⟨m, n, hu, -, hm⟩ := storeEnded_exists (op := .writeImage image) nofun false s
    obtain ⟨hflash, hjob, hfaults, hunsaved, hsettings, htxn⟩ := saveFailed_leaves hu
    refine ⟨_, exec_saveWrite hbusy false, hjob, hfaults, hunsaved, fun a ha => ?_, hsettings, htxn⟩
    refine Eq.trans ?_ (reads_imageFailed hwf image ha)
    exact congrArg (fun m => Mem.read flashBlank m a) (hflash.trans hm)

theorem pageEnds {page : Nat} {bs : List Byte} (hbs : bs.length ≤ 256)
    (hbusy : s.port.busy = some ({ who := .store, op := .writePage page bs, entered := at_ }, false)) :
    (∃ t, exec (.bankWriteComplete true) s = .next t ∧
      (∀ a, flashReads t a = if 4096 + 256 * page ≤ a ∧ a < 4096 + 256 * page + 256
        then bs.getD (a - (4096 + 256 * page)) 0xFF#8 else flashReads s a) ∧
      AsksFlash { who := .directory, op := .read 4096 1284, entered := s.partTime } t ∧
      t = { s with flash := t.flash, port := t.port, job := .bankRead, sound := { s.sound with dirPending := true } }) ∧
    (∃ t, exec (.bankWriteComplete false) s = .next t ∧
      t.faults = updateAt s.faults 7 (fun r => r.report false s.partTime) ∧ t.job = .bankRead ∧
      (∀ a, a < 4096 + 256 * page ∨ 4096 + 256 * page + 256 ≤ a → flashReads t a = flashReads s a) ∧
      AsksFlash { who := .directory, op := .read 4096 1284, entered := s.partTime } t) := by
  constructor
  · obtain ⟨m, n, hu, hn, hm⟩ := storeEnded_exists (op := .writePage page bs) nofun true s
    obtain rfl := hn rfl
    obtain ⟨hflash, hasks, hframe⟩ := pageWritten_leaves hu
    refine ⟨_, exec_bankWrite hbusy true, fun a => ?_, hasks, hframe⟩
    refine Eq.trans ?_ (reads_pageWritten hwf page hbs a)
    exact congrArg (fun m => Mem.read flashBlank m a) (hflash.trans hm)
  · obtain ⟨m, n, hu, -, hm⟩ := storeEnded_exists (op := .writePage page bs) nofun false s
    obtain ⟨hflash, hfaults, hjob, hasks⟩ := pageWritten_fails hu
    refine ⟨_, exec_bankWrite hbusy false, hfaults, hjob, fun a ha => ?_, hasks⟩
    refine Eq.trans ?_ (reads_pageFailed hwf page bs ha)
    exact congrArg (fun m => Mem.read flashBlank m a) (hflash.trans hm)

omit hwf in
/-- An operation whose result a reset has discarded changes the flash, frees the port and does no more (R175, R178). -/
theorem discardedEnds {op : FlashOp} (hop : ∀ a n, op ≠ .read a n) {c : Bool → Instr} {a n : Nat} {put : Nat → Byte}
    (hexec : ∀ ok, exec (c ok) s = .next (storeEnded op ok s))
    (hgood : ∀ x, flashReads (flashEffect op true s) x = if a ≤ x ∧ x < a + n then put (x - a) else flashReads s x)
    (hbad : ∀ x, x < a ∨ a + n ≤ x → flashReads (flashEffect op false s) x = flashReads s x) :
    (∃ t, exec (c true) s = .next t ∧ t = { s with flash := t.flash, port := freedPort s } ∧
      ∀ x, flashReads t x = if a ≤ x ∧ x < a + n then put (x - a) else flashReads s x) ∧
    (∃ t, exec (c false) s = .next t ∧
      t = { s with flash := t.flash, port := freedPort s, freeCount := s.freeCount + 1 } ∧
      ∀ x, x < a ∨ a + n ≤ x → flashReads t x = flashReads s x) := by
  have hflash (ok : Bool) (x : Nat) : flashReads (storeEnded op ok s) x = flashReads (flashEffect op ok s) x :=
    congrArg (fun m => Mem.read flashBlank m x) (storeEnded_flash op ok s)
  refine ⟨⟨_, hexec true, storeEnded_eq hop true s, fun x => (hflash true x).trans (hgood x)⟩,
    ⟨_, hexec false, ?_, fun x hx => (hflash false x).trans (hbad x hx)⟩⟩
  have h := storeEnded_eq hop false s
  rwa [if_neg Bool.false_ne_true] at h

end Kinds

theorem interval_from_zero {n x : Nat} : (0 ≤ x ∧ x < 0 + n) ↔ x < n := by omega

/-- Settles O57. -/
theorem saveAndBankReachTheFlash : Obligations.SaveAndBankReachTheFlash := by
  refine ⟨fun s f m src t h hk => ⟨fun hno => ?_, fun hmay hjob => ?_, fun hmay hjob => ?_⟩,
    fun s op at_ hmem _ hbusy => ⟨?_, fun image hop => ?_, fun page bs hop hbs => ?_⟩,
    fun s op at_ hmem hbusy => ⟨fun hop => ?_, fun image hop hlen => ?_, fun page bs hop hbs => ?_⟩⟩
  · have hmay : mayControl t src = false := Bool.eq_false_iff.2 (mt (mayControl_iff t src).1 hno)
    rw [exec_save_dispatched h hk, saveTaken, hmay]
    rfl
  · rw [exec_save_dispatched h hk, saveTaken, (mayControl_iff t src).2 hmay, if_neg (by decide), if_pos hjob]
    rfl
  · refine ⟨_, ?_, save_leaves t⟩
    rw [exec_save_dispatched h hk, saveTaken_accepted ((mayControl_iff t src).2 hmay) hjob]
    rfl
  · intro hop
    subst hop
    exact eraseEnds hmem.1 hbusy
  · subst hop
    exact imageEnds hmem.1 hbusy
  · subst hop
    exact pageEnds hmem.1 hbs hbusy
  · subst hop
    refine discardedEnds (op := .eraseSettings) (n := 4096) (put := fun _ => 0xFF#8) nofun
      (exec_saveErase hbusy) (fun x => ?_)
      fun x hx => reads_eraseFailed hmem.1 (by omega)
    rw [reads_erased hmem.1, if_congr interval_from_zero rfl rfl]
  · subst hop
    refine discardedEnds (op := .writeImage image) (n := 778) (put := fun k => image.getD k 0xFF#8) nofun
      (exec_saveWrite hbusy) (fun x => ?_)
      fun x hx => reads_imageFailed hmem.1 image (by omega)
    rw [reads_imageWritten hmem.1, hlen, if_congr interval_from_zero rfl rfl]
    rfl
  · subst hop
    exact discardedEnds (op := .writePage page bs) (put := fun k => bs.getD k 0xFF#8) nofun (exec_bankWrite hbusy)
      (reads_pageWritten hmem.1 page hbs) fun x hx => reads_pageFailed hmem.1 page bs hx

end Sys2Proof.Machine
end
